-- ==== Sys2Proof/Word.lean ====
section
/-! DEFINITION. The word types of the model, and the exact value type its arithmetic is written in. -/

namespace Sys2Proof

/-- One byte. -/
abbrev Byte := BitVec 8
/-- One lane register of one lane (R131). -/
abbrev Word32 := BitVec 32
/-- A uniform register, a mask register, a 64-bit register (R131). -/
abbrev Word64 := BitVec 64
/-- A W80 value: exponent E in bits 79:64, significand S in bits 63:0 (R51). -/
abbrev Wide := BitVec 80

/-- An exact value read from a number format: NaN, a signed infinity, or `(-1)^neg * m * 2^e`.
A zero keeps its sign where the format has one (R49). -/
inductive Val where
  | nan
  | inf (neg : Bool)
  | fin (neg : Bool) (m : Nat) (e : Int)
  deriving DecidableEq, Repr

/-- A finite association list with a default for the keys it does not list. Its canonical form
(keys strictly rising, no entry equal to the default) is `Sparse.wf`. -/
abbrev Sparse (α : Type) := List (Nat × α)

end Sys2Proof
end

