-- ==== Sys2Proof/Syntax.lean ====
section
/-! DEFINITION. The commands the block takes (one constructor per row of the opcode table) and their operands.

The block has no encoding of its own for a command: spec/opcode_table.json gives no row any bits. An instruction
row carries bits 55:0 of its 64-bit word (R163), its opcode being the constructor, and names the group that
presents it. An event row carries what its surroundings bring: the reading, the message, the outcome. -/

namespace Sys2Proof

/-- The four streams of a core (R4). -/
inductive Stream where
  | f | b | u | g
  deriving DecidableEq, Repr

/-- A thread group: its core g (R4), its stream, its group index q (R128, R129). -/
structure Who where
  core : Nat
  strm : Stream
  grp : Nat
  deriving DecidableEq, Repr

/-- A crossing that can fail (R32): a die-to-die link between compute dies, a UCIe attachment of a compute die
to a memory-side die, or of a compute die to an I/O die. -/
inductive Crossing where
  | link (a b : Nat)
  | mem (d m : Nat)
  | io (d i : Nat)
  deriving DecidableEq, Repr

/-- Who writes or reads a register (R41, R432, R433): the management controller, by its offset in the register range; the host of
an LD through CXL.io, by the offset of its flask's window in that range, or by the offset in the LD's BAR. -/
inductive RegPath where
  | mgmt
  | cxl (ld : Nat)
  | bar (ld : Nat)
  deriving DecidableEq, Repr

/-- A fabric message (R321): four header words and the data part. -/
structure Msg where
  w0 : Word64
  w1 : Word64
  w2 : Word64
  w3 : Word64
  data : List Byte
  deriving DecidableEq, Repr

/-- Media types of R316; any other lies outside every class. -/
inductive Media where
  | copper | activeElectrical | multimode | singleMode | other
  deriving DecidableEq, Repr

/-- What the identity memory of a cable or pluggable module reads as (R314 to R316): its SFF-8024 identifier, the media type and the
cable assembly length, in 0.1 m, of upper page 00h, bytes 128 to 159 of page 03h; whether it is active, and whether its advertised
power exceeds 9 W (R527). -/
structure Cable where
  ident : Nat
  media : Media
  len : Nat
  block : List Byte
  active : Bool
  hot : Bool
  deriving DecidableEq, Repr

/-- What a lane's Reed-Solomon decoder saw of one codeword (R309): the lane, and the symbols in error with the value added to each. -/
structure LaneWord where
  lane : Nat
  errs : List (Nat × Nat)
  deriving DecidableEq, Repr

/-- A layer-complete mark on its way to the ladles (R148, R361): the group that issued it, where, its flask, and bits
15:0 of its layer number field. -/
structure Mark where
  who : Who
  pc : Nat
  flask : Nat
  val : Nat
  deriving DecidableEq, Repr

/-- The path a management message came by (R473, R524, R535): Ethernet, I3C, or the DOE mailbox of an LD. -/
inductive MPath where
  | eth
  | i3c
  | doe (ld : Nat)
  deriving DecidableEq, Repr

/-- The sender of a management message: its path, and its address and port. -/
structure Peer where
  path : MPath
  addr : Nat
  port : Nat
  deriving DecidableEq, Repr

/-- A whole management message (R536, R537): its sender, its message id, the session it came inside of (its SID + 1; 0: none), its
CODE, its SID, and its bytes from byte 4 on. -/
structure MgtMsg where
  src : Peer
  mid : Nat
  sess : Nat
  code : Nat
  sid : Nat
  body : List Byte
  deriving DecidableEq, Repr

/-- A PLL (R482, R484): a cluster's, or another, by its kind (the row of R482, the cluster's being row 0) and its number. -/
inductive PllUnit where
  | cluster (k : Nat)
  | other (kind inst : Nat)
  deriving DecidableEq, Repr

/-- The commands: one constructor per row of spec/opcode_table.json, under the row's mnemonic. -/
inductive Instr where
  /-- LINK_FAILED (R32): A die-to-die link or UCIe attachment fails while running: fatal record, every job aborted, outstanding requests end with link-failed status. -/
  | linkFailed (c : Crossing)
  /-- REGISTER_WRITE (R12): A management or CXL.io write to a register that has no behaviour of its own sets its fields under their access codes. -/
  | registerWrite (p : RegPath) (off width : Nat) (v : BitVec 64)
  | nop (x : Who) (w : BitVec 56)
  | umov (x : Who) (w : BitVec 56)
  | umovh (x : Who) (w : BitVec 56)
  | uadd (x : Who) (w : BitVec 56)
  | usub (x : Who) (w : BitVec 56)
  | umul (x : Who) (w : BitVec 56)
  | uand (x : Who) (w : BitVec 56)
  | uor (x : Who) (w : BitVec 56)
  | uxor (x : Who) (w : BitVec 56)
  | ushl (x : Who) (w : BitVec 56)
  | ushr (x : Who) (w : BitVec 56)
  | usar (x : Who) (w : BitVec 56)
  | umin (x : Who) (w : BitVec 56)
  | umax (x : Who) (w : BitVec 56)
  | uslt (x : Who) (w : BitVec 56)
  | ugid (x : Who) (w : BitVec 56)
  | br (x : Who) (w : BitVec 56)
  | brc (x : Who) (w : BitVec 56)
  | brm (x : Who) (w : BitVec 56)
  | exit (x : Who) (w : BitVec 56)
  | mwait (x : Who) (w : BitVec 56)
  | unlistedOpcode (x : Who) (w : BitVec 64)
  | iadd (x : Who) (w : BitVec 56)
  | isub (x : Who) (w : BitVec 56)
  | iand (x : Who) (w : BitVec 56)
  | ior (x : Who) (w : BitVec 56)
  | ixor (x : Who) (w : BitVec 56)
  | ishl (x : Who) (w : BitVec 56)
  | ishr (x : Who) (w : BitVec 56)
  | isar (x : Who) (w : BitVec 56)
  | imov (x : Who) (w : BitVec 56)
  | sel (x : Who) (w : BitVec 56)
  | lid (x : Who) (w : BitVec 56)
  | fabs (x : Who) (w : BitVec 56)
  | fneg (x : Who) (w : BitVec 56)
  | icmp (x : Who) (w : BitVec 56)
  | fcmp (x : Who) (w : BitVec 56)
  | kop (x : Who) (w : BitVec 56)
  | kmovu (x : Who) (w : BitVec 56)
  | umovk (x : Who) (w : BitVec 56)
  | fadd (x : Who) (w : BitVec 56)
  | fsub (x : Who) (w : BitVec 56)
  | fmul (x : Who) (w : BitVec 56)
  | ffma (x : Who) (w : BitVec 56)
  | fmin (x : Who) (w : BitVec 56)
  | fmax (x : Who) (w : BitVec 56)
  | itof (x : Who) (w : BitVec 56)
  | utof (x : Who) (w : BitVec 56)
  | ftoi (x : Who) (w : BitVec 56)
  | ftou (x : Who) (w : BitVec 56)
  | widh (x : Who) (w : BitVec 56)
  | widb (x : Who) (w : BitVec 56)
  | fexp2 (x : Who) (w : BitVec 56)
  | flog2 (x : Who) (w : BitVec 56)
  | frcp (x : Who) (w : BitVec 56)
  | frsq (x : Who) (w : BitVec 56)
  | fdiv (x : Who) (w : BitVec 56)
  | fsqrt (x : Who) (w : BitVec 56)
  | perm (x : Who) (w : BitVec 56)
  | bcst (x : Who) (w : BitVec 56)
  | rdl (x : Who) (w : BitVec 56)
  | wadd (x : Who) (w : BitVec 56)
  | wmul (x : Who) (w : BitVec 56)
  | wtree (x : Who) (w : BitVec 56)
  | ld (x : Who) (w : BitVec 56)
  | ldh (x : Who) (w : BitVec 56)
  | ldb (x : Who) (w : BitVec 56)
  | st (x : Who) (w : BitVec 56)
  | ldu (x : Who) (w : BitVec 56)
  | stu (x : Who) (w : BitVec 56)
  | atom (x : Who) (w : BitVec 56)
  | fence (x : Who) (w : BitVec 56)
  | pfset (x : Who) (w : BitVec 56)
  | cvt (x : Who) (w : BitVec 56)
  | castl (x : Who) (w : BitVec 56)
  | casts (x : Who) (w : BitVec 56)
  | castm (x : Who) (w : BitVec 56)
  | rcset (x : Who) (w : BitVec 56)
  | rcget (x : Who) (w : BitVec 56)
  | rcclr (x : Who) (w : BitVec 56)
  | mload (x : Who) (w : BitVec 56)
  | mstream (x : Who) (w : BitVec 56)
  | mdrain (x : Who) (w : BitVec 56)
  | lcmk (x : Who) (w : BitVec 56)
  | bar (x : Who) (w : BitVec 56)
  | signal (x : Who) (w : BitVec 56)
  | swait (x : Who) (w : BitVec 56)
  | dma (x : Who) (w : BitVec 56)
  | qput (x : Who) (w : BitVec 56)
  | qtake (x : Who) (w : BitVec 56)
  | rnext (x : Who) (w : BitVec 56)
  | rfree (x : Who) (w : BitVec 56)
  /-- LOAD_RESPONSE (R181): Load data returns to the core and the destination becomes available. -/
  | loadResponse (id : Nat)
  /-- ATOM_RESPONSE (R151): Atomic old values return and lane return values are formed. -/
  | atomResponse (id : Nat)
  /-- STORE_ACKNOWLEDGEMENT (R256): A store or atomic acknowledgement returns to the core, releasing waiting releases. -/
  | storeAcknowledgement (id : Nat)
  /-- MLOAD_GRANT (R112): The array grants a queued MLOAD its row port and writes the plane rows. -/
  | mloadGrant (g : Nat)
  /-- PLANE_READY (R112): A loaded plane becomes ready for streaming. -/
  | planeReady (g pl : Nat)
  /-- MSTREAM_GRANT (R112): The array grants a queued MSTREAM the serial port and slices enter. -/
  | mstreamGrant (g : Nat)
  /-- EDGE_LANDING (R110): A vector's half-sums land in the edge file, UNSP or pairwise. -/
  | edgeLanding (g : Nat)
  /-- MDRAIN_GRANT (R112): The array grants a queued MDRAIN and reads, completes and writes its rows. -/
  | mdrainGrant (g : Nat)
  /-- ARRAY_ZEROING_END (R115): Reset zeroing of planes and edge file ends and the planes become ready. -/
  | arrayZeroingEnd (g : Nat)
  /-- MXCLR_GATE (R122): Zeroes COR_MXGATE. -/
  | mxclrGate (g : Nat)
  /-- MXCLR_VEC (R122): Zeroes COR_MXVEC. -/
  | mxclrVec (g : Nat)
  /-- MXCLR_EDGE (R122): Zeroes COR_MXEDGE. -/
  | mxclrEdge (g : Nat)
  /-- MXCLR_ALN (R122): Zeroes COR_MXALN. -/
  | mxclrAln (g : Nat)
  /-- RCCLR_CLEAR (R78): Management write of COR_RCCLR clears a slot's counts. -/
  | rcclrClear (g slot : Nat)
  /-- EXCLR_ATOM (R161): Zeroes COR_ATOM. -/
  | exclrAtom (g : Nat)
  /-- EXCLR_ISSUE (R161): Zeroes every COR_ISSUE counter. -/
  | exclrIssue (g : Nat)
  /-- SYNCCLR_POLL (R307): Zeroes COR_SYNCPOLL. -/
  | syncclrPoll (g : Nat)
  /-- LAUNCH_ACCEPT (R124): A core accepts or rejects a waiting host or guest launch and sets its shape. -/
  | launchAccept (g : Nat) (guest : Bool)
  /-- SPLIT_ZEROING_END (R126): Split-change zeroing of local store ends and ZBUSY clears. -/
  | splitZeroingEnd (g : Nat)
  /-- GUARANTEED_MODE_START (R141): The guest denied-fc count reaches 65,536 and guaranteed mode begins. -/
  | guaranteedModeStart (g : Nat)
  /-- GUARANTEED_MODE_END (R141): Guaranteed mode ends after 4,096 guest issues or when the guest has no group. -/
  | guaranteedModeEnd (g : Nat)
  /-- SEQUENCER_MISMATCH (R143): A duplicated sequencer pair mismatches and the core is quarantined. -/
  | sequencerMismatch (g : Nat) (st : Stream)
  /-- QUARANTINE_RESET (R143): After issued instructions complete, the quarantined core is zeroed. -/
  | quarantineReset (g : Nat)
  /-- CACHE_FILL (R260): A demand or prefetch fill lands and allocates in the core cache only if allowed. -/
  | cacheFill (id : Nat)
  /-- LLC_REQUEST (R208): An LLC bank accepts a read, write or near-memory request and serves or queues it. -/
  | llcRequest (id : Nat)
  /-- NEAR_MEMORY_REQUEST (R211): A near-memory unit applies an atomic or ordered list to a line. -/
  | nearMemoryRequest (id : Nat)
  /-- PREFETCH_LINE_REQUEST (R214): A prefetch stream sends its next line request in an fc free of demand requests. -/
  | prefetchLineRequest (g : Nat)
  /-- BANK_SLOT (R221): A rota bank slot serves the selected request of its bank queue. -/
  | bankSlot (c slot : Nat)
  /-- DRAM_DATA_ARRIVAL (R225): A read's data reaches the home, is decoded, corrected or poisoned, and fills the line. -/
  | dramDataArrival (line : Nat)
  /-- REFRESH_SLOT (R219): The refresh slot issues a per-bank refresh, and ZQ latch or status read when due. -/
  | refreshSlot (c status : Nat) (shorter : Bool)
  /-- SCRUB_SLOT (R228): The scrub slot patrols one line or writes a queued correction or poison. -/
  | scrubSlot (c : Nat)
  /-- BACKING_RESTORE_COMPLETE (R231): The backing-copy read completes and the line is restored or the restore abandoned. -/
  | backingRestoreComplete (line : Nat)
  /-- DGCTL_SNAP (R237): Snapshots a flask's write digest at a home. -/
  | dgctlSnap (m mask : Nat)
  /-- MSD_CLR_REST (R239): Zeroes MSD_RESTORE. -/
  | msdClrRest (m : Nat)
  /-- MSD_CLR_POIS (R239): Clears MSD_POIS.OVF. -/
  | msdClrPois (m : Nat)
  /-- MSD_CLR_LLC (R239): Zeroes the LLC hit and miss counters. -/
  | msdClrLlc (m : Nat)
  /-- CHN_CLR_PIN (R245): Zeroes every CHN_PINSYM counter. -/
  | chnClrPin (c : Nat)
  /-- CHN_CLR_SCRUB (R245): Zeroes CHN_SCRUB. -/
  | chnClrScrub (c : Nat)
  /-- CHN_CLR_RS (R245): Zeroes the Reed-Solomon access counters. -/
  | chnClrRs (c : Nat)
  /-- BARRIER_ARRIVAL (R283): The home applies bar_arrive to a barrier object and returns the old value. -/
  | barrierArrival (id : Nat)
  /-- BARRIER_DEPARTURE (R562): The home applies bar_depart to a barrier object. -/
  | barrierDeparture (id : Nat)
  /-- SIGNAL_UPDATE (R292): An addition to a signal object is applied at its point of coherence. -/
  | signalUpdate (id : Nat)
  /-- POLL_RETURN (R296): A poll of a sync object returns, releasing waiters and sending the next poll. -/
  | pollReturn (id : Nat)
  /-- WATCHDOG_FAULT (R290): A held group's wait count reaches the flask watchdog limit and the flask faults. -/
  | watchdogFault (x : Who)
  /-- DMA_START (R268): A DMA entry begins reading its source after earlier writes are acknowledged. -/
  | dmaStart (g e : Nat)
  /-- DMA_SIGNAL_UPDATE (R294): A DMA sends its signal update in LOCAL, FLAG or ACK mode. -/
  | dmaSignalUpdate (g e : Nat)
  /-- LANDING_NOTICE (R277): A flagged data write lands and updates its landing entry, releasing a held final write. -/
  | landingNotice (src tsl : Nat) (gen : Bool)
  /-- REMOTE_REQUEST_INTAKE (R319): The owning die numbers a remote request and picks its port. -/
  | remoteRequestIntake (id : Nat)
  /-- FLIT_SLOT (R312): A port's flit slot carries SKIP, KEEPALIVE, DATA or IDLE. -/
  | flitSlot (p : Nat)
  /-- DATA_FLIT (R313): A received DATA flit is CRC-checked, its messages and credits taken, or a NAK sent. -/
  | dataFlit (p : Nat) (fec : List LaneWord) (flit : List (BitVec 8))
  /-- KEEPALIVE (R332): A received keep-alive updates peer state and the port's liveness. -/
  | keepalive (p : Nat) (fec : List LaneWord) (flit : List (BitVec 8))
  /-- SKIP (R312): A received SKIP flit absorbs clock difference. -/
  | skip (p : Nat) (fec : List LaneWord) (flit : List (BitVec 8))
  /-- IDLE (R311): A received IDLE flit carries only ACK, NAK and credits. -/
  | idle (p : Nat) (fec : List LaneWord) (flit : List (BitVec 8))
  /-- KEEPALIVE_TIMEOUT (R333): 100 ac pass without a valid keep-alive and the port goes down. -/
  | keepaliveTimeout (p : Nat)
  /-- ELECTRICAL_IDLE (R333): A lane shows electrical idle for 2 ac and the port goes down. -/
  | electricalIdle (p : Nat)
  /-- PORT_TRAINING (R335): A down port retrains and rereads its cable identity. -/
  | portTraining (p : Nat) (ok : Bool) (c : Cable)
  /-- MODULE_START_TIMEOUT (R314): A pluggable module not ready after 5 s holds the port down. -/
  | moduleStartTimeout (p : Nat)
  /-- PORT_UP (R335): After 2,500 ac of valid keep-alives the port comes up. -/
  | portUp (p : Nat)
  /-- RD (R327): A fabric read request is filtered, checked, translated and served. -/
  | rd (p : Nat) (m : Msg)
  /-- WR (R327): A fabric write request is filtered, checked, translated and applied. -/
  | wr (p : Nat) (m : Msg)
  /-- WRM (R322): A fabric masked line write is checked and applied. -/
  | wrm (p : Nat) (m : Msg)
  /-- ATOM_MESSAGE (R322): A fabric atomic request, including barrier arrivals and departures, is checked and applied. -/
  | atomMessage (p : Nat) (m : Msg)
  /-- FLOOR (R330): A FLOOR message frees stored completions below the floor. -/
  | floor (p : Nat) (m : Msg)
  /-- CMP (R323): A completion arrives at the source and is acted on by its status. -/
  | cmp (p : Nat) (m : Msg)
  /-- RDRSP (R322): A read response returns data to the source. -/
  | rdrsp (p : Nat) (m : Msg)
  /-- ATRSP (R322): An atomic response returns old values to the source. -/
  | atrsp (p : Nat) (m : Msg)
  /-- UNREACH (R336): An UNREACH notice names a node the switch cannot reach. -/
  | unreach (p : Nat) (m : Msg)
  /-- UNKNOWN_OPCODE_MESSAGE (R322): A message with an unknown opcode is discarded and counted. -/
  | unknownOpcodeMessage (p : Nat) (m : Msg)
  /-- FLOOR_SEND (R330): A source sends a FLOOR within 25 ac after a completion arrives. -/
  | floorSend (d : Nat)
  /-- COPY_AGE_DISCARD (R331): A message copy held 2,500 ac is discarded. -/
  | copyAgeDiscard (p : Nat) (m : Msg)
  /-- LNK_CTL_EN (R341): Writing EN idles and downs a port or lets it train. -/
  | lnkCtlEn (p : Nat) (en : Bool)
  /-- PORT_RESET (R337): LNK_CMD.RESET idles a port's lanes and restarts training. -/
  | portReset (p : Nat)
  /-- LNK_CLR_FLIT (R345): Zeroes LNK_TXFLIT and LNK_RXFLIT. -/
  | lnkClrFlit (p : Nat)
  /-- LNK_CLR_DROP (R345): Zeroes LNK_DROP. -/
  | lnkClrDrop (p : Nat)
  /-- LNK_CLR_REJECT (R345): Zeroes LNK_REJECT. -/
  | lnkClrReject (p : Nat)
  /-- LNK_CLR_DOWN (R345): Zeroes LNK_DOWN. -/
  | lnkClrDown (p : Nat)
  /-- LNK_CLR_REPLAY (R345): Zeroes LNK_REPLAY. -/
  | lnkClrReplay (p : Nat)
  /-- LNK_CLR_FEC (R345): Zeroes LNK_FECCORR. -/
  | lnkClrFec (p : Nat)
  /-- LNK_NODE_WRITE (R346): Sets the module node number and validity, ignored while a job entry is valid. -/
  | lnkNodeWrite (v : BitVec 32)
  /-- LNK_ROUTE_WRITE (R346): Sets a node's port mask; zero resets the sequence counter and filter. -/
  | lnkRouteWrite (d mask : Nat)
  /-- JOB_COMMIT (R328): FLK_JCTL.COMMIT copies the staged job entry and windows to the active copy, unless refused. -/
  | jobCommit (f : Nat)
  /-- GRADIENT_MARK (R362): A gradient mark reaches the ladle and is counted. -/
  | gradientMark (m : Mark)
  /-- LAYER_REDUCTION_START (R362): After NMG marks the ladle reads stripes and forms and sends leaves. -/
  | layerReductionStart (i g layer : Nat)
  /-- LEAF (R356): A level-0 child stripe arrives and is held or added. -/
  | leaf (p : Nat) (m : Msg) (cr : Nat)
  /-- PART (R356): A partial-sum stripe arrives and is held or added. -/
  | part (p : Nat) (m : Msg) (cr : Nat)
  /-- LATE (R365): A LATE message abandons the layer at its parent and returns credits. -/
  | late (p : Nat) (m : Msg) (cr : Nat)
  /-- LATE_CREDIT_RETURN (R364): Pending stripe credits are returned in a LATE message every 25 ac. -/
  | lateCreditReturn (i g : Nat)
  /-- LAYER_ABANDON (R365): A node's wait bound expires with stripes missing and it abandons the layer. -/
  | layerAbandon (i g layer : Nat)
  /-- UPDATE_MARK (R369): An update mark is counted and, at NMU, the tundish broadcast starts. -/
  | updateMark (m : Mark)
  /-- TUND (R369): A tundish line arrives, is applied as a write and forwarded. -/
  | tund (p : Nat) (m : Msg)
  /-- LDL_CLR_CHK (R380): Zeroes LDL_CHK. -/
  | ldlClrChk (i : Nat)
  /-- LDL_CLR_NF (R380): Zeroes LDL_NF. -/
  | ldlClrNf (i : Nat)
  /-- LDL_CLR_LATE (R380): Zeroes LDL_LATE. -/
  | ldlClrLate (i : Nat)
  /-- LDL_CLR_DUP (R380): Zeroes LDL_DUP. -/
  | ldlClrDup (i : Nat)
  /-- LDL_CLR_STALE (R380): Zeroes LDL_STALE. -/
  | ldlClrStale (i : Nat)
  /-- LDL_GCFG_WRITE (R380): Sets a reduction group's binding and shape, refused on bad values. -/
  | ldlGcfgWrite (g : Nat) (v : BitVec 64)
  /-- RUN_CLR_DUP (R382): Zeroes RUN_DUP. -/
  | runClrDup (i : Nat)
  /-- RBLK_SEND (R373): The runner-ring engine sends a block to NEXT once it holds credit and the block is ready. -/
  | rblkSend (ctx : Nat)
  /-- RBLK (R373): A runner-ring block line arrives and is written to a buffer or RETB. -/
  | rblk (p : Nat) (m : Msg)
  /-- RCRD (R374): A ring credit arrives from NEXT. -/
  | rcrd (p : Nat) (m : Msg)
  /-- QRDY (R378): A queue part-ready notice arrives at the receiver. -/
  | qrdy (p : Nat) (m : Msg)
  /-- QCRD (R378): A GRAD queue slot credit returns to the sender. -/
  | qcrd (p : Nat) (m : Msg)
  /-- LDL_VCFG_WRITE (R421): Sets a vote binding, refused on bad values; VALID sets STEP and loads the scale policies. -/
  | ldlVcfgWrite (v : Nat) (val : BitVec 64)
  /-- BINDING_NOTICE (R384): The binding notice reaches a core, which invalidates its cache. -/
  | bindingNotice (f g : Nat)
  /-- STEP_EVENT_NOTICE (R388): A step event reaches I/O die 0 and sets its FLK_STEP flag. -/
  | stepEventNotice (k : Nat)
  /-- FAULT_NOTICE (R447): A fault notice reaches I/O die 0; the first stops the flask. -/
  | faultNotice (k : Nat)
  /-- STEP_END_POLL (R391): The ladle reads the step-end object every 32 mc; reaching the target seals and reads the report. -/
  | stepEndPoll (v : Nat)
  /-- RISER_COPY_COMPLETE (R412): The riser copy's header write completes, or the copy fails. -/
  | riserCopyComplete (v : Nat)
  /-- MODULE_TERM (R394): The module's vote term is formed and sent up the vote tree. -/
  | moduleTerm (v : Nat)
  /-- VOTE_UP (R395): An up vote record arrives and is combined at its node. -/
  | voteUp (p : Nat) (m : Msg)
  /-- VOTE_WAIT_EXPIRY (R397): A vote node's wait bound passes and it sends a LATE result. -/
  | voteWaitExpiry (v level : Nat)
  /-- VOTE_DECISION (R398): The decision arrives and is forwarded along reverse edges. -/
  | voteDecision (p : Nat) (m : Msg)
  /-- PROBE_TIMER (R399): Every 250 ac a waiting ladle sends a JOBCTL probe toward an absent module. -/
  | probeTimer (v : Nat)
  /-- JOBCTL_PROBE (R399): A received probe is discarded. -/
  | jobctlProbe (p : Nat) (m : Msg)
  /-- JOBCTL_ABORT (R399): A received abort aborts the matching job and is forwarded. -/
  | jobctlAbort (p : Nat) (m : Msg)
  /-- STEP_COMPLETION (R400): The step pours or skips, scale state updates and STEP advances. -/
  | stepCompletion (v : Nat)
  /-- COMPLETION_NOTICE (R387): The completion notice reaches a core, ending the parameter-read hold and invalidating its cache. -/
  | completionNotice (f g : Nat)
  /-- STRIKE_QUARANTINE (R409): A strike quarantine takes effect on the core. -/
  | strikeQuarantine (g : Nat)
  /-- REPLAY_RESPONSE_POLL (R413): The ladle reads the replay response every 32 mc and compares digests. -/
  | replayResponsePoll (v : Nat)
  /-- REPLAY_TIMEOUT (R413): No replay response within RPLIM sets TBAR and LATE. -/
  | replayTimeout (v : Nat)
  /-- POUR_FINISH (R416): LDL_POURCMD.FINISH toggles SEL and sets LAST while the binding is invalid. -/
  | pourFinish (v : Nat) (step : BitVec 32)
  /-- RISER_RESTORE (R415): LDL_RCMD.RESTORE writes a riser slot into the replacement's update views. -/
  | riserRestore (v : Nat) (cmd : BitVec 64)
  /-- EVAL_HOLD (R423): Sets FLK_EVAL.HOLD, refused without a privileged flask. -/
  | evalHold (f : Nat) (hold : Bool)
  /-- TBAR_WRITE (R423): Sets the bar fraction, refused when N < 128 and nonzero. -/
  | tbarWrite (f : Nat) (v : BitVec 32)
  /-- CXL_MEM_READ (R429): A host CXL.mem read is checked and served at its point of coherence. -/
  | cxlMemRead (ld dpa : Nat)
  /-- CXL_MEM_WRITE (R429): A host CXL.mem write is checked, merged at its home and acknowledged. -/
  | cxlMemWrite (ld dpa : Nat) (data : List (BitVec 8)) (mask : BitVec 64) (poi : Bool)
  /-- IDENTIFY (R427): FM API command returning the component identity. -/
  | identify
  /-- GET_LD_INFO (R427): FM API command returning NF and LD capacities. -/
  | getLdInfo
  /-- GET_LD_ALLOCATIONS (R427): FM API command returning one range per LD. -/
  | getLdAllocations
  /-- SET_LD_ALLOCATIONS (R427): FM API command that succeeds only with the current allocations. -/
  | setLdAllocations (alloc : List Nat)
  /-- GET_QOS_CONTROL (R427): FM API command returning every QoS control disabled. -/
  | getQosControl
  /-- UNSUPPORTED_COMMAND (R434): A mailbox or FM command not supported returns Unsupported. -/
  | unsupportedCommand (ld code : Nat)
  /-- GET_EVENT_RECORDS (R434): Mailbox command returning the flask's event records. -/
  | getEventRecords (ld log : Nat)
  /-- CLEAR_EVENT_RECORDS (R434): Mailbox command clearing event records. -/
  | clearEventRecords (ld log : Nat) (handles : List Nat)
  /-- GET_EVENT_INTERRUPT_POLICY (R434): Mailbox command returning the event interrupt policy. -/
  | getEventInterruptPolicy (ld : Nat)
  /-- SET_EVENT_INTERRUPT_POLICY (R434): Mailbox command setting the event interrupt policy on vector 0. -/
  | setEventInterruptPolicy (ld policy : Nat)
  /-- GET_FW_INFO (R434): Mailbox command reporting one read-only firmware slot. -/
  | getFwInfo (ld : Nat)
  /-- GET_SUPPORTED_LOGS (R434): Mailbox command listing the Command Effects Log. -/
  | getSupportedLogs (ld : Nat)
  /-- GET_LOG (R434): Mailbox command returning the Command Effects Log. -/
  | getLog (ld : Nat)
  /-- IDENTIFY_MEMORY_DEVICE (R434): Mailbox command returning capacities and poison list size. -/
  | identifyMemoryDevice (ld : Nat)
  /-- GET_HEALTH_INFO (R434): Mailbox command reporting health from error records. -/
  | getHealthInfo (ld : Nat)
  /-- GET_POISON_LIST (R434): Mailbox command listing poisoned lines in the LD's host windows. -/
  | getPoisonList (ld dpa len : Nat)
  /-- CLEAR_POISON (R434): Mailbox command writing a whole unpoisoned line. -/
  | clearPoison (ld dpa : Nat) (data : List (BitVec 8))
  /-- DISCOVERY (R435): DOE discovery of supported protocols. -/
  | discovery (ld : Nat)
  /-- CXL_TABLE_ACCESS (R435): DOE table access returning the LD's CDAT. -/
  | cxlTableAccess (ld : Nat)
  /-- IDE_INTEGRITY_FAILURE (R436): An IDE integrity check fails and the streams become insecure. -/
  | ideIntegrityFailure
  /-- QUEUE_ENABLE (R437): Writing FLK_QCTL.EN checks ring parameters and starts or stops the queue. -/
  | queueEnable (f : Nat) (v : BitVec 32)
  /-- SQ_DOORBELL (R438): A write of FLK_SQTAIL posts descriptors. -/
  | sqDoorbell (f : Nat) (v : BitVec 32)
  /-- CQ_HEAD_WRITE (R457): A write of FLK_CQHEAD frees completion entries and releases held records. -/
  | cqHeadWrite (f : Nat) (v : BitVec 32)
  /-- DESCRIPTOR_TAKE (R438): The queue engine takes the next posted descriptor and checks its SEQ. -/
  | descriptorTake (f : Nat)
  /-- SEQ_REREAD (R438): A descriptor with mismatched SEQ is reread every 64 mc, then completes STALE. -/
  | seqReread (f : Nat)
  /-- QUEUE_NOP (R440): NOP descriptor completes on dispatch. -/
  | queueNop (f : Nat)
  /-- LAUNCH (R443): LAUNCH descriptor checks and dispatches a host launch to a core set. -/
  | launch (f : Nat)
  /-- GLAUNCH (R443): GLAUNCH descriptor checks and dispatches a guest launch. -/
  | glaunch (f : Nat)
  /-- QUEUE_SIGNAL (R440): SIGNAL descriptor adds to a signal object with release. -/
  | queueSignal (f : Nat)
  /-- WAIT (R440): WAIT descriptor holds the queue until a signal object reaches a value. -/
  | wait (f : Nat)
  /-- WAIT_POLL (R440): The engine polls a WAIT's object every 32 mc. -/
  | waitPoll (f : Nat)
  /-- WAIT_TIMEOUT (R440): A WAIT's limit passes and it completes with TIMEOUT. -/
  | waitTimeout (f : Nat)
  /-- COPY (R440): COPY descriptor moves bytes between module offsets. -/
  | copy (f : Nat)
  /-- SAVE (R453): SAVE descriptor stops, drains and writes the flask's context on a core set. -/
  | save (f : Nat)
  /-- RESTORE (R453): RESTORE descriptor reloads a saved context and makes the groups resident. -/
  | restore (f : Nat)
  /-- LAUNCH_COMPLETE (R440): Every started group has exited and its departures are acknowledged; the record is written. -/
  | launchComplete (f tag : Nat)
  /-- IMOD_TIMER (R446): The moderation time passes and vector 1 is raised. -/
  | imodTimer (f : Nat)
  /-- SHAKE_OUT (R450): FLK_SHAKE.GO stops the flask and starts its shake-out. -/
  | shakeOut (f : Nat)
  /-- SHAKE_OUT_DRAIN_END (R450): Remote requests are complete or timed out and the shake-out clears the flask's state. -/
  | shakeOutDrainEnd (f : Nat)
  /-- LD_RESET (R451): A function-level reset of an LD resets its CXL state and shakes out its flask. -/
  | ldReset (f : Nat)
  /-- QCLR_HERR (R457): Zeroes FLK_HERR. -/
  | qclrHerr (f : Nat)
  /-- CXL_PERST (R522): CXL_PERST_N holds the link down and resets LD configuration state. -/
  | cxlPerst (low : Bool)
  /-- CXL_LINK_STATE_CHANGE (R458): The CXL link trains up or goes down and CXL_LSTAT follows. -/
  | cxlLinkStateChange (up : Bool) (width speed bound : Nat)
  /-- POWER_ON_RESET_RELEASE (R514): Input and crystal have been stable long enough and boot begins. -/
  | powerOnResetRelease
  /-- PARAMETER_TABLE_READ (R468): Boot stage 2 reads and checks the SPI NOR parameter table. -/
  | parameterTableRead (ok : Bool)
  /-- SLOT_HEADERS_READ (R468): Boot stage 3 reads both image slot headers. -/
  | slotHeadersRead
  /-- IMAGE_READ (R468): Boot stage 4 reads the candidate image and hashes it. -/
  | imageRead
  /-- SIGNATURE_VERIFY (R468): Boot stage 5 verifies the image signature. -/
  | signatureVerify
  /-- PLL_LOCK_AND_LINK_TRAINING (R468): Boot stage 6 locks PLLs, sets crossing phases, trains links and tests cores. -/
  | pllLockAndLinkTraining (pllOk linksOk : Bool) (taps : List Nat) (failed : List Nat)
  /-- LPDDR6_TRAINING (R468): Boot stage 7 trains DRAM and runs the consistency checks. -/
  | lpddr6Training (ok : Bool)
  /-- DRAM_ZEROING (R468): Boot stage 8 writes every DRAM line as zero. -/
  | dramZeroing
  /-- REGISTER_LOAD (R468): Boot stage 9 loads registers from the image and ends boot. -/
  | registerLoad
  /-- IMAGE_BEGIN (R540): Erases the non-booted slot and opens an image transfer. -/
  | imageBegin (m : MgtMsg)
  /-- IMAGE_WRITE (R540): Programs image bytes into the slot. -/
  | imageWrite (m : MgtMsg)
  /-- IMAGE_END (R540): Writes the held header bytes and closes the transfer. -/
  | imageEnd (m : MgtMsg)
  /-- GET_ID (R473): Returns serial, identity public key and certificate. -/
  | getId (m : MgtMsg)
  /-- GET_MEAS (R474): Returns a signed measurement REPORT. -/
  | getMeas (m : MgtMsg)
  /-- KEY_EXCH (R475): Opens an attestation session with ML-KEM key exchange. -/
  | keyExch (m : MgtMsg)
  /-- SECURE (R475): Carries an encrypted message within a session. -/
  | secure (m : MgtMsg)
  /-- END (R473): Ends an attestation session. -/
  | endSession (m : MgtMsg)
  /-- UNKNOWN_CODE (R537): A message with an unknown code is answered with ERROR 0x01. -/
  | unknownCode (m : MgtMsg)
  /-- IDENTITY_SIGNATURE (R472): The signer completes an identity signature, reserving indices in blocks. -/
  | identitySignature
  /-- JOB_INSTALL (R477): Receives a signed job install message and starts its verification. -/
  | jobInstall (m : MgtMsg)
  /-- JOB_INSTALL_VERIFY (R477): The install's signature check completes and its writes are accepted or refused. -/
  | jobInstallVerify
  /-- JOB_INSTALL_WRITE (R477): One install write record is applied every 4 ac under its register's rules. -/
  | jobInstallWrite
  /-- AUTH (R538): Receives an authorisation signature within SECURE. -/
  | auth (m : MgtMsg)
  /-- AUTH_CHECK_COMPLETE (R538): The AUTH signature check completes and the session is authorised or ended. -/
  | authCheckComplete (sess : Nat)
  /-- REG_READ (R537): Management register read of the covered registers. -/
  | regRead (m : MgtMsg)
  /-- REG_WRITE (R537): Management register write under each register's rules. -/
  | regWrite (m : MgtMsg)
  /-- REC_GET (R537): Returns held error records from an RSEQ. -/
  | recGet (m : MgtMsg)
  /-- REC_ACK (R546): Acknowledges error records up to an RSEQ. -/
  | recAck (m : MgtMsg)
  /-- TELEM (R548): Returns the telemetry block. -/
  | telem (m : MgtMsg)
  /-- TELEMETRY_SEND (R548): Sends the telemetry block every PERIOD seconds. -/
  | telemetrySend
  /-- MANAGEMENT_DATAGRAM (R536): A UDP datagram is taken into message reassembly. -/
  | managementDatagram (src : Peer) (d : List (BitVec 8))
  /-- REASSEMBLY_TIMEOUT (R536): A message with missing fragments after 1 s is discarded. -/
  | reassemblyTimeout (src : Peer) (mid : Nat)
  /-- NEIGHBOUR_DISCOVERY (R535): Answers IPv6 neighbour discovery and ICMPv6 echo. -/
  | neighbourDiscovery (src : Peer) (kind : Nat) (target : List (BitVec 8))
  /-- SETDASA (R524): I3C command assigning a dynamic address from the static address. -/
  | setdasa (static dyn : Nat)
  /-- ENTDAA (R524): I3C dynamic address assignment. -/
  | entdaa (dyn : Nat)
  /-- FATAL_RECORD_RESEND (R547): An unacknowledged FATAL record is resent every 25,000,000 ac. -/
  | fatalRecordResend
  /-- ETHERNET_LINK_UP (R547): The Ethernet link comes up and unacknowledged records are sent. -/
  | ethernetLinkUp
  /-- ERR_CLR_RDROP (R549): Zeroes ERR_RDROP. -/
  | errClrRdrop
  /-- ERR_CLR_CC (R549): Zeroes every ERR_CCCORR. -/
  | errClrCc
  /-- ERR_CLR_LS (R549): Zeroes every ERR_LSCORR. -/
  | errClrLs
  /-- PLL_LOCK_LOSS (R484): A PLL loses lock: a cluster is quarantined and held Cold, or the module aborts all jobs. -/
  | pllLockLoss (u : PllUnit)
  /-- CRYSTAL_LOSS (R484): The crystal stops for 2 µs and the module is held in module reset. -/
  | crystalLoss
  /-- WAKE_EVENT (R489): A wake event reaches a core or cluster in a low-power state and starts its wake. -/
  | wakeEvent (g : Nat)
  /-- WAKE_COMPLETE (R489): The wake cost has passed and the core accepts its event. -/
  | wakeComplete (g : Nat)
  /-- HOLD_ENTRY (R490): An idle core enters Hold after HOLDT fc. -/
  | holdEntry (g : Nat)
  /-- NAP_ENTRY (R491): A cluster with all cores in Hold enters Nap. -/
  | napEntry (k : Nat)
  /-- REST_ENTRY (R491): A cluster in Nap for RESTT enters Rest at an ac edge. -/
  | restEntry (k : Nat)
  /-- COLD_ENTRY (R494): A cluster with its PWR_COLD bit set enters Cold when all cores are idle. -/
  | coldEntry (k : Nat)
  /-- PWR_CMD_WAKE (R507): Wakes every cluster and ends standby. -/
  | pwrCmdWake
  /-- PWR_CMD_STANDBY (R495): Requests Module standby, refused while work is in flight. -/
  | pwrCmdStandby
  /-- ROTA_STOP (R495): A channel's rota stops after its last write-back and its packages self-refresh. -/
  | rotaStop (c : Nat)
  /-- STANDBY_EXIT (R496): An exit event takes packages out of self-refresh. -/
  | standbyExit
  /-- ROTA_RESTART (R496): Rotas restart 500 ac after the exit event and STBY clears. -/
  | rotaRestart
  /-- POWER_WINDOW_END (R498): At each 25,000-ac window end AUTO, THERM and DHOT and the level are updated. -/
  | powerWindowEnd (watts volts : Nat) (temps : List Nat)
  /-- THERMAL_TRIP (R499): A trip stops every flask and enters Module standby with a fatal record. -/
  | thermalTrip (dram : Bool) (temp : Nat)
  /-- RST_CMD_MODULE (R508): Holds the module in module reset for 25 ac. -/
  | rstCmdModule
  /-- MODULE_RESET_PIN (R521): MRST_N low for 2 ac starts a module reset. -/
  | moduleResetPin (low : Bool)
  /-- INPUT_RISING (R513): Input reaches 44.0 V and the power-on count starts. -/
  | inputRising
  /-- UNDERVOLTAGE (R515): Input below 42.0 V for 5 µs runs the input event sequence. -/
  | undervoltage
  /-- OVERVOLTAGE (R515): Input above 62.0 V for 5 µs runs the input event sequence. -/
  | overvoltage
  /-- OVERCURRENT (R515): Input current above 65 A for 100 µs runs the input event sequence. -/
  | overcurrent
  /-- POWER_ON_RESET_ASSERT (R515): Power-on reset is asserted at 50,000 ac of the input event sequence. -/
  | powerOnResetAssert
  /-- HARDWARE_SHUTDOWN (R531): A die reaches 125 °C and every rail but always-on is cut. -/
  | hardwareShutdown (die temp : Nat)
  /-- LEAK_DETECTED (R532): The moisture sensor fires, LEAK_N asserts and a thermal trip runs. -/
  | leakDetected
  /-- CAGE_INSERTION (R526): A cable or module is inserted in a cage and training starts. -/
  | cageInsertion (p : Nat) (c : Cable)
  /-- CAGE_REMOVAL (R526): A cable or module is removed and its lanes drop. -/
  | cageRemoval (p : Nat)
  /-- CAGE_OVERCURRENT (R527): A cage above 3.0 A for 1 ms has its supply cut and port held down. -/
  | cageOvercurrent (p : Nat)
  /-- MODULE_RESET_RELEASE (R521): Module reset ends and boot begins at ac 0: MRST_N seen high, the 25 ac hold of RST_CMD ends, or the crystal has run 25,000 ac after a loss. -/
  | moduleResetRelease
  /-- ALWAYS_ON_SUPPLY_START (R512): The input reaches 20 V and the always-on domain and the crystal start. -/
  | alwaysOnSupplyStart
  /-- ALWAYS_ON_SUPPLY_LOSS (R515): The input falls below 20 V: power-on reset is asserted at once and an open input switch is re-armed. -/
  | alwaysOnSupplyLoss
  /-- APERTURE_ACCESS (R196): A request through a core aperture reaches the owning core and is served by its memory unit after its local-store grant. -/
  | apertureAccess (id : Nat)
  /-- BROADCAST_WAIT_EXPIRY (R370): The LIMIT bound counted from a layer's first update mark passes before TEXP lines arrive: LATE is set and later lines are stale. -/
  | broadcastWaitExpiry (i g layer : Nat)
  /-- CMIS_MODULE_READY (R314): An active pluggable module reports ModuleReady and port training starts. -/
  | cmisModuleReady (p : Nat)
  /-- CONFIGURATION_REQUEST (R469): A CXL.io configuration request reaches an LD function and is answered, or gets Configuration Request Retry Status before boot ends. -/
  | configurationRequest (ld off : Nat) (write : Bool) (v : BitVec 32)
  /-- MSIX_TABLE_WRITE (R446): A host write to an LD's MSI-X table or mask clears a mask, and a pending vector is then sent. -/
  | msixTableWrite (ld vec : Nat) (entry : BitVec 128)
  /-- ETHERNET_LINK_DOWN (R550): The 1000BASE-T link goes down, MGT_NET.UP clears, and records are held for sending when it returns. -/
  | ethernetLinkDown
  deriving DecidableEq, Repr

end Sys2Proof
end

