-- ==== Sys2Proof/Decode.lean ====
section
/-! DEFINITION. What a word spells. spec/opcode_table.json gives no row any bits: a command has no encoding of its own, and no word
spells one by the table. The words that do have an encoding are the instruction words of a core (R163): their opcode, bits 63:56,
picks the row of the opcode map (R175 to R177), which a group presents with the word's other bits. -/

namespace Sys2Proof

/-- No row of the table has bits, so no word spells a command. -/
def decodeTableWord (_nbits _w : Nat) : Option Instr := none

/-- Opcode map: the control instructions (R175). -/
def ctlRow (x : Who) (b : BitVec 56) : Nat → Option Instr
  | 0x00 => some (.nop x b)
  | 0x01 => some (.umov x b)
  | 0x02 => some (.umovh x b)
  | 0x03 => some (.uadd x b)
  | 0x04 => some (.usub x b)
  | 0x05 => some (.umul x b)
  | 0x06 => some (.uand x b)
  | 0x07 => some (.uor x b)
  | 0x08 => some (.uxor x b)
  | 0x09 => some (.ushl x b)
  | 0x0A => some (.ushr x b)
  | 0x0B => some (.usar x b)
  | 0x0C => some (.umin x b)
  | 0x0D => some (.umax x b)
  | 0x0E => some (.uslt x b)
  | 0x0F => some (.ugid x b)
  | 0x10 => some (.br x b)
  | 0x11 => some (.brc x b)
  | 0x12 => some (.brm x b)
  | 0x13 => some (.exit x b)
  | 0x14 => some (.mwait x b)
  | _ => none

/-- Opcode map: the vector instructions (R176). -/
def vecRow (x : Who) (b : BitVec 56) : Nat → Option Instr
  | 0x20 => some (.iadd x b)
  | 0x21 => some (.isub x b)
  | 0x22 => some (.iand x b)
  | 0x23 => some (.ior x b)
  | 0x24 => some (.ixor x b)
  | 0x25 => some (.ishl x b)
  | 0x26 => some (.ishr x b)
  | 0x27 => some (.isar x b)
  | 0x28 => some (.imov x b)
  | 0x29 => some (.sel x b)
  | 0x2A => some (.lid x b)
  | 0x2B => some (.fabs x b)
  | 0x2C => some (.fneg x b)
  | 0x2D => some (.icmp x b)
  | 0x2E => some (.fcmp x b)
  | 0x2F => some (.kop x b)
  | 0x30 => some (.kmovu x b)
  | 0x31 => some (.umovk x b)
  | 0x32 => some (.fadd x b)
  | 0x33 => some (.fsub x b)
  | 0x34 => some (.fmul x b)
  | 0x35 => some (.ffma x b)
  | 0x36 => some (.fmin x b)
  | 0x37 => some (.fmax x b)
  | 0x38 => some (.itof x b)
  | 0x39 => some (.utof x b)
  | 0x3A => some (.ftoi x b)
  | 0x3B => some (.ftou x b)
  | 0x3C => some (.widh x b)
  | 0x3D => some (.widb x b)
  | 0x3E => some (.fexp2 x b)
  | 0x3F => some (.flog2 x b)
  | 0x40 => some (.frcp x b)
  | 0x41 => some (.frsq x b)
  | 0x42 => some (.fdiv x b)
  | 0x43 => some (.fsqrt x b)
  | 0x44 => some (.perm x b)
  | 0x45 => some (.bcst x b)
  | 0x46 => some (.rdl x b)
  | 0x47 => some (.wadd x b)
  | 0x48 => some (.wmul x b)
  | 0x49 => some (.wtree x b)
  | _ => none

/-- Opcode map: the memory, caster, matrix and synchronisation instructions (R177). -/
def memRow (x : Who) (b : BitVec 56) : Nat → Option Instr
  | 0x60 => some (.ld x b)
  | 0x61 => some (.ldh x b)
  | 0x62 => some (.ldb x b)
  | 0x63 => some (.st x b)
  | 0x64 => some (.ldu x b)
  | 0x65 => some (.stu x b)
  | 0x66 => some (.atom x b)
  | 0x67 => some (.fence x b)
  | 0x68 => some (.pfset x b)
  | 0x70 => some (.cvt x b)
  | 0x71 => some (.castl x b)
  | 0x72 => some (.casts x b)
  | 0x73 => some (.castm x b)
  | 0x74 => some (.rcset x b)
  | 0x75 => some (.rcget x b)
  | 0x76 => some (.rcclr x b)
  | 0x80 => some (.mload x b)
  | 0x81 => some (.mstream x b)
  | 0x82 => some (.mdrain x b)
  | 0x90 => some (.lcmk x b)
  | 0x91 => some (.bar x b)
  | 0x92 => some (.signal x b)
  | 0x93 => some (.swait x b)
  | 0x94 => some (.dma x b)
  | 0x95 => some (.qput x b)
  | 0x96 => some (.qtake x b)
  | 0x97 => some (.rnext x b)
  | 0x98 => some (.rfree x b)
  | _ => none

/-- The row of the opcode map that an instruction word picks (R163, R175 to R177), presented by group `x`; a word whose opcode the map
does not list is presented as such. -/
def rowOf (x : Who) (w : BitVec 64) : Instr :=
  let op := (w.extractLsb' 56 8).toNat
  let b := w.extractLsb' 0 56
  ((ctlRow x b op <|> vecRow x b op) <|> memRow x b op).getD (.unlistedOpcode x w)

end Sys2Proof
end

