-- ==== Sys2Proof/Config.lean ====
section
/-! DEFINITION. What the spec leaves open: opaque free values (no body, so nothing can be proved of a value)
and the functions of outside standards the spec names without restating them. -/

namespace Sys2Proof

/-- A value the spec calls unpredictable (R21), of width `w`; applied to the counter `State.freeCtr`,
which every use advances (log entry 3). -/
opaque Config.freeBits (w : Nat) : Nat → BitVec w

/-- A boolean the spec leaves open, in the same form (log entry 3). -/
opaque Config.freeBool : Nat → Bool

/-- What the spec leaves open of a flit's CRC-32 beside its polynomial (R310; log entry 4): the register's initial value, whether a
byte's bits go in least significant first, whether the result is taken in reverse bit order, and the final inversion. -/
opaque Config.crcInit : BitVec 32
/-- Bit order of the CRC's input bytes (log entry 4). -/
opaque Config.crcLowFirst : Bool
/-- Bit order of the CRC's result (log entry 4). -/
opaque Config.crcReverse : Bool
/-- Final inversion of the CRC (log entry 4). -/
opaque Config.crcXor : BitVec 32

/-- SHAKE256 with a 256-bit output (R459, R474). -/
opaque Config.shake256 : List Byte → BitVec 256

/-- SHAKE256 with a 512-bit output: the two session keys of R475. -/
opaque Config.shakeKeys : List Byte → BitVec 512

/-- XMSS-SHAKE256_20_256 verification: public key, message, signature (R462). -/
opaque Config.xmssVerify : List Byte → List Byte → List Byte → Bool

/-- XMSS^MT-SHAKE256_40/4_256 verification: public key, message, signature (R477, R538). -/
opaque Config.xmssMtVerify : List Byte → List Byte → List Byte → Bool

/-- The identity signature with index `i` over a message (R471, R472). -/
opaque Config.identitySign : Nat → List Byte → List Byte

/-- The identity public key, 68 bytes (R471, R473). -/
opaque Config.identityKey : List Byte

/-- ML-KEM-768 encapsulation against a key, with the module's own randomness numbered by the counter:
ciphertext and shared secret (R475). -/
opaque Config.mlkemEncap : List Byte → Nat → List Byte × List Byte

/-- AES-256-GCM opening: key, nonce, ciphertext, tag; none when the tag fails (R473, R475). -/
opaque Config.gcmOpen : BitVec 256 → Nat → List Byte → List Byte → Option (List Byte)

/-- AES-256-GCM sealing: key, nonce, plaintext; ciphertext and tag (R473, R475). -/
opaque Config.gcmSeal : BitVec 256 → Nat → List Byte → List Byte × List Byte

/-- Bytes of replies whose layout is the CXL, CMIS, PCIe or I3C standard's and not the spec's (R427, R432,
R434, R435, R524): the reply of command `code` on LD `ld` given what the spec states of its content. -/
opaque Config.standardReply : Nat → Nat → List Nat → List Byte

/-- Offset in an LD's configuration space of the MSI-X capability's first word (R432, R446): PCIe fixes the word's
fields (bit 31 enable, bit 30 function mask), the spec not its place. -/
opaque Config.msixCap : Nat

/-- The IDE streams a key management message secures (R436, R475): bit 0 CXL.io, bit 1 CXL.cachemem; CXL's own
messages. -/
opaque Config.ideKeys : List Byte → Nat

/-- Errors that arise in stored bits (R107, R195, R201, R210, R223): a kind, a place, and two values, for each use of the
counter; the spec says what an error does, not when one arises (log entry 3). -/
opaque Config.upset : Nat → Nat × Nat × Nat × Nat

/-- SERIAL, fixed at manufacture (R459). -/
opaque Config.serial : BitVec 128

/-- Byte `i` of the certificate Vilnas stores at manufacture (R471): a signature of 9,893 bytes. -/
opaque Config.certificate : Nat → BitVec 8

/-- OWNERHASH, fixed at manufacture (R459). -/
opaque Config.ownerHash : BitVec 256

/-- The slot straps SLOT[4:0] of the baseboard (R520). -/
opaque Config.slotStraps : BitVec 5

end Sys2Proof
end

