-- ==== Sys2Proof/Machine/Bits.lean ====
section
/-! DEFINITION. Bit fields, byte order, sign extension, and the finite maps the state is built of. -/

namespace Sys2Proof.Machine

/-- Field `[hi:lo]` of a number (R17). -/
def fld (v hi lo : Nat) : Nat := (v >>> lo) % 2 ^ (hi + 1 - lo)

/-- Bit `i` of a number, as a number. -/
def bit (v i : Nat) : Nat := (v >>> i) % 2

/-- `v` with field `[hi:lo]` replaced by the low bits of `x` (R17). -/
def setFld (v hi lo x : Nat) : Nat :=
  (v >>> (hi + 1)) <<< (hi + 1) + (x % 2 ^ (hi + 1 - lo)) <<< lo + v % 2 ^ lo

/-- Field `[hi:lo]` of a register. -/
def rfld (v : Word64) (hi lo : Nat) : Nat := fld v.toNat hi lo

/-- A register with field `[hi:lo]` replaced. -/
def rset (v : Word64) (hi lo x : Nat) : Word64 := BitVec.ofNat 64 (setFld v.toNat hi lo x)

/-- The bits of `v` that `m` selects come from `n`, the others stay. -/
def maskMerge (v n m : Word64) : Word64 := (v &&& ~~~m) ||| (n &&& m)

/-- A number of at most `cap`: the saturating counters of the manual. -/
def sat (cap v : Nat) : Nat := min cap v

/-- The two's-complement value of the low `w` bits of `v`. -/
def sgn (w v : Nat) : Int :=
  let u := v % 2 ^ w
  if 2 * u ≥ 2 ^ w then (u : Int) - (2 ^ w : Nat) else (u : Int)

/-- The low `w` bits of an integer, as a number. -/
def wrap (w : Nat) (v : Int) : Nat := (v % ((2 ^ w : Nat) : Int)).toNat

/-- `n` little-endian bytes of a number (R18). -/
def leBytes : Nat → Nat → List Byte
  | 0, _ => []
  | n + 1, v => BitVec.ofNat 8 v :: leBytes n (v / 256)

/-- The number a little-endian byte list spells (R18). -/
def leNat : List Byte → Nat
  | [] => 0
  | b :: bs => b.toNat + 256 * leNat bs

/-- Bytes `i` to `i + n - 1` of a list, zero past its end. -/
def slice (l : List Byte) (i n : Nat) : List Byte :=
  (List.range n).map fun k => l.getD (i + k) 0

/-- The little-endian number in bytes `i` to `i + n - 1` of a list. -/
def leAt (l : List Byte) (i n : Nat) : Nat := leNat (slice l i n)

/-- A byte list with bytes `i` onward replaced by `bs`. -/
def patch (l : List Byte) (i : Nat) (bs : List Byte) : List Byte :=
  (List.range l.length).map fun k =>
    if i ≤ k ∧ k < i + bs.length then bs.getD (k - i) 0 else l.getD k 0

/-- Round up to a multiple of `k`. -/
def roundUp (n k : Nat) : Nat := (n + k - 1) / k * k

/-- `ceil (log2 n)`, 0 for `n ≤ 1`. -/
def clog2 (n : Nat) : Nat := if n ≤ 1 then 0 else Nat.log2 (n - 1) + 1

/-- Number of bits of `n` (0 for 0). -/
def blen (n : Nat) : Nat := if n = 0 then 0 else Nat.log2 n + 1

/-- Number of set bits among the low `w` bits. -/
def popcount (w v : Nat) : Nat := ((List.range w).filter fun i => bit v i = 1).length

/-- The indices below `w` of the set bits, ascending. -/
def setBits (w v : Nat) : List Nat := (List.range w).filter fun i => bit v i = 1

/-- First index at which a predicate holds. -/
def firstIdx {α : Type} (p : α → Bool) : List α → Option Nat
  | [] => none
  | a :: l => if p a then some 0 else (firstIdx p l).map (· + 1)

/-- A list with entry `i` replaced by its image. -/
def modAt {α : Type} (f : α → α) : Nat → List α → List α
  | _, [] => []
  | 0, a :: l => f a :: l
  | n + 1, a :: l => a :: modAt f n l

/-- A list without its entry `i`. -/
def dropAt {α : Type} : Nat → List α → List α
  | _, [] => []
  | 0, _ :: l => l
  | n + 1, a :: l => a :: dropAt n l

/-! ### Finite maps -/

/-- The value at a key: the listed one, else the default. -/
def Sparse.get {α : Type} (d : α) : Sparse α → Nat → α
  | [], _ => d
  | (k, v) :: m, i => if k = i then v else Sparse.get d m i

/-- The map without a key. -/
def Sparse.erase {α : Type} (m : Sparse α) (i : Nat) : Sparse α := m.filter fun e => e.1 != i

/-- Put an entry at its place in the rising order of keys. -/
def Sparse.insert {α : Type} (i : Nat) (v : α) : Sparse α → Sparse α
  | [] => [(i, v)]
  | (k, w) :: m => if i < k then (i, v) :: (k, w) :: m else (k, w) :: Sparse.insert i v m

/-- Write a key: an entry equal to the default is not listed, so that equal maps are equal data. -/
def Sparse.set {α : Type} [DecidableEq α] (d : α) (m : Sparse α) (i : Nat) (v : α) : Sparse α :=
  if v = d then Sparse.erase m i else Sparse.insert i v (Sparse.erase m i)

/-- The canonical form: keys strictly rising, no entry equal to the default. -/
abbrev Sparse.wf {α : Type} [DecidableEq α] (d : α) (m : Sparse α) : Prop :=
  (m.map Prod.fst).Pairwise (· < ·) ∧ ∀ e ∈ m, e.2 ≠ d

/-- Membership in a sorted set of numbers. -/
def NSet.has (s : List Nat) (i : Nat) : Bool := s.contains i

/-- A sorted set with one more member. -/
def NSet.add (i : Nat) : List Nat → List Nat
  | [] => [i]
  | k :: s => if i < k then i :: k :: s else if i = k then k :: s else k :: NSet.add i s

/-- A sorted set without a member. -/
def NSet.del (s : List Nat) (i : Nat) : List Nat := s.filter (· != i)

end Sys2Proof.Machine
end

