-- ==== Sys2Proof/Machine/Num.lean ====
section
/-! DEFINITION. Exact values, the binary formats (R49, R50), the wide format W80 (R51 to R53), rounding
(R65 to R67), the keyed noise (R68), and the arithmetic of the vector engine (R176) on bits. -/

namespace Sys2Proof.Machine

/-! ### Binary formats -/

/-- Precision in bits (with the hidden bit), exponent of the least subnormal bit, and exponent width. -/
abbrev BinFmt := Nat × Int × Nat
/-- binary32 (R49). -/
def fmtF32 : BinFmt := (24, -149, 8)
/-- binary16 (R50). -/
def fmtF16 : BinFmt := (11, -24, 5)
/-- bfloat16 (R50). -/
def fmtBF16 : BinFmt := (8, -133, 8)

/-- Exact value of an encoding (subnormals, signed zeros, infinities, NaN). -/
def binVal (f : BinFmt) (bits : Nat) : Val :=
  let fr := f.1 - 1
  let neg := bit bits (fr + f.2.2) = 1
  let ef := fld bits (fr + f.2.2 - 1) fr
  let a := bits % 2 ^ fr
  if ef = 2 ^ f.2.2 - 1 then (if a = 0 then .inf neg else .nan)
  else if ef = 0 then .fin neg a f.2.1
  else .fin neg (a + 2 ^ fr) (f.2.1 + (ef : Int) - 1)

/-- The magnitude bits of +infinity. -/
def binInf (f : BinFmt) : Nat := (2 ^ f.2.2 - 1) * 2 ^ (f.1 - 1)
/-- The canonical quiet NaN: 0x7FC0_0000, 0x7E00, 0x7FC0 (R49, R50). -/
def binNaN (f : BinFmt) : Nat := binInf f + 2 ^ (f.1 - 2)
/-- The sign bit in place. -/
def binSign (f : BinFmt) (neg : Bool) : Nat := if neg then 2 ^ (f.1 - 1 + f.2.2) else 0

/-- `m * 2^e` scaled to units of `2^q`: the integer part, and the fraction as (numerator, log2 of denominator). -/
def scaleTo (m : Nat) (e q : Int) : Nat × Nat × Nat :=
  if q ≤ e then (m <<< (e - q).toNat, 0, 0)
  else let d := (q - e).toNat; (m >>> d, m % 2 ^ d, d)

/-- Nearest integer, ties to even, of `n + r / 2^d` (R66). -/
def rneInt (n r d : Nat) : Nat :=
  if 2 * r > 2 ^ d ∨ (2 * r = 2 ^ d ∧ n % 2 = 1) then n + 1 else n

/-- Exponent of the last kept bit of a magnitude. -/
def lsbExp (f : BinFmt) (m : Nat) (e : Int) : Int := max f.2.1 (e + blen m - f.1)

/-- Magnitude bits after rounding to nearest even; at or above `binInf` when it overflows. -/
def binRne (f : BinFmt) (m : Nat) (e : Int) : Nat :=
  let q := lsbExp f m e
  let p := scaleTo m e q
  let n := rneInt p.1 p.2.1 p.2.2
  if n = 0 then 0 else (q - f.2.1).toNat * 2 ^ (f.1 - 1) + n

/-- Round a value to nearest even, overflow to infinity (R49). -/
def toBin (f : BinFmt) : Val → Nat
  | .nan => binNaN f
  | .inf neg => binSign f neg + binInf f
  | .fin neg m e => binSign f neg + min (binInf f) (binRne f m e)

/-- binary32 of a value, as a register. -/
def toF32 (v : Val) : Word32 := BitVec.ofNat 32 (toBin fmtF32 v)
/-- Exact value of a binary32 register. -/
def f32 (w : Word32) : Val := binVal fmtF32 w.toNat

/-! ### Exact arithmetic -/

/-- Signed integer of a finite value in units of `2^q` with `q ≤ e`. -/
def signedAt (neg : Bool) (m : Nat) (e q : Int) : Int :=
  let n : Int := ((m <<< (e - q).toNat : Nat) : Int)
  if neg then -n else n

/-- The value of an integer times `2^e`; a zero takes the sign given. -/
def ofInt (zneg : Bool) (n : Int) (e : Int) : Val :=
  if n = 0 then .fin zneg 0 e else .fin (decide (n < 0)) n.natAbs e

/-- Exact sum. An exact zero sum of nonzero or opposite-signed terms is +0 (round to nearest, IEEE 754). -/
def vAdd : Val → Val → Val
  | .nan, _ => .nan
  | _, .nan => .nan
  | .inf a, .inf b => if a = b then .inf a else .nan
  | .inf a, .fin _ _ _ => .inf a
  | .fin _ _ _, .inf b => .inf b
  | .fin sa ma ea, .fin sb mb eb =>
    let q := min ea eb
    ofInt (sa && sb && (ma = 0) && (mb = 0)) (signedAt sa ma ea q + signedAt sb mb eb q) q

/-- Sign inversion. -/
def vNeg : Val → Val
  | .nan => .nan
  | .inf s => .inf (!s)
  | .fin s m e => .fin (!s) m e

/-- Magnitude. -/
def vAbs : Val → Val
  | .nan => .nan
  | .inf _ => .inf false
  | .fin _ m e => .fin false m e

/-- Exact product. -/
def vMul : Val → Val → Val
  | .nan, _ => .nan
  | _, .nan => .nan
  | .inf a, .inf b => .inf (a != b)
  | .inf a, .fin b m _ => if m = 0 then .nan else .inf (a != b)
  | .fin a m _, .inf b => if m = 0 then .nan else .inf (a != b)
  | .fin sa ma ea, .fin sb mb eb => .fin (sa != sb) (ma * mb) (ea + eb)

/-- Quotient with a sticky last bit: exact enough that one rounding to 24 bits is the correct rounding. -/
def vDiv : Val → Val → Val
  | .nan, _ => .nan
  | _, .nan => .nan
  | .inf _, .inf _ => .nan
  | .inf a, .fin b _ _ => .inf (a != b)
  | .fin a _ e, .inf b => .fin (a != b) 0 e
  | .fin sa ma ea, .fin sb mb eb =>
    if mb = 0 then (if ma = 0 then .nan else .inf (sa != sb))
    else
      let n := ma <<< 64
      let q := n / mb
      .fin (sa != sb) (2 * q + (if n % mb = 0 then 0 else 1)) (ea - eb - 65)

/-- Integer square root by one bit per step, from bit `k - 1` down. -/
def isqrtGo (n : Nat) : Nat → Nat → Nat
  | 0, r => r
  | k + 1, r => let c := r + 2 ^ k; if c * c ≤ n then isqrtGo n k c else isqrtGo n k r

/-- Square root with a sticky last bit. -/
def vSqrt : Val → Val
  | .nan => .nan
  | .inf neg => if neg then .nan else .inf false
  | .fin neg m e =>
    if m = 0 then .fin neg 0 e
    else if neg then .nan
    else
      let odd := (e % 2).toNat
      let n := (m <<< odd) <<< 64
      let r := isqrtGo n (blen n / 2 + 1) 0
      .fin false (2 * r + (if r * r = n then 0 else 1)) ((e - odd) / 2 - 33)

/-- Exact comparison of two finite values: `a < b`. -/
def finLt (sa : Bool) (ma : Nat) (ea : Int) (sb : Bool) (mb : Nat) (eb : Int) : Bool :=
  let q := min ea eb
  signedAt sa ma ea q < signedAt sb mb eb q

/-- IEEE less-than; false when either is NaN. -/
def vLt : Val → Val → Bool
  | .nan, _ => false
  | _, .nan => false
  | .inf a, .inf b => a && !b
  | .inf a, .fin _ _ _ => a
  | .fin _ _ _, .inf b => !b
  | .fin sa ma ea, .fin sb mb eb => finLt sa ma ea sb mb eb

/-- IEEE equality; false when either is NaN, and -0 equals +0. -/
def vEq (a b : Val) : Bool := a ≠ .nan && b ≠ .nan && !vLt a b && !vLt b a

/-- Is the value a NaN. -/
def vNaN : Val → Bool
  | .nan => true
  | _ => false

/-- Is the value a NaN or an infinity. -/
def vNonfin : Val → Bool
  | .fin _ _ _ => false
  | _ => true

/-- Is the value exactly zero. -/
def vZero : Val → Bool
  | .fin _ m _ => m = 0
  | _ => false

/-! ### binary32 operations (R49, R176) -/

/-- FADD. -/
def fAdd (a b : Word32) : Word32 := toF32 (vAdd (f32 a) (f32 b))
/-- FSUB. -/
def fSub (a b : Word32) : Word32 := toF32 (vAdd (f32 a) (vNeg (f32 b)))
/-- FMUL. -/
def fMul (a b : Word32) : Word32 := toF32 (vMul (f32 a) (f32 b))
/-- FFMA: one rounding. -/
def fFma (a b c : Word32) : Word32 := toF32 (vAdd (vMul (f32 a) (f32 b)) (f32 c))
/-- FDIV, correctly rounded. -/
def fDiv (a b : Word32) : Word32 := toF32 (vDiv (f32 a) (f32 b))
/-- FSQRT, correctly rounded. -/
def fSqrt (a : Word32) : Word32 := toF32 (vSqrt (f32 a))

/-- The order of FMIN and FMAX on non-NaN encodings: -0 orders below +0 (R176). -/
def f32Key (w : Word32) : Int :=
  let mag : Int := ((w.toNat % 2 ^ 31 : Nat) : Int)
  if w.msb then -mag - 1 else mag

/-- FMIN: canonical NaN if either input is NaN. -/
def fMin (a b : Word32) : Word32 :=
  if vNaN (f32 a) || vNaN (f32 b) then 0x7FC00000#32 else if f32Key a ≤ f32Key b then a else b
/-- FMAX: canonical NaN if either input is NaN. -/
def fMax (a b : Word32) : Word32 :=
  if vNaN (f32 a) || vNaN (f32 b) then 0x7FC00000#32 else if f32Key a ≤ f32Key b then b else a

/-- ITOF. -/
def iToF (a : Word32) : Word32 := toF32 (ofInt false a.toInt 0)
/-- UTOF. -/
def uToF (a : Word32) : Word32 := toF32 (.fin false a.toNat 0)

/-- The integer part toward zero of a finite value, as a magnitude. -/
def truncMag (m : Nat) (e : Int) : Nat := if 0 ≤ e then m <<< e.toNat else m >>> (-e).toNat

/-- FTOI: toward zero, saturating, NaN gives 0. -/
def fToI (a : Word32) : Word32 :=
  match f32 a with
  | .nan => 0
  | .inf neg => if neg then 0x80000000#32 else 0x7FFFFFFF#32
  | .fin neg m e =>
    let t := truncMag m e
    if neg then BitVec.ofInt 32 (-((min t (2 ^ 31) : Nat) : Int)) else BitVec.ofNat 32 (min t (2 ^ 31 - 1))

/-- FTOU: toward zero, saturating, NaN gives 0. -/
def fToU (a : Word32) : Word32 :=
  match f32 a with
  | .nan => 0
  | .inf neg => if neg then 0 else 0xFFFFFFFF#32
  | .fin neg m e => if neg then 0 else BitVec.ofNat 32 (min (truncMag m e) (2 ^ 32 - 1))

/-- A binary16 widened exactly (R50). -/
def widenH (b : Nat) : Word32 := toF32 (binVal fmtF16 b)
/-- A bfloat16 widened exactly (R50). -/
def widenB (b : Nat) : Word32 := toF32 (binVal fmtBF16 b)

/-! ### W80 (R51 to R53) -/

/-- The encoding with exponent `E` and significand `S`. -/
def mkW (e : Nat) (sig : Int) : Wide := BitVec.ofNat 80 (e * 2 ^ 64 + wrap 64 sig)
/-- W80 zero: E = 0, S = 0 (R52). -/
def wZero : Wide := 0
/-- The canonical W80 NaN: E = 0xFFFF, S = 0 (R51). -/
def wNaN : Wide := mkW 0xFFFF 0
/-- The W80 infinities (R51). -/
def wInf (neg : Bool) : Wide := if neg then mkW 0xFFFF (-(2 ^ 63)) else mkW 0xFFFF (2 ^ 62)

/-- The value of a W80 encoding, non-canonical ones at the value the formula gives (R51, R52). -/
def wVal (w : Wide) : Val :=
  let e := fld w.toNat 79 64
  let sig := sgn 64 w.toNat
  if e = 0xFFFF then
    if sig = 2 ^ 62 then .inf false else if sig = -(2 ^ 63) then .inf true else .nan
  else ofInt false sig ((e : Int) - 32829)

/-- Nearest even integer of a signed integer over `2^d`. -/
def rneSigned (n : Int) (d : Nat) : Int :=
  let r := rneInt (n.natAbs >>> d) (n.natAbs % 2 ^ d) d
  if n < 0 then -(r : Int) else (r : Int)

/-- Write a significand at exponent `q` (a multiple of `2^q`) in normal form, or as infinity (R52, R53). -/
def wPack (sig : Int) (q : Int) : Wide :=
  if sig = 0 then wZero
  else
    -- a rounding carry out of, or a value at the inner edge of, the normalised range
    let p : Int × Int :=
      if sig = 2 ^ 63 then (2 ^ 62, q + 1)
      else if sig = -(2 ^ 62) ∧ q > -32829 then (-(2 ^ 63), q - 1)
      else (sig, q)
    if p.2 + 32829 ≥ 0xFFFF then wInf (decide (sig < 0)) else mkW (p.2 + 32829).toNat p.1

/-- Round `n * 2^e` once to nearest even on S (R53). -/
def wRound (n : Int) (e : Int) : Wide :=
  let bl : Nat := if n < 0 then blen (n.natAbs - 1) else blen n.natAbs
  let q := max (-32829) (e + bl - 63)
  if q ≤ e then wPack (n * (2 ^ (e - q).toNat : Nat)) q else wPack (rneSigned n (q - e).toNat) q

/-- A value rounded once to W80 (zero has no sign). -/
def toW : Val → Wide
  | .nan => wNaN
  | .inf neg => wInf neg
  | .fin neg m e => wRound (if neg then -(m : Int) else (m : Int)) e

/-- W80 add, rounded once. -/
def wAdd (a b : Wide) : Wide := toW (vAdd (wVal a) (wVal b))
/-- W80 multiply, rounded once. -/
def wMul (a b : Wide) : Wide := toW (vMul (wVal a) (wVal b))
/-- The exact sum of three terms rounded once (the UNSP edge add, R96). -/
def wAdd3 (a : Wide) (b c : Val) : Wide := toW (vAdd (vAdd (wVal a) b) c)

/-- The 16-byte slot of a W80 value: S, then E, then zeros. -/
def wBytes (w : Wide) : List Byte := leBytes 16 w.toNat
/-- The W80 value in a 16-byte slot: bytes 10 to 15 are ignored. -/
def wOfBytes (l : List Byte) : Wide := BitVec.ofNat 80 (leNat (l.take 10))

/-- WTREE's combination of one level (R145). -/
def pairUp {α : Type} (f : α → α → α) : List α → List α
  | a :: b :: l => f a b :: pairUp f l
  | l => l

/-- WTREE: levels until one node is left (R145). -/
def treeFold {α : Type} (f : α → α → α) : Nat → List α → List α
  | 0, l => l
  | k + 1, l => if l.length ≤ 1 then l else treeFold f k (pairUp f l)

/-! ### The keyed noise (R68) -/

/-- Constant k1 of R68. -/
def k1 : Word64 := 0x8C5F2E71B3D49A17#64
/-- Constant k2 of R68. -/
def k2 : Word64 := 0xE17B4C930F6A25CB#64
/-- Constant k3 of R68. -/
def k3 : Word64 := 0x5A3D96E4C8170BF5#64

/-- mix of R68. -/
def mix (z : Word64) : Word64 :=
  let z := z ^^^ (z >>> 33)
  let z := z * k3
  let z := z ^^^ (z >>> 29)
  let z := z * k1
  z ^^^ (z >>> 32)

/-- sr_noise of R68: seed, step, tensor id, element index. -/
def srNoise (seed step tensor j : Word64) : Nat :=
  let z := mix (seed ^^^ (step * k1))
  let z := mix (z ^^^ (tensor * k2))
  (mix (z ^^^ j) >>> 32).toNat

/-- Stochastic choice between `n` and `n + 1` units for a signed value whose magnitude is `n + r / 2^d`
(R67): answers the magnitude. -/
def srMag (neg : Bool) (n r d noise : Nat) : Nat :=
  if r = 0 then n
  else
    let x := if neg then 2 ^ d - r else r
    let f := (x * 2 ^ 32) / 2 ^ d
    if noise < f then (if neg then n else n + 1) else (if neg then n + 1 else n)

/-! ### Approximated functions (R178) -/

/-- The infinite and NaN forms, and an exact sign-magnitude integer packed under RNE. -/
def packF (neg : Bool) (n : Nat) (e : Int) : Word32 := toF32 (.fin neg n e)
/-- unpack of R178: the significand in [2^23, 2^24) and its exponent. -/
def unpackF (m : Nat) (e : Int) : Nat × Int :=
  let k := 24 - blen m
  (m <<< k, e - k)

/-- FRCP. -/
def fRcp (w : Word32) : Word32 :=
  match f32 w with
  | .nan => 0x7FC00000#32
  | .inf neg => toF32 (.fin neg 0 0)
  | .fin neg m e =>
    if m = 0 then toF32 (.inf neg)
    else
      let u := unpackF m e
      let a : Int := u.1
      let y0 : Int := 1515870810 - ((505290270 * a) >>> 23)
      let stp := fun y : Int => (y * (2 ^ 31 - ((a * y) >>> 23))) >>> 30
      let y := stp (stp (stp y0))
      packF neg y.toNat (-u.2 - 53)

/-- FRSQ. -/
def fRsq (w : Word32) : Word32 :=
  match f32 w with
  | .nan => 0x7FC00000#32
  | .inf neg => if neg then 0x7FC00000#32 else 0
  | .fin neg m e =>
    if m = 0 then toF32 (.inf neg)
    else if neg then 0x7FC00000#32
    else
      let u := unpackF m e
      let p : Nat × Int := if u.2 % 2 = 0 then (2 * u.1, u.2 - 1) else u
      let a : Int := p.1
      let y0 : Int := 2 ^ 30 - 16 * a
      let stp := fun y : Int => (y * (3 * 2 ^ 30 - ((((y * y) >>> 30) * a) >>> 23))) >>> 31
      let y := stp (stp (stp (stp y0)))
      packF false y.toNat (-30 - Int.tdiv (p.2 + 23) 2)

/-- FEXP2. -/
def fExp2 (w : Word32) : Word32 :=
  match f32 w with
  | .nan => 0x7FC00000#32
  | .inf neg => if neg then 0 else 0x7F800000#32
  | .fin neg m e =>
    if finLt false 256 0 neg m e then 0x7F800000#32
    else if finLt neg m e true 256 0 then 0
    else
      let sc := scaleTo m (e + 32) 0
      let mag : Int := ((rneInt sc.1 sc.2.1 sc.2.2 : Nat) : Int)
      let xi := if neg then -mag else mag
      let n := (xi + 2 ^ 31) >>> 32
      let r := xi - n * 2 ^ 32
      let g := (r * 0xB17217F8) >>> 32
      let p := [8, 7, 6, 5, 4, 3, 2, 1].foldl
        (fun (p : Int) (k : Int) => 2 ^ 32 + Int.tdiv (g * p) (k * 2 ^ 32)) (2 ^ 32)
      packF false p.toNat (n - 32)

/-- FLOG2. -/
def fLog2 (w : Word32) : Word32 :=
  match f32 w with
  | .nan => 0x7FC00000#32
  | .inf neg => if neg then 0x7FC00000#32 else 0x7F800000#32
  | .fin neg m e =>
    if m = 0 then 0xFF800000#32
    else if neg then 0x7FC00000#32
    else
      let u := unpackF m e
      let a : Int := u.1
      let big : Bool := u.1 ≥ 11863284
      let ex : Int := if big then u.2 + 24 else u.2 + 23
      let c : Int := if big then 2 ^ 24 else 2 ^ 23
      let z := Int.tdiv ((a - c) * 2 ^ 31) (a + c)
      let w2 := (z * z) >>> 31
      let t := ([9, 7, 5, 3] : List Int).foldl
        (fun (t : Int) (d : Int) => Int.tdiv (2 ^ 31) d + ((w2 * t) >>> 31)) (Int.tdiv (2 ^ 31) 11)
      let t := 2 ^ 31 + ((w2 * t) >>> 31)
      let v := (z * t) >>> 31
      let y := ex * 2 ^ 31 + ((v * 0xB8AA3B29) >>> 30)
      if y < 0 then packF true y.natAbs (-31) else packF false y.natAbs (-31)

end Sys2Proof.Machine
end

