-- ==== Sys2Proof/Machine/Caster.lean ====
section
/-! DEFINITION. The caster's pure part: format codes (R44, R55), block formats (R45 to R48, R63), scale selection,
overflow, flush and rounding (R57 to R62, R65 to R67, R560), and the counts of a cast (R71). -/

namespace Sys2Proof.Machine

/-! ### Format codes (R44) -/

/-- BS2 to BS16: the code is the mantissa width. -/
def isBs (c : Nat) : Bool := 2 ≤ c && c ≤ 16
/-- The element width of a block format: m, or 8, 8, 8, 4 for the MX formats. -/
def elemBits (c : Nat) : Nat := if isBs c then c else if c = 0x18 then 4 else 8
/-- Block formats: BSm and the MX formats. -/
def isBlock (c : Nat) : Bool := isBs c || (0x15 ≤ c && c ≤ 0x18)
/-- A code R44 does not reserve. -/
def fmtKnown (c : Nat) : Bool := 2 ≤ c && c ≤ 0x18

/-- The conversions R55 marks. -/
def castAllowed (sf df : Nat) : Bool :=
  if isBs sf then isBs df || df = 0x11 || df = 0x14 || (sf = 8 && df = 0x15)
  else if sf = 0x11 then isBs df || df = 0x12 || df = 0x13 || df = 0x14
  else if sf = 0x12 || sf = 0x13 then isBs df || df = 0x11 || df = 0x12 || df = 0x13 || df = 0x14
  else if sf = 0x14 then isBs df || df = 0x11
  else if sf = 0x15 then isBs df || df = 0x11 || df = 0x14
  else (sf = 0x16 || sf = 0x17 || sf = 0x18) && isBs df

/-- The pairs the CVT form accepts (R184): registers to registers. -/
def cvtPair (sf df : Nat) : Bool :=
  castAllowed sf df && (0x11 ≤ sf && sf ≤ 0x14) && (0x11 ≤ df && df ≤ 0x14)
/-- The pairs the CASTL form accepts. -/
def castlPair (sf df : Nat) : Bool := castAllowed sf df && (isBs sf || sf = 0x15) && (df = 0x11 || df = 0x14)
/-- The pairs the CASTS form accepts. -/
def castsPair (sf df : Nat) : Bool := castAllowed sf df && (0x11 ≤ sf && sf ≤ 0x14) && isBs df
/-- The pairs the CASTM form accepts: BSn from any block format, MXI8 from BS8. -/
def castmPair (sf df : Nat) : Bool := castAllowed sf df && isBlock sf && (isBs df || df = 0x15)

/-! ### Block formats -/

/-- Raw element `i` of a block's mantissa field (R48). -/
def elemRaw (w field i : Nat) : Nat := fld field (w * i + w - 1) (w * i)

/-- Value of a BSm element (R45, R46): NaN in a non-finite block. -/
def bsVal (m scale : Nat) (mant : Int) : Val :=
  if scale = 0xFF then .nan else ofInt false mant ((scale : Int) - 125 - m)

/-- An MX element of `eb` exponent and `mb` mantissa bits, times the block scale (R63). `nanE` says that the
largest exponent holds only infinities and NaNs (E5M2), `nanM` that its all-ones encoding is NaN (E4M3). -/
def mxVal (eb mb : Nat) (nanE nanM : Bool) (scale raw : Nat) : Val :=
  let bias : Int := ((2 ^ (eb - 1) - 1 : Nat) : Int)
  let neg := bit raw (eb + mb) = 1
  let ef := fld raw (eb + mb - 1) mb
  let a := raw % 2 ^ mb
  if scale = 0xFF then .nan
  else if nanE ∧ ef = 2 ^ eb - 1 then .nan
  else if nanM ∧ ef = 2 ^ eb - 1 ∧ a = 2 ^ mb - 1 then .nan
  else if ef = 0 then .fin neg a (1 - bias - mb + ((scale : Int) - 127))
  else .fin neg (a + 2 ^ mb) ((ef : Int) - bias - mb + ((scale : Int) - 127))

/-- Value of element `i` of a block in format `c` (R45, R63). -/
def blockVal (c scale field i : Nat) : Val :=
  let raw := elemRaw (elemBits c) field i
  if c = 0x16 then mxVal 4 3 false true scale raw
  else if c = 0x17 then mxVal 5 2 true false scale raw
  else if c = 0x18 then mxVal 2 1 false false scale raw
  else bsVal (elemBits c) scale (sgn (elemBits c) raw)

/-- A block's mantissa field packed from its mantissas (R48). -/
def packMants (m : Nat) (ms : List Int) : Nat :=
  (ms.foldr (fun q acc => acc * 2 ^ m + wrap m q) 0)

/-! ### The slot's modes (R74) -/

/-- SR, PROP, CEILEN, CEIL of COR_RCCFG. -/
abbrev CastCfg := Bool × Bool × Bool × Nat
/-- The modes in a COR_RCCFG word; CEIL above 254 acts as 254. -/
def castCfg (w : Nat) : CastCfg := (bit w 0 = 1, bit w 1 = 1, bit w 2 = 1, min 254 (fld w 15 8))

/-- The noise key of a cast: seed, step, tensor id, base index (R68, R185). -/
abbrev CastKey := Word64 × Word64 × Word64 × Nat
/-- The noise of element index `j`, which has 48 bits (R68; log entry 21). -/
def castNoise (k : CastKey) (j : Nat) : Nat := srNoise k.1 k.2.1 k.2.2.1 (BitVec.ofNat 64 (j % 2 ^ 48))

/-! ### Counts (R71) -/

/-- Overflows, flushes, non-finite units, and the recorded groups as (own scale, binned scale). -/
abbrev CastCount := Nat × Nat × Nat × List (Nat × Nat)
/-- Sum of two casts' counts. -/
def addCount (a b : CastCount) : CastCount :=
  (a.1 + b.1, a.2.1 + b.2.1, a.2.2.1 + b.2.2.1, a.2.2.2 ++ b.2.2.2)
/-- No event. -/
def noCount : CastCount := (0, 0, 0, [])

/-! ### Scale selection (R57) -/

/-- Magnitude and exponent of a finite value. -/
def finMag : Val → Nat × Int
  | .fin _ m e => (m, e)
  | _ => (0, 0)

/-- `floor (log2 max |x|)` over the values, none when all are zero. -/
def maxLog (xs : List Val) : Option Int :=
  xs.foldl (fun acc v =>
    let p := finMag v
    if p.1 = 0 then acc
    else
      let l : Int := p.2 + (blen p.1 : Nat) - 1
      match acc with
      | none => some l
      | some a => some (max a l)) none

/-- e_own and whether it was clamped high. -/
def ownScale (xs : List Val) : Nat × Bool :=
  match maxLog xs with
  | none => (0, false)
  | some l => ((min (max (l + 127) 0) 254).toNat, decide (l + 127 > 254))

/-! ### Casting to BSm (R57 to R61) -/

/-- The rounded mantissa of `x / 2^u` (R65 to R67). -/
def roundMant (sr : Bool) (noise : Nat) (u : Int) : Val → Int
  | .fin neg m e =>
    let p := scaleTo m e u
    let n := if sr then srMag neg p.1 p.2.1 p.2.2 noise else rneInt p.1 p.2.1 p.2.2
    if neg then -(n : Int) else (n : Int)
  | _ => 0

/-- One element of a BSm cast: mantissa written, overflow, flush. -/
def castElem (m : Nat) (cfg : CastCfg) (e own : Nat) (clampHi : Bool) (x : Val) (noise : Nat) : Int × Bool × Bool :=
  let q := roundMant cfg.1 noise ((e : Int) - 125 - m) x
  let hi : Int := ((2 ^ (m - 1) : Nat) : Int)
  let p : Int × Bool :=
    if q = hi ∧ e = own ∧ !clampHi then (hi - 1, false)
    else if q > hi - 1 ∨ q < -hi then (min (max q (-hi)) (hi - 1), true)
    else (q, false)
  (p.1, p.2, p.1 = 0 && !vZero x)

/-- A converted block: scale, mantissas, poison, counts. -/
abbrev CastBlock := Nat × List Int × Bool × CastCount
/-- The block R46 writes for a non-finite result. -/
def nonfinBlock : Nat × List Int := (0xFF, List.replicate 32 0)

/-- cast_to_bs of the manual on 32 inputs with their poison; `j0` is the index of element 0. -/
def castToBs (m : Nat) (cfg : CastCfg) (key : CastKey) (j0 : Nat) (xs : List (Val × Bool)) : CastBlock :=
  let pois := xs.any Prod.snd
  let vals := xs.map Prod.fst
  let cnt (c : CastCount) : CastCount := if pois then noCount else c
  if vals.any vNonfin then (nonfinBlock.1, nonfinBlock.2, pois, cnt (0, 0, 1, []))
  else
    let own := ownScale vals
    let e := if cfg.2.2.1 then min own.1 cfg.2.2.2 else own.1
    let r := (vals.zip (List.range vals.length)).map fun p =>
      castElem m cfg e own.1 own.2 p.1 (castNoise key (j0 + p.2))
    let ovf := (r.filter fun t => t.2.1).length
    let flu := (r.filter fun t => t.2.2).length
    if ovf > 0 ∧ cfg.2.1 then (nonfinBlock.1, nonfinBlock.2, pois, cnt (ovf, flu, 1, []))
    else (e, r.map (·.1), pois, cnt (ovf, flu, 0, [(own.1, e)]))

/-! ### Casting to element formats (R62, R560) -/

/-- The largest finite magnitude of a binary format is exceeded (the SR overflow of R62). -/
def aboveMax (f : BinFmt) (m : Nat) (e : Int) : Bool :=
  let top : Int := f.2.1 + ((2 ^ f.2.2 - 3 : Nat) : Int)
  finLt false (2 ^ f.1 - 1) top false m e

/-- One element to a binary format: bits, overflow, flush, non-finite. -/
def castBin (f : BinFmt) (sr prop : Bool) (noise : Nat) : Val → Nat × Bool × Bool × Bool
  | .nan => (binNaN f, false, false, true)
  | .inf neg => (binSign f neg + binInf f, false, false, true)
  | .fin neg m e =>
    let q := lsbExp f m e
    let p := scaleTo m e q
    let mag :=
      if sr then
        let n := srMag neg p.1 p.2.1 p.2.2 noise
        if n = 0 then 0 else (q - f.2.1).toNat * 2 ^ (f.1 - 1) + n
      else binRne f m e
    let ovf := if sr then aboveMax f m e else mag ≥ binInf f
    if ovf then (binSign f neg + (if prop then binInf f else binInf f - 1), true, false, false)
    else (binSign f neg + mag, false, mag = 0 && m ≠ 0, false)

/-- One element to W80 (R560): exact, counting only non-finite ones. -/
def castW (v : Val) : Nat × Bool × Bool × Bool := ((toW v).toNat, false, false, vNonfin v)

/-- One element to the element format `df`. -/
def castScalar (df : Nat) (cfg : CastCfg) (noise : Nat) (v : Val) : Nat × Bool × Bool × Bool :=
  if df = 0x14 then castW v
  else castBin (if df = 0x11 then fmtF32 else if df = 0x12 then fmtF16 else fmtBF16) cfg.1 cfg.2.1 noise v

/-- Is an element output a NaN or an infinity, by its format (R71). -/
def outNonfin (df bits : Nat) : Bool :=
  if df = 0x14 then vNonfin (wVal (BitVec.ofNat 80 bits))
  else vNonfin (binVal (if df = 0x11 then fmtF32 else if df = 0x12 then fmtF16 else fmtBF16) bits)

/-- Elements with their index, value and poison, cast one by one: (index, bits, poison), and the counts.
Groups of 32 are cut at multiples of 32 of the index (R71; the own scale of a group is taken from its
inputs as in R57, log entry 22). -/
def castScalars (df : Nat) (cfg : CastCfg) (key : CastKey) (xs : List (Nat × Val × Bool)) :
    List (Nat × Nat × Bool) × CastCount :=
  let rs := xs.map fun x => (x, castScalar df cfg (castNoise key x.1) x.2.1)
  let ok := rs.filter fun r => !r.1.2.2
  let keys := (xs.map fun x => x.1 / 32).eraseDups
  let groups := keys.filterMap fun k =>
    let mem := rs.filter fun r => r.1.1 / 32 = k
    if mem.any (fun r => r.1.2.2 || outNonfin df r.2.1 || vNonfin r.1.2.1) then none
    else
      let own := (ownScale (mem.map fun r => r.1.2.1)).1
      some (own, own)
  (rs.map fun r => (r.1.1, r.2.1, r.1.2.2),
   ((ok.filter fun r => r.2.2.1).length, (ok.filter fun r => r.2.2.2.1).length,
    (ok.filter fun r => r.2.2.2.2).length, groups))

end Sys2Proof.Machine
end

