-- ==== Sys2Proof/Machine/State.lean ====
section
/-! DEFINITION. The state of the module: every register, memory, queue, counter, mode and pin the spec names, as
plain data; what stops it; and the state after power-on reset. -/

namespace Sys2Proof.Machine

/-- Why a command stops the model. Nothing the block does on a command of this table stops it, so no meaning
raises it; kept as the interface asks for the type. Safe. -/
inductive Fault where
  /-- Raised by no meaning. Safe. -/
  | stuck
  deriving DecidableEq, Repr

/-- Why a command has no meaning in the model. -/
inductive Refusal where
  /-- Raised by an arm of `exec` whose row has no meaning yet; the string is the row's mnemonic. Safe. -/
  | notModelled (mnemonic : String)
  deriving DecidableEq, Repr

/-! ### Registers -/

/-- The registers of the manual, under their names (R10, R11). -/
inductive Reg where
  -- COR, instance g (R73, R116, R152, R305)
  | RCCFG | RCTID | RCOVF | RCFLU | RCNF | RCMAX | RCCLR | RCHIST
  | MXCTL | MXSTAT | MXALN | MXEDGE | MXVEC | MXGATE | MXCLR
  | SPLIT | SHAPE | EWIN | ISTAT | GSTARVE | SEQMM | ATOM | EXCLR | ISSUE
  | SYNCPOLL | SYNCCLR
  -- CLU, instance k (R509)
  | PSTATE | HOLD | FCNT | SKIP
  -- MSD, instance m (R234)
  | MSDCFG | LLCHIT | LLCMISS | POIS | RESTORE | DGCTL | DGFLAG | MSDCLR | DGSUM | DGSNAP
  -- CHN, instance c (R240)
  | ROTA | PATROL | RSCORR | RSUNC | RSPOIS | SCRUB | TEMP | CHNCLR | PINSYM
  -- LNK, instance p (R340)
  | LNKCTL | LNKCMD | LNKSTAT | PEER | CABLE | FECCORR | REPLAY | DOWN | REJECT | DROP | TXFLIT | RXFLIT
  | WHEEL | LNKCLR | NODE | ROUTE
  -- FLK, instance f (R302, R347, R422, R456)
  | WDOG | WDSTAT | JOB | JACT | JCTL | JWBASE | JWSIZE | JWTGT
  | STEP | SREP | SHADOW | TBAR | TBSEED | JRNL | EVAL
  | QCTL | SQBASE | CQBASE | SQTAIL | SQHEAD | CQTAIL | CQHEAD | IMOD | QSTAT | SHAKE | FAULT0 | FAULT1 | HERR
  | QCLR | CTX
  -- LDL, instance i (R379, R420)
  | GCFG | LTAB | GSTEP | GSTAT | LWAIT | CHK | NF | LATE | DUP | STALE | LDLCLR | RANKNODE
  | VCFG | VSTART | VLIM | VEND | VSTAT | POUR | POURCMD | RBUD | RBASE | HEALTH | RCMD | SPOL | SCALE
  | SHIST0 | SHIST1 | VNODE
  -- RUN, instance i (R381)
  | CTAB | CTXOWN | CTXEN | RUNDUP | RUNCLR | RQCFG | RQBASE | RQPEER
  -- ERR (R424, R549)
  | QMAP | STRIKE | ERRCTL | RSEQ | RACK | RDROP | ERRCLR | LSCORR | CCCORR
  -- CXL (R458)
  | LSTAT | LDSTAT | IDESTAT
  -- MGT, PAT (R479, R550)
  | BOOT | IMGVER | MINVER | BOOTNUM | IDCTR | JSEQ | IMGHASH | SERIAL | NET | TELEM | SESS | PATHDR | PATSEC
  -- CLK, PWR, RST (R504, R534)
  | CLKSTAT | XPHASE | PCMD | PSTAT | COLD | IDLE | CAP | LIMIT | MEAS | THERM | PTEMP | PINS | CAUSE | RCMDR
  deriving DecidableEq, Repr

/-- Reset value of a register (R15): zero but for these (R341, R424, R507, R508, R549). -/
def Reg.resetVal : Reg → Word64
  | .LNKCTL => 1
  | .QMAP => 0xFFFF_FFFF_FFFF_FFFF
  | .IDLE => 0x03E8_4010
  | .LIMIT => 0xA8C
  | .THERM => 0x6E5F
  | .CAUSE => 1
  | .ERRCTL => 0x100
  | _ => 0

/-- The key of entry `j` of instance `i` of a register in the register file. -/
def Reg.key (r : Reg) (i j : Nat) : Nat := (i * 2 ^ 20 + j) * 256 + r.ctorIdx

/-! ### The core -/

/-- What holds a waiting group (R290, R296). -/
inductive WKind where
  | bar | swait | qput | qtake | rnext | rfree
  deriving DecidableEq, Repr

/-- A wait entry (R296, R300): the object's address (or queue, or context), COND, the value or the GEN returned,
the scope, the watchdog count in fc, whether its arrival or first read has returned, and the first poll (by its
request number) that serves it. -/
structure Wait where
  kind : WKind
  addr : Nat
  cond : Nat
  val : Nat
  scp : Nat
  count : Nat
  ready : Bool
  since : Nat
  deriving DecidableEq, Repr

/-- A resident thread group (R131): its program counter, its fetch window base W (R138), lane registers (key
64 r + lane) with their poison, masks and uniforms with theirs, and its accesses in flight. A poison set lists
the keys that are poisoned. -/
structure Group where
  strm : Stream
  q : Nat
  pc : Nat
  win : Nat
  v : Sparse Word32
  vp : List Nat
  k : Sparse Word64
  kp : List Nat
  u : Sparse Word64
  up : List Nat
  /-- Requests whose data a register waits for: id, and the registers (lane r as r, uniform u as 256 + u). -/
  busy : List (Nat × List Nat)
  /-- Stores and atomics issued and not yet acknowledged (R256). -/
  stores : List Nat
  /-- Loads, and atomics with a return, whose data has not returned (R254). -/
  loads : List Nat
  /-- Acquires in flight (R254): the request awaited, and whether the scope is CORE or wider. -/
  acq : List (Nat × Bool)
  /-- The barrier list (R287). -/
  blist : List Nat
  wait : Option Wait
  /-- Ring step t_g of each sequence context (R375). -/
  ring : Sparse Nat
  /-- Index of the descriptor that launched it. -/
  own : Nat
  deriving DecidableEq, Repr

/-- A stationary plane (R81): rows are kept as 128 blocks 2c + h of 32 held mantissas, with the scale of each
block (for QUAD the quadrant's), poison of each block, the MODE, NC and KB of the tile, and ready. -/
structure Plane where
  quad : Bool
  nc : Nat
  kb : Nat
  /-- Held mantissas: key 64 * column + row. -/
  mant : Sparse Int
  /-- Scale by block 2c + h. -/
  scale : Sparse Nat
  pois : List Nat
  /-- Rows whose parity fails (R107). -/
  bad : List Nat
  ready : Bool
  /-- The stream whose MLOAD is in flight. -/
  loading : Option Stream
  deriving DecidableEq, Repr

/-- A matrix operation in a port queue (R136): the words MLOAD, MSTREAM and MDRAIN decode to (R83 to R85, R188). -/
inductive MOp where
  | load (pl : Nat) (quad : Bool) (fmt nc kb mb sb : Nat)
  | stream (pl : Nat) (trans : Bool) (fmt m eb : Nat) (pair : Bool) (lam tix : Nat) (start : Bool) (mb sb vs : Nat)
  | drain (eb m : Nat) (pair : Bool) (lam nw dfmt slot epi epf eps db dsb epb drs ers tiles js : Nat)
      (seed step : Word64) (jb : Nat) (cfg tid : Word64)
  deriving DecidableEq, Repr

/-- A queued matrix operation, its stream and group, the program counter it was issued at, and the local-store cells its
operands held then (R190). -/
structure MQ where
  who : Who
  pc : Nat
  op : MOp
  old : List Host.Cell
  deriving DecidableEq, Repr

/-- One vector's half-sums on their way to the edge (R95, R110): for each column, the half-sums present with
their poison; where they land, and how (R96, R97). -/
structure Landing where
  strm : Stream
  ent : Nat
  pair : Bool
  lam : Nat
  tix : Nat
  m : Nat
  start : Bool
  cols : List (List (Wide × Bool))
  /-- This is the last vector of its MSTREAM. -/
  last : Bool
  deriving DecidableEq, Repr

/-- A DMA entry in use (R192, R268, R294): addresses, length, signal, what its start waits for, the completion mode chosen at
issue, the poison of what it moves and of what it adds to the signal (R22), the reads and writes in flight, the number of pieces,
and the flagged slot. -/
structure Dma where
  who : Who
  pc : Nat
  flask : Nat
  src : Nat
  dst : Nat
  len : Nat
  sinc : Word64
  sig : Nat
  after : List Nat
  started : Bool
  mode : Nat
  pois : Bool
  sigP : Bool
  reads : List Nat
  writes : List Nat
  npieces : Nat
  tsl : Nat
  gen : Bool
  sigSent : Bool
  deriving DecidableEq, Repr

/-- A prefetch stream (R213, R214). -/
structure Pf where
  addr : Nat
  nlines : Nat
  stride : Int
  tgt : Nat
  strm : Stream
  inflight : List Nat
  deriving DecidableEq, Repr

/-- A core-cache line (R197): its set, way and line number (bits 63:7 of the address), data and poisoned words. -/
structure CLine where
  set : Nat
  way : Nat
  line : Nat
  data : List Byte
  pois : List Nat
  deriving DecidableEq, Repr

/-- A core (R123). -/
structure Core where
  groups : List Group
  /-- Streams F, B, U, G: 0 running, 3 stopped by a fault, 4 stopped by quarantine, 5 stopped by a SAVE (R156). -/
  stop : List Nat
  /-- The group that last issued on each stream (R135). -/
  lastq : List Nat
  /-- Host flask of the resident launch. -/
  hflask : Nat
  /-- Slice sizes of the host and guest launches (R128, R129). -/
  lpg : Nat
  lpgg : Nat
  /-- Splits zeroing (R126), array zeroing (R115). -/
  zbusy : Bool
  zero : Bool
  planes : List Plane
  /-- Row, serial and drain port (R112, R118): the stream it was last granted to, and the fc of the core's cluster from which
  the port is free (drain: its last output is written). -/
  ports : List (Option (Stream × Nat))
  /-- Edge file: key 256 * column + entry. -/
  edge : Sparse Wide
  edgeP : List Nat
  mq : List MQ
  land : List Landing
  dma : Sparse (Option Dma)
  pf : Sparse (Option Pf)
  pfLast : Nat
  cc : List CLine
  /-- Tree pseudo-LRU bits of each set. -/
  lru : Sparse Nat
  /-- The parameter-read hold of R35. -/
  phold : Bool
  /-- Local-store ranges (offset, length) that a CASTS or CASTM issued in this ac writes (R186). -/
  fresh : List (Nat × Nat)
  /-- Departures of ended groups not yet acknowledged (R287): the request, whether it is a guest's, and the group's launch. -/
  depart : List (Nat × Bool × Nat)
  /-- Quarantine announced, its reset (R115) not yet done. -/
  quar : Bool
  /-- Power: 0 running, 1 Hold, 2 Nap, 3 Rest, 4 Cold (R485); a wake in progress; parts to be zeroed at the
  wake (R503): bit 0 the host's, bit 1 the guest's. -/
  power : Nat
  waking : Bool
  marked : Nat
  deriving DecidableEq, Repr

/-- The zero tile of R115. -/
def Plane.zeroTile (rdy : Bool) : Plane :=
  { quad := false, nc := 64, kb := 2, mant := [], scale := [], pois := [], bad := [], ready := rdy, loading := none }

/-- A core after power-on reset: nothing resident, and no plane ready (R116) until the zeroing that starts with its clock in
boot stage 6 has ended (R115). -/
def Core.init : Core :=
  { groups := [], stop := [0, 0, 0, 0], lastq := [0, 0, 0, 0], hflask := 0, lpg := 0, lpgg := 0, zbusy := false,
    zero := false, planes := [Plane.zeroTile false, Plane.zeroTile false], ports := [none, none, none], edge := [], edgeP := [], mq := [],
    land := [], dma := [], pf := [], pfLast := 15, cc := [], lru := [], phold := false, fresh := [], depart := [], quar := false,
    power := 0, waking := false, marked := 0 }

/-! ### Requests to memory -/

/-- Who made a request (R246): a group, a DMA entry, a prefetch stream, an engine, or the module at the other
end of a port. -/
inductive Src where
  | grp (x : Who)
  | dma (core entry : Nat)
  | pf (core stream : Nat)
  | eng (n : Nat)
  | node (src seq : Nat)
  deriving DecidableEq, Repr

/-- What a request asks of its point of coherence. -/
inductive RKind where
  | read | write | atom | arrive | depart | poll | prefetch | signal
  deriving DecidableEq, Repr

/-- A request on its way to its point of coherence (R249). `addr` is the address of R179; a write carries its
bytes and its byte mask (empty: all); an atomic its AOP and its operands, each with its compare value, in lane
order. `rel` lists the requests that must be acknowledged first (R255). `lanes` pairs each lane served with its
byte address. `reg`, `sz` and `conv` say where and how a load's data is written (conv 1 LDH, 2 LDB, 3 LDU).
`alloc` says that the core cache may keep the line, `taint` that R260 forbids it. `flag` holds TSL, GEN, FIN and
CNT of a flagged transfer (R275). -/
structure Req where
  id : Nat
  src : Src
  pc : Nat
  flask : Nat
  kind : RKind
  addr : Nat
  size : Nat
  data : List Byte
  mask : List Bool
  aop : Nat
  ops : List (Nat × Nat)
  ret : Bool
  pois : Bool
  rel : List Nat
  lanes : List (Nat × Nat)
  reg : Nat
  sz : Nat
  conv : Nat
  alloc : Bool
  taint : Bool
  /-- Scope of the instruction, while it issues; of a request received from a node, its JOB. -/
  cnt : Nat
  flag : Option (Nat × Bool × Bool × Nat)
  deriving DecidableEq, Repr

/-- What came back for a request: bytes (a line read: its 128 bytes), the poisoned 4-byte words, old values, and
the status of R323 (0 OK; 5 link-failed, R32). -/
structure Resp where
  req : Req
  data : List Byte
  pois : List Nat
  olds : List Nat
  status : Nat
  deriving DecidableEq, Repr

/-! ### Notices and records -/

/-- Notices in flight to I/O dies and to cores (R277, R384, R387, R388, R447). -/
inductive Notice where
  | fault (flask cause core : Nat) (strm : Stream) (grp pc addr : Nat)
  | stepEv (flask flag : Nat)
  | binding (flask core : Nat)
  | completion (flask core : Nat)
  /-- A flagged data write has landed (R277). -/
  | landing (src tsl : Nat) (gen : Bool)
  deriving DecidableEq, Repr

/-- An error record (R542): the fields that vary, whether it is acknowledged, how many times it has been sent, and
whether it has been read over I3C (R546, R547). -/
structure Record where
  rseq : Nat
  cls : Nat
  boot : Nat
  slot : Nat
  node : Nat
  acnt : Nat
  code : Nat
  src : Nat
  flask : Option Nat
  inst : Nat
  d0 : Nat
  d1 : Nat
  d2 : Nat
  acked : Bool
  sent : Nat
  i3c : Bool
  deriving DecidableEq, Repr

/-- What the block shows at its connectors. -/
inductive Out where
  /-- An MSI-X vector of an LD (R446). -/
  | msix (ld vec : Nat)
  /-- A CXL.mem read completion, with poison, and a write acknowledgement (R429, R430). -/
  | cxlData (ld dpa : Nat) (data : List Byte) (poi : Bool)
  | cxlAck (ld dpa : Nat)
  /-- A reply to a mailbox, FM API, DOE or configuration command: LD, command, return code, payload. -/
  | reply (ld cmd rc : Nat) (body : List Byte)
  /-- A management response (R536, R537). -/
  | mgt (dst : Peer) (mid sess code : Nat) (body : List Byte)
  /-- A record or a telemetry block sent to the all-nodes group (R547, R548). -/
  | record (rseq : Nat)
  | telem (body : List Byte)
  /-- A neighbour advertisement or an echo reply (R535), an I3C acknowledgement (R524). -/
  | net (dst : Peer) (kind : Nat) (body : List Byte)
  /-- The per-bank refresh of bank `bank` of both ranks of a channel's packages (R219), and a ZQ latch (R215). -/
  | refresh (chan bank : Nat)
  | zqLatch (chan : Nat)
  /-- Stripe credits a ladle returns to a node of a group with a message toward it (R364). -/
  | credits (lad grp node count : Nat)
  /-- A flit on a port (R310). -/
  | flit (p : Nat) (bytes : List Byte)
  deriving DecidableEq, Repr

/-! ### The memory-side dies -/

/-- An LLC line (R206): its memory-side die, set, way, and DRAM line (offset div 128), dirty. -/
structure LLine where
  die : Nat
  set : Nat
  way : Nat
  line : Nat
  dirty : Bool
  deriving DecidableEq, Repr

/-- An entry of a DRAM bank queue (R221): the line, and whether it writes. -/
structure BankReq where
  line : Nat
  write : Bool
  deriving DecidableEq, Repr

/-- A memory-side die's part outside its registers. -/
structure Mem where
  llc : List LLine
  /-- Tree pseudo-LRU bits: key die * 2^17 + set. -/
  lru : Sparse Nat
  /-- Miss entries (R209): a line and the requests that wait on it, in arrival order. -/
  miss : List (Nat × List Req)
  /-- Poison list of each die (R227): DRAM lines. -/
  plist : List (Nat × Nat)
  /-- Bank queues: key 32 * channel + bank slot. -/
  bank : Sparse (List BankReq)
  /-- Reads served by a bank slot whose data has not arrived. -/
  arriving : List Nat
  /-- Scrub-slot corrections and poison writes waiting (R229, R230): key channel; (line, poison). -/
  scrubq : Sparse (List (Nat × Bool))
  /-- A patrol correction to be written next rota (R228): key channel, line + 1. -/
  patq : Sparse Nat
  /-- Lines written poisoned in DRAM (R226). -/
  dpois : List Nat
  /-- Symbol errors of a DRAM access: key 2 * line + access; (symbol, error value) (R223). -/
  derr : Sparse (List (Nat × Nat))
  /-- Latent errors of local-store words (key offset div 4), edge entries, core-cache words and LLC sectors: 1
  single-bit, 2 double-bit (R107, R195, R201, R210). -/
  lerr : Sparse Nat
  eerr : Sparse Nat
  cerr : Sparse Nat
  serr : Sparse Nat
  /-- Lines with a backing read under way (R231). -/
  restore : List Nat
  /-- Rotas stopped and packages in self-refresh: channels (R495). -/
  selfref : List Nat
  /-- The slot each channel's rota begins next (R217). -/
  slot : Sparse Nat
  /-- Consecutive status reads of a channel that asked for a shorter interval (R220, R499). -/
  hot : Sparse Nat
  deriving DecidableEq, Repr

/-! ### The fabric -/

/-- A request outstanding at its owning die (R271, R326): destination, number, the request, the port its latest
copy left on (16: the module itself), the message, and whether it has completed. -/
structure Outst where
  dst : Nat
  seq : Nat
  req : Req
  port : Nat
  msg : Msg
  deriving DecidableEq, Repr

/-- A port's link state (R310 to R313, R324, R325, R332 to R335). -/
structure Port where
  /-- Flit slot index. -/
  slot : Nat
  /-- Next LSN to send, next LSN expected. -/
  lsn : Nat
  ack : Nat
  /-- Sent DATA flits not yet acknowledged, with their LSN; and the ones being replayed. -/
  unack : List (Nat × List Byte)
  replay : List (Nat × List Byte)
  /-- Messages sent and not yet wholly acknowledged (R331, R359): the LSN of the last flit, the flask, the message. -/
  coll : List (Nat × Nat × Msg)
  /-- A NAK to send, and whether flits are being discarded until the replay. -/
  nak : Bool
  /-- The last replay's LSN and how many replays in a row began there. -/
  nakAt : Nat
  nakRun : Nat
  /-- Credits held toward the partner and credits to return, per VC, in 32-byte units. -/
  cred : List Nat
  ret : List Nat
  /-- Last wheel position used on VC0 and VC1. -/
  wpos : List Nat
  /-- Messages waiting to begin, in order of acceptance, each with its VC and flask (a collective one: 16 times the die of its
  engine is added); the one in progress and its bytes left. -/
  tx : List (Nat × Nat × Msg)
  cur : Option (Nat × Nat × Msg)
  left : List Byte
  /-- Bytes of a message received in part; messages received and still in the buffer. -/
  part : List Byte
  rx : List Msg
  /-- The 25-ac period whose keep-alive has been sent. -/
  ka : Nat
  /-- Held down by its cable (R314, R316). -/
  held : Bool
  /-- Cable fitted, module ready (R314, R526), cage supply cut (R527). -/
  cable : Option Cable
  ready : Bool
  cut : Bool
  deriving DecidableEq, Repr

/-- A port with no link. -/
def Port.init : Port :=
  { slot := 0, lsn := 0, ack := 0, unack := [], replay := [], coll := [], nak := false, nakAt := 0, nakRun := 0,
    cred := [8192, 8192, 1024, 128], ret := [0, 0, 0, 0], wpos := [63, 63], tx := [], cur := none, left := [], part := [], rx := [],
    ka := 0, held := false, cable := none, ready := false, cut := false }

/-- A landing entry (R277). -/
structure LandEnt where
  gen : Bool
  count : Nat
  fin : Option (Nat × Req)
  deriving DecidableEq, Repr

/-- A stored completion (R330): source node, number, the message. -/
structure Stored where
  node : Nat
  seq : Nat
  msg : Msg
  deriving DecidableEq, Repr

/-- The fabric's state beside its registers. -/
structure Fabric where
  ports : List Port
  /-- Sequence counters: last number used toward each destination (the first is 1, R271). -/
  seq : Sparse Nat
  outs : List Outst
  /-- Lowest FLOOR to send, destinations with a FLOOR due (R330). -/
  floorDue : List Nat
  /-- Duplicate filters: base B and the numbers above it already accepted, per source (R272). -/
  base : Sparse Nat
  seen : Sparse (List Nat)
  /-- FLOOR last received from each source. -/
  floorIn : Sparse Nat
  store : List Stored
  /-- Landing entries: key 4 * source + TSL. -/
  land : Sparse LandEnt
  /-- Flagged slots in use at the source: key 4 * destination + TSL; 0 free, 1 busy; GEN to use next (R276). -/
  slots : Sparse Nat
  gens : Sparse Nat
  deriving DecidableEq, Repr

/-- A landing entry that has received nothing. -/
def LandEnt.init : LandEnt := { gen := false, count := 0, fin := none }

/-! ### The collective engines -/

/-- A stripe in a ladle (R353, R355): 128 binary32 values, the checksum pair of each block, the poisoned blocks as a
bit set, and for a leaf its four BS16 mantissa fields and scale bytes as read. -/
structure Stripe where
  vals : List Word32
  chk : List (Word32 × Word32)
  pblk : Nat
  raw : List Byte
  deriving DecidableEq, Repr

/-- A child held at a node placed here (R364), with the edges whose credit its result returns: sending rank, level. -/
structure Hold where
  g : Nat
  layer : Nat
  level : Nat
  node : Nat
  stripe : Nat
  v : Stripe
  edges : List (Nat × Nat)
  deriving DecidableEq, Repr

/-- A layer's state in one step (R360 to R371): the entry's eight words as read, marks counted, the ladles that have
started its reduction, the stripes finished here, the ladles whose part is complete, the abandonment, the expiry of
the broadcast wait, and the tundish lines applied. -/
structure LayerSt where
  ent : List Nat
  gm : Nat
  um : Nat
  started : List Nat
  fin : List Nat
  parts : List Nat
  late : Bool
  blate : Bool
  lines : Nat
  /-- LDL_WAIT.LIMIT as its reduction and its broadcast found it at their start (R380). -/
  lim : Nat
  blim : Nat
  deriving DecidableEq, Repr

/-- Both ladles and the tundish, beside their registers. -/
structure Ladle where
  /-- Layers named in the current step: key 4096 * group + layer. -/
  layers : Sparse (Option LayerSt)
  hold : List Hold
  /-- Results that wait for an edge's credit, in order (the node's own place in `level` and `node`). -/
  outq : List Hold
  /-- Credits used toward a rank: key ((4 i + g) * 2^14 + rank) * 16 + level. -/
  used : Sparse Nat
  /-- Credits to return to a rank: key (4 i + g) * 2^14 + rank. -/
  pend : Sparse Nat
  /-- Keys of the messages of the current step already taken (R359). -/
  seen : List (List Nat)
  /-- The early buffer (R366): port, message, credits that came with it. -/
  early : List (Nat × Msg × Nat)
  /-- Marks on their way from cores. -/
  marks : List Mark
  /-- Journal fill of a flask's current half, in bytes (R410); past the half once a record did not fit. -/
  jpos : Sparse Nat
  deriving DecidableEq, Repr

/-- A sequence context's round (R373, R374): running, ROUND, its flask, the entry's six words, blocks sent, ring credits
toward NEXT, lines received as (T, LINE), RFREEs counted by key 4096 block + core, blocks whose buffer became free, ring
credits taken by their T. -/
structure RingSt where
  run : Bool
  round : Nat
  flask : Nat
  ent : List Nat
  sent : Nat
  cred : Nat
  got : List (Nat × Nat)
  frees : Sparse Nat
  freed : List Nat
  rcrd : List Nat
  deriving DecidableEq, Repr

/-- A part being sent to its peer (R378): queue, part, SEQN, writes not yet completed. -/
structure QSend where
  q : Nat
  part : Nat
  seqn : Nat
  ids : List Nat
  deriving DecidableEq, Repr

/-- The runner-ring engines, beside their registers. -/
structure Runner where
  ctx : Sparse (Option RingSt)
  /-- QPUTs and QTAKEs made so far, credits returned: key 4096 * queue + part. -/
  puts : Sparse Nat
  takes : Sparse Nat
  back : Sparse Nat
  /-- QRDY received: queue, part, SEQN. QCRD taken, in the same form. -/
  ready : List (Nat × Nat × Nat)
  creds : List (Nat × Nat × Nat)
  sends : List QSend
  deriving DecidableEq, Repr

/-! ### The vote -/

/-- A vote record (R396). -/
structure VRec where
  flags : Nat
  count : Nat
  ovf : Nat
  nf : Nat
  seen : Nat
  max : List Nat
  deriving DecidableEq, Repr

/-- A vote binding in a step (R391 to R400): the step, whether it was voted under this binding before, sealed with the
report as read, the bound WAIT of the term (R421), FLK_SREP.BASE of the seal (R423) and LDL_RBUD.PORTS of
the copy, the riser copy (0 none, 1 running, 2 complete, 3 failed) with its writes outstanding, the replay (0 none,
1 asked, 2 equal, 3 differ, 4 none in time), a bound that passed, the term, the children received and the nodes
finished, the decision. -/
structure VoteSt where
  step : Nat
  sealed : Bool
  rep : List Byte
  repP : Bool
  wait : Nat
  base : Nat
  ports : Nat
  riser : Nat
  ids : List Nat
  replay : Nat
  late : Bool
  term : Option VRec
  kids : List (Nat × Nat × VRec)
  expired : List Nat
  nodes : List Nat
  seen : List (List Nat)
  dec : Option VRec
  deriving DecidableEq, Repr


/-! ### Work queues and contexts -/

/-- A descriptor the queue engine has taken (R438 to R443): its index, the eight words as read, the reads made while SEQ
did not match (0 once it did), whether it is dispatched, the cores that have not answered its launch (for a SAVE or RESTORE: not yet
done), and those that accepted and that rejected. -/
structure Desc where
  idx : Nat
  words : List Nat
  tries : Nat
  disp : Bool
  todo : List Nat
  acc : List Nat
  rej : List Nat
  deriving DecidableEq, Repr

/-- A completion record but for its PHASE (R445), and IRQ. -/
structure QRec where
  w0 : Nat
  w1 : Nat
  w2 : Nat
  w3 : Nat
  irq : Bool
  deriving DecidableEq, Repr

/-- A flask's queue in the engine: the descriptor in hand, dispatched launches whose groups run, the record store, and
records written since vector 1 was last raised (R446). -/
structure QueueSt where
  hand : Option Desc
  prog : List Desc
  held : List QRec
  since : Nat
  /-- An LD reset started or joined the shake-out in progress (R451). -/
  ldr : Bool
  /-- Cores quarantined since the shake-out in progress began: it completes without them (R502). -/
  away : List Nat
  deriving DecidableEq, Repr

/-- An empty queue. -/
def QueueSt.init : QueueSt := { hand := none, prog := [], held := [], since := 0, ldr := false, away := [] }

/-- A context slot that holds a save (R300, R452), and whether it has been restored since: the groups, the launch's registers and slice size, the local-store
part and its poison by offset, planes, edge file, and range-counter registers. -/
structure Saved where
  back : Bool
  groups : List Group
  split : Nat
  shape : Nat
  ewin : Nat
  lpg : Nat
  ls : List Host.Cell
  lsP : List Nat
  planes : List Plane
  edge : Sparse Wide
  edgeP : List Nat
  rc : Sparse Word64
  deriving DecidableEq, Repr

/-! ### Boot, pins, management -/

/-- A CXL.mem request or a Clear Poison that needs DRAM while no rota runs (R496), held until the rotas restart: `kind` 0 a read,
1 a write, 2 a Clear Poison. -/
structure CxlHeld where
  kind : Nat
  ld : Nat
  dpa : Nat
  data : List Byte
  mask : BitVec 64
  pois : Bool
  deriving DecidableEq, Repr

/-- Boot under way (R468): the ac at which it began, the serial stage last completed, stage 6 done, the candidate slots still to be tried (the one being
tried first), whether one has failed, whether one was verified, the cores that failed their test, the hash of the signed
message last read. -/
structure Boot where
  start : Nat
  at' : Nat
  six : Bool
  cands : List Nat
  fell : Bool
  verified : Bool
  failed : List Nat
  hash : BitVec 256
  deriving DecidableEq, Repr

/-- Boot not begun. -/
def Boot.init : Boot :=
  { start := 0, at' := 0, six := false, cands := [], fell := false, verified := false, failed := [], hash := 0 }

/-- Supplies, reset conditions and pins (R484, R511 to R516, R520 to R523): the always-on domain is supplied; power-on reset is
asserted; the power-on count runs; the input event in progress (0 none, 1 UV, 2 OV, 3 OC); the input switch is held open;
rails cut by a hardware shutdown; the module reset in force (0 none, else RST_CAUSE.KIND); MRST_N is low; THERMTRIP_N, FAULT_N
low; MOD_READY released; LEAK_N low. -/
structure Pins where
  alive : Bool
  por : Bool
  rising : Bool
  event : Nat
  swOpen : Bool
  cut : Bool
  mrst : Nat
  mrstLow : Bool
  thermtrip : Bool
  faultLow : Bool
  ready : Bool
  leakLow : Bool
  deriving DecidableEq, Repr

/-- An open attestation session (R475, R538): its keys, the next SEQ of each direction, the hash its AUTH signs, whether it is
authorised, the AUTH signature under check, and where it came from. -/
structure Sess where
  k1 : BitVec 256
  k2 : BitVec 256
  rx : Nat
  tx : Nat
  hash : BitVec 256
  auth : Bool
  check : Option MgtMsg
  peer : Peer
  deriving DecidableEq, Repr

/-- A message in reassembly (R536): sender, MID, NFRAG, the fragments received. -/
structure Frags where
  src : Peer
  mid : Nat
  nfrag : Nat
  got : List (Nat × List Byte)
  deriving DecidableEq, Repr

/-- A job install (R477): its message, whether its checks have passed, the next record, the count applied, the first
skipped. -/
structure Install where
  msg : MgtMsg
  ok : Bool
  next : Nat
  applied : Nat
  skipped : Option Nat
  deriving DecidableEq, Repr

/-- The management controller beside its registers. -/
structure Mgmt where
  /-- SPI NOR bytes; an erased byte reads 0xFF (R460). -/
  nor : Sparse Byte
  /-- Header bytes of the booted image (R481). -/
  hdr : List Byte
  boot : Boot
  sess : Sparse (Option Sess)
  frags : List Frags
  /-- Whole messages waiting, in order of their last byte (R539). -/
  inbox : List MgtMsg
  /-- Messages that wait for an identity signature (R475). -/
  signing : List MgtMsg
  /-- Next identity signature index of the reserved block, and indices left in it (R472). -/
  sigIdx : Nat
  sigLeft : Nat
  installs : List Install
  /-- Image transfer (R540): the owning session, the slot, bytes 0 to 3 as held. -/
  xfer : Option (Nat × Nat × List Byte)
  i3cAddr : Option Nat
  /-- Writes and commands refused (R543): a count of the model's own, by which an install knows that a write was refused. -/
  refused : Nat
  deriving DecidableEq, Repr

/-- Power control (R498): the terms AUTO, THERM and DHOT, die temperatures of the last window, whether an exit from standby is
under way (R496), and for each waking cluster the ac until its clock runs (R487, R489). -/
structure Pwr where
  auto : Nat
  therm : Nat
  dhot : Nat
  temps : List Nat
  leaving : Bool
  lock : Sparse Nat
  deriving DecidableEq, Repr

/-! ### The module -/

/-- The state of the module. -/
structure State where
  /-- Commands that wait, first in, first out. -/
  pending : List Instr
  /-- Every register with a value of its own, by `Reg.key`; an unlisted one holds its reset value. -/
  regs : Sparse Word64
  /-- Bytes by physical offset (R36): DRAM and, at their apertures, the local stores. -/
  mem : List Host.Cell
  /-- Poison: DRAM lines (offset div 128) and local-store words (offset div 4), R194. -/
  pois : List Nat
  /-- The non-firmware image sections, as PAT_SEC holds them (R464, R481). -/
  pat : Sparse Byte
  cores : Sparse Core
  m : Mem
  fab : Fabric
  /-- Requests in flight to their point of coherence, and what came back. -/
  reqs : List Req
  resps : List Resp
  notices : List Notice
  records : List Record
  /-- Event logs of each LD: key 4 * LD + log (0 informational, 2 failure); the record numbers (R434, R547). -/
  ldlog : Sparse (List Nat)
  /-- MSI-X: vector entries (key 4 * LD + vector; bit 96 masks), LDs with MSI-X enabled, pending bits (R446). -/
  msix : Sparse (BitVec 128)
  msixEn : List Nat
  pba : List Nat
  /-- Event interrupt policy of each LD (R434). -/
  policy : Sparse Nat
  /-- Configuration space of each LD as its host wrote it (R451, R469): key 4096 * LD + offset. -/
  cfg : Sparse Word32
  /-- Component and device register blocks of each LD's BAR as its host wrote them (R432, R425: the HDM decoder of the LD is among
  them): key 2^18 * LD + BAR offset. -/
  bar : Sparse Byte
  /-- Host requests held while no rota runs (R496), oldest first. -/
  cxlHeld : List CxlHeld
  /-- What the connectors showed, latest first. -/
  out : List Out
  nextId : Nat
  /-- Crossings that have failed, by number (R32, R505). -/
  down : List Nat
  /-- Counter of the free values used (a field of the model, not of the manual; log entry 3). -/
  freeCtr : Nat
  /-- ac since power-on reset (R542). -/
  acnt : Nat
  ladle : Ladle
  runner : Runner
  /-- Valid vote bindings (R383). -/
  vote : Sparse (Option VoteSt)
  /-- Work queues by flask (R437 to R446), and context slots by key 4096 * flask + core (R452). -/
  queue : Sparse QueueSt
  saved : Sparse (Option Saved)
  /-- Cores whose strike quarantine is to take effect (R409). -/
  quarDue : List Nat
  /-- Module standby is entered or under way (R495). -/
  stby : Bool
  pins : Pins
  mgt : Mgmt
  pwr : Pwr
  deriving DecidableEq, Repr

/-- The state right after power-on reset (R15). -/
def State.reset : State :=
  { pending := [], regs := [], mem := [], pois := [], pat := [], cores := [],
    m := { llc := [], lru := [], miss := [], plist := [], bank := [], arriving := [], scrubq := [], patq := [],
           dpois := [], derr := [], lerr := [], eerr := [], cerr := [], serr := [], restore := [], selfref := [], slot := [], hot := [] },
    fab := { ports := List.replicate 16 Port.init, seq := [], outs := [], floorDue := [], base := [], seen := [],
             floorIn := [], store := [], land := [], slots := [], gens := [] },
    reqs := [], resps := [], notices := [], records := [], ldlog := [], msix := [], msixEn := [], pba := [], policy := [], cfg := [], bar := [], cxlHeld := [], out := [], nextId := 0, down := [], freeCtr := 0, acnt := 0, stby := false,
    ladle := { layers := [], hold := [], outq := [], used := [], pend := [], seen := [], early := [], marks := [],
               jpos := [] },
    runner := { ctx := [], puts := [], takes := [], back := [], ready := [], creds := [], sends := [] }, vote := [], queue := [], saved := [], quarDue := [],
    pins := { alive := true, por := true, rising := true, event := 0, swOpen := false, cut := false, mrst := 0, mrstLow := false,
              thermtrip := false, faultLow := false, ready := false, leakLow := false },
    mgt := { nor := [], hdr := [], boot := Boot.init, sess := [], frags := [], inbox := [], signing := [], sigIdx := 0,
             sigLeft := 0, installs := [], xfer := none, i3cAddr := none, refused := 0 },
    pwr := { auto := 0, therm := 0, dhot := 0, temps := [], leaving := false, lock := [] } }

end Sys2Proof.Machine
end

