-- ==== Sys2Proof/Machine/Ops.lean ====
section
/-! DEFINITION. The named operations over the registers, the pattern image, memory and its poison, the error records,
the notices and the cores. Every meaning is written over these. -/

namespace Sys2Proof.Machine

/-! ### Registers -/

/-- The value register `r`, instance `i`, entry `j` holds. -/
def State.rd (s : State) (r : Reg) (i j : Nat) : Word64 := Sparse.get r.resetVal s.regs (r.key i j)

/-- The state with a register holding `v`. -/
def State.wr (s : State) (r : Reg) (i j : Nat) (v : Word64) : State :=
  { s with regs := Sparse.set r.resetVal s.regs (r.key i j) v }

/-- A register as a number. -/
def State.rn (s : State) (r : Reg) (i j : Nat) : Nat := (s.rd r i j).toNat

/-- A register set to the low 64 bits of a number. -/
def State.wn (s : State) (r : Reg) (i j v : Nat) : State := s.wr r i j (BitVec.ofNat 64 v)

/-- Field `[hi:lo]` of a register. -/
def State.rf (s : State) (r : Reg) (i j hi lo : Nat) : Nat := fld (s.rn r i j) hi lo

/-- A register with field `[hi:lo]` set. -/
def State.wf (s : State) (r : Reg) (i j hi lo v : Nat) : State := s.wn r i j (setFld (s.rn r i j) hi lo v)

/-- A counter raised by `n`, saturating at `2^w - 1` (R71, R159). -/
def State.addSat (s : State) (r : Reg) (i j w n : Nat) : State := s.wn r i j (sat (2 ^ w - 1) (s.rn r i j + n))

/-- A counter raised by `n`, modulo 2^64 (R121, R160). -/
def State.addWrap (s : State) (r : Reg) (i j n : Nat) : State := s.wr r i j (s.rd r i j + BitVec.ofNat 64 n)

/-- A field counter raised by `n`, saturating (R120, R243). -/
def State.addFld (s : State) (r : Reg) (i j hi lo n : Nat) : State :=
  s.wf r i j hi lo (sat (2 ^ (hi + 1 - lo) - 1) (s.rf r i j hi lo + n))

/-- A free boolean (R21; log entry 3). -/
def State.freeB (s : State) : Bool × State := (Config.freeBool s.freeCtr, { s with freeCtr := s.freeCtr + 1 })

/-- `n` free bits (R21; log entry 3). -/
def State.freeN (s : State) (n : Nat) : Nat × State :=
  ((Config.freeBits n s.freeCtr).toNat, { s with freeCtr := s.freeCtr + 1 })

/-- Boot has ended (R468, R480), and no input event or hardware shutdown has cut the rails since (R515, R531). -/
def State.booted (s : State) : Bool := s.rf .BOOT 0 0 6 6 = 1 && s.pins.event = 0 && !s.pins.cut

/-! ### The pattern image (R464 to R466) -/

/-- Byte `o` of the non-firmware sections. -/
def State.patB (s : State) (o : Nat) : Nat := (Sparse.get 0 s.pat o).toNat

/-- The little-endian number in bytes `o` to `o + n - 1` of the sections. -/
def State.patLe (s : State) (o : Nat) : Nat → Nat
  | 0 => 0
  | n + 1 => s.patB o + 256 * s.patLe (o + 1) n

/-- Content offset and length of the section of a type, walking the headers from `o`. -/
def State.secGo (s : State) (ty : Nat) : Nat → Nat → Nat × Nat
  | 0, _ => (0, 0)
  | n + 1, o =>
    if s.patLe o 2 = ty then (o + 8, s.patLe (o + 4) 4)
    else s.secGo ty n (o + 8 + roundUp (s.patLe (o + 4) 4) 8)

/-- Content offset and length of the section of a type (R464). -/
def State.sec (s : State) (ty : Nat) : Nat × Nat := s.secGo ty 8 0

/-- Number of flasks NF: the FLASK section holds one 2 KiB record each. -/
def State.nf (s : State) : Nat := (s.sec 3).2 / 2048

/-- A field of flask `f`'s record (R466): `n` bytes at `o`. -/
def State.flk (s : State) (f o n : Nat) : Nat := if f < s.nf then s.patLe ((s.sec 3).1 + f * 2048 + o) n else 0

/-- The flask is a guest. -/
def State.isGuest (s : State) (f : Nat) : Bool := bit (s.flk f 0 8) 0 = 1

/-- The flask may read host flask `h`'s parameter views (R419). -/
def State.mayRead (s : State) (f h : Nat) : Bool := bit (s.flk f 0 8) (16 + h) = 1

/-- Memory window `w` of a flask: base, bytes, and the permissions R, W, A in bits 0 to 2. -/
def State.window (s : State) (f w : Nat) : Nat × Nat × Nat :=
  let a := s.flk f (0x100 + w * 16) 8
  (fld a 35 0 * 4096, fld (s.flk f (0x108 + w * 16) 8) 35 0 * 4096, fld a 62 60)

/-- Number of memory windows. -/
def State.nwin (s : State) (f : Nat) : Nat := fld (s.flk f 0 8) 37 32

/-- The core map of a flask holds core `g`. -/
def State.inMap (s : State) (f g : Nat) : Bool := bit (s.flk f (0x400 + g / 8) 1) (g % 8) = 1

/-- Region record `r` (R465). -/
def State.region (s : State) (r : Nat) : Nat :=
  if 8 * r + 8 ≤ (s.sec 4).2 then s.patLe ((s.sec 4).1 + 8 * r) 8 else 0

/-- CORE byte of core `g`: its GRES code and its guest flask. -/
def State.coreRec (s : State) (g : Nat) : Nat := if g < (s.sec 5).2 then s.patB ((s.sec 5).1 + g) else 0

/-- The guest flask of core `g`. -/
def State.guestOf (s : State) (g : Nat) : Nat := fld (s.coreRec g) 5 2

/-! ### Address map (R36 to R38, R202 to R206) -/

/-- End of the DRAM range. -/
def dramEnd : Nat := 0x300_0000_0000
/-- Base of the apertures. -/
def apBase : Nat := 0xF000_0000_0000
/-- Base of core `g`'s aperture (R38). -/
def aper (g : Nat) : Nat := apBase + g * 0x10_0000
/-- The core whose aperture holds an offset. -/
def aperOf (off : Nat) : Option Nat :=
  if apBase ≤ off ∧ off < apBase + 0x1_0000_0000 then some ((off - apBase) / 0x10_0000) else none
/-- Region of a DRAM offset (R202). -/
def regionOf (off : Nat) : Nat := off / 2 ^ 30

/-- Channel and line index λ of a DRAM offset under an interleave mode (R202, R203, R205). -/
def place (mode off : Nat) : Nat × Nat :=
  let r := off / 2 ^ 30
  let o := off % 2 ^ 30
  let grp := r % 3
  let blk := r / 3
  let el : Nat × Nat :=
    if mode = 3 then (blk % 128, blk / 128 * 2 ^ 30 + o)
    else if mode = 1 then
      let q := o / 4096
      (q % 128, blk * 2 ^ 23 + q / 128 * 4096 + o % 4096)
    else
      let q := o / 256
      let y := q / 128
      let h := (y % 128) ^^^ (y / 128 % 128) ^^^ (y / 2 ^ 14)
      ((if mode = 2 then (q % 128) ^^^ h else q % 128), blk * 2 ^ 23 + y * 256 + o % 256)
  (48 * (el.1 % 8) + 3 * (el.1 / 8) + grp, el.2 / 128)

/-- Channel and λ of a DRAM line (offset div 128) under its region's mode. -/
def State.chan (s : State) (line : Nat) : Nat × Nat :=
  place (fld (s.region (regionOf (line * 128))) 6 5) (line * 128)

/-- Home die of a DRAM line. -/
def State.home (s : State) (line : Nat) : Nat := (s.chan line).1 / 48

/-- LLC set of a DRAM line (R206). -/
def State.llcSet (s : State) (line : Nat) : Nat :=
  let c := s.chan line
  (c.2 % 2 ^ 17) ^^^ ((c.1 % 48) * 2 ^ 11)

/-- Where the home serves an offset from (R385): the partner region when the pair's flask has SEL = 1. -/
def State.view (s : State) (off : Nat) : Nat :=
  if off < dramEnd then
    let rec' := s.region (regionOf off)
    if bit rec' 10 = 1 ∧ s.rf .SHADOW (fld rec' 3 0) 0 0 0 = 1 then fld rec' 22 11 * 2 ^ 30 + off % 2 ^ 30 else off
  else off

/-- The offset lies in a parameter view: the pair's region of lower index (R385, R465). -/
def State.isParam (s : State) (off : Nat) : Bool :=
  off < dramEnd && bit (s.region (regionOf off)) 10 = 1 && regionOf off < fld (s.region (regionOf off)) 22 11

/-- The offset lies in an update view. -/
def State.isUpdate (s : State) (off : Nat) : Bool :=
  off < dramEnd && bit (s.region (regionOf off)) 10 = 1 && !(s.isParam off)

/-! ### Cores -/

/-- Core `g`. -/
def State.core (s : State) (g : Nat) : Core := Sparse.get Core.init s.cores g

/-- The state with core `g` replaced. -/
def State.setCore (s : State) (g : Nat) (c : Core) : State := { s with cores := Sparse.set Core.init s.cores g c }

/-- The state with core `g` changed. -/
def State.modCore (s : State) (g : Nat) (f : Core → Core) : State := s.setCore g (f (s.core g))

/-- Stream numbers F 0, B 1, U 2, G 3. -/
def streamNum : Stream → Nat
  | .f => 0
  | .b => 1
  | .u => 2
  | .g => 3

/-- The stream is the guest's. -/
def isG : Stream → Bool
  | .g => true
  | _ => false

/-- A group of the core by its index: host groups and guest groups are numbered apart (R128, R129). -/
def Group.is (x : Who) (gr : Group) : Bool := gr.strm = x.strm && gr.q = x.grp

/-- The group of a core. -/
def Core.group (c : Core) (x : Who) : Option Group := c.groups.find? (Group.is x)

/-- The resident group `x` names. -/
def State.group (s : State) (x : Who) : Option Group := (s.core x.core).group x

/-- The state with group `x` changed. -/
def State.modGroup (s : State) (x : Who) (f : Group → Group) : State :=
  s.modCore x.core fun c => { c with groups := c.groups.map fun gr => if Group.is x gr then f gr else gr }

/-- Bytes of local store, of the guest reserve, of the host's part (R125). -/
def State.lsSize (s : State) (g : Nat) : Nat := (4 - s.rf .SPLIT g 0 1 0) * 0x2_0000
/-- Bytes of the guest reserve. -/
def State.gres (s : State) (g : Nat) : Nat := s.rf .SPLIT g 0 3 2 * 0x8000
/-- Bytes of the host local store. -/
def State.hostLs (s : State) (g : Nat) : Nat := s.lsSize g - s.gres g
/-- Bytes of the core cache (R125). -/
def State.ccSize (s : State) (g : Nat) : Nat := s.rf .SPLIT g 0 1 0 * 0x2_0000

/-- First offset and end of the local store a stream's flask has mapped on a core (R125). -/
def State.mapped (s : State) (g : Nat) (guest : Bool) : Nat × Nat :=
  if guest then (s.hostLs g, s.lsSize g) else (0, s.hostLs g)

/-- Local-store bytes `[a, a + n)` lie in the part of the stream's flask. -/
def State.lsOk (s : State) (g : Nat) (guest : Bool) (a n : Nat) : Bool :=
  (s.mapped g guest).1 ≤ a && a + n ≤ (s.mapped g guest).2

/-- The flask a stream of a core works for. -/
def State.flaskOf (s : State) (x : Who) : Nat :=
  if (isG x.strm) then s.guestOf x.core else (s.core x.core).hflask

/-! ### Access checks (R39, R386, R419) -/

/-- Permissions: R 0, W 1, A 2 (bits of `window`). -/
abbrev Perm := Nat

/-- The region of a DRAM offset is read-only to every flask (R465): its OWNER gains no write access. -/
def State.shared (s : State) (off : Nat) : Bool := bit (s.region (regionOf off)) 9 = 1

/-- A flask's windows allow an access of `n` bytes at a module offset. -/
def State.allowed (s : State) (f : Nat) (p : Perm) (off n : Nat) : Bool :=
  if off + n ≤ dramEnd then
    ((List.range (s.nwin f)).any fun w =>
      let b := s.window f w
      b.1 ≤ off && off + n ≤ b.1 + b.2.1 && bit b.2.2 p = 1)
    && (p = 0 || !(s.isParam off) && !(s.shared off) && !(s.shared (off + n - 1)))
    && (!(s.isParam off) || fld (s.region (regionOf off)) 3 0 = f || bit (s.region (regionOf off)) 9 = 1
        || s.mayRead f (fld (s.region (regionOf off)) 3 0))
  else
    match aperOf off with
    | none => false
    | some g =>
      let o := off - aper g
      s.inMap f g && s.lsOk g (s.isGuest f) o n && o + n ≤ 0x10_0000

/-- An aperture whose cluster has its PWR_COLD bit set (R494), reached from outside its core: `me` is the core the access
comes from. -/
def State.coldAp (s : State) (me : Option Nat) (off : Nat) : Bool :=
  match aperOf off with
  | some g => me ≠ some g && bit (s.rn .COLD 0 0) (g / 64) = 1
  | none => false

/-- An access of `n` bytes at a module offset passes R39 and R494. -/
def State.reach (s : State) (me : Option Nat) (f : Nat) (p : Perm) (off n : Nat) : Bool :=
  s.allowed f p off n && !(s.coldAp me off)

/-- The flask's active job entry is valid (R348). -/
def State.jobOk (s : State) (f : Nat) : Bool := s.rf .JACT f 0 31 31 = 1

/-- An address of R179 raises an address fault for an access of `n` bytes by flask `f`, from core `me` or an engine. -/
def State.addrBad (s : State) (me : Option Nat) (f : Nat) (p : Perm) (a n : Nat) : Bool :=
  bit a 62 = 1 || (bit a 63 = 0 && fld a 61 48 ≠ 0) || a % n ≠ 0
  || (if bit a 63 = 1 then !(s.jobOk f) else !(s.reach me f p (fld a 47 0) n))

/-! ### Memory -/

/-- The byte at a physical offset; memory nothing has written reads as zero (R468; log entry 5). -/
def State.byte (s : State) (a : Nat) : Byte := Sparse.get 0 s.mem a

/-- Bytes `a` to `a + n - 1`. -/
def State.bytes (s : State) (a n : Nat) : List Byte := (List.range n).map fun i => s.byte (a + i)

/-- The little-endian number in `n` bytes at `a`. -/
def State.le (s : State) (a n : Nat) : Nat := leNat (s.bytes a n)

/-- Write bytes from `a` where the mask (empty: everywhere) selects them. -/
def putBytes (m : List Host.Cell) (a : Nat) (mask : List Bool) : List Byte → List Host.Cell
  | [] => m
  | b :: bs =>
    putBytes (if mask.headD true then Sparse.set 0 m a b else m) (a + 1) mask.tail bs

/-- The state with bytes written. -/
def State.put (s : State) (a : Nat) (mask : List Bool) (bs : List Byte) : State :=
  { s with mem := putBytes s.mem a mask bs }

/-- Poison granule of an offset (R194): the DRAM line, or the local-store word. -/
def granule (a : Nat) : Nat := if a < dramEnd then a / 128 else a / 4

/-- The granules `n` bytes at `a` touch. -/
def granules (a n : Nat) : List Nat :=
  if n = 0 then []
  else if a < dramEnd then (List.range ((a + n - 1) / 128 - a / 128 + 1)).map (a / 128 + ·)
  else (List.range ((a + n - 1) / 4 - a / 4 + 1)).map (a / 4 + ·)

/-- Any of `n` bytes at `a` is poisoned. -/
def State.poisoned (s : State) (a n : Nat) : Bool := (granules a n).any fun i => NSet.has s.pois i

/-- Poison every granule `n` bytes at `a` touch. -/
def State.poison (s : State) (a n : Nat) : State :=
  { s with pois := (granules a n).foldl (fun p i => NSet.add i p) s.pois }

/-- The whole granule lies in `[a, a + n)`. -/
def wholeGranule (a n i : Nat) : Bool :=
  if a < dramEnd then a ≤ 128 * i && 128 * i + 128 ≤ a + n else a ≤ 4 * i && 4 * i + 4 ≤ a + n

/-- An unpoisoned write clears the poison of every granule it writes whole (R195, R210). -/
def State.clean (s : State) (a n : Nat) (mask : List Bool) : State :=
  let sel (i : Nat) : Bool :=
    wholeGranule a n i &&
      (mask.isEmpty ||
        (let b := if a < dramEnd then 128 * i - a else 4 * i - a
         let w := if a < dramEnd then 128 else 4
         (List.range w).all fun k => mask.getD (b + k) false))
  { s with pois := s.pois.filter fun i => !(((granules a n).contains i) && sel i) }

/-! ### Local-store outputs on their way (R186, R190) -/

/-- Ports of the matrix array: row 0, serial 1, drain 2. -/
def MOp.port : MOp → Nat
  | .load .. => 0
  | .stream .. => 1
  | .drain .. => 2

/-- Local-store ranges a drain writes (R101): offset and length. -/
def drainOuts (m nw dfmt db dsb drs : Nat) : List (Nat × Nat) :=
  (List.range m).flatMap fun r =>
    if isBs dfmt then
      (List.range ((nw + 31) / 32)).flatMap fun b =>
        [(db + (r * drs + b) * (4 * dfmt), 4 * dfmt), (dsb + r * drs + b, 1)]
    else
      let z := if dfmt = 0x14 then 16 else 4
      [(db + r * drs * z, nw * z)]

/-- The ranges an operation writes. -/
def MOp.outs : MOp → List (Nat × Nat)
  | .drain _ m _ _ nw dfmt _ _ _ _ db dsb _ drs _ _ _ _ _ _ _ _ => drainOuts m nw dfmt db dsb drs
  | _ => []

/-- An offset lies in one of some ranges. -/
def inRanges (l : List (Nat × Nat)) (o : Nat) : Bool := l.any fun r => r.1 ≤ o && o < r.1 + r.2

/-- No output of the core is on its way to its local store: no drain is queued, and no CASTS or CASTM was issued in this ac. -/
def Core.calm (c : Core) : Bool := c.fresh.isEmpty && c.mq.all fun q => q.op.port ≠ 2

/-- A read of the offset is unpredictable (R186, R190): an output on its way lands there. -/
def Core.unsure (c : Core) (o : Nat) : Bool := inRanges c.fresh o || c.mq.any fun q => inRanges q.op.outs o

/-- `n` bytes of core `g`'s local store at offset `o` as an instruction reads them: a byte that an output on its way lands
in is free (R21, R186, R190; log entries 3 and 67). -/
def State.lsBytes (s : State) (g o n : Nat) : List Byte × State :=
  if (s.core g).calm then (s.bytes (aper g + o) n, s)
  else (List.range n).foldl (fun r i =>
    if (s.core g).unsure (o + i) then
      let b := r.2.freeN 8
      (r.1 ++ [BitVec.ofNat 8 b.1], b.2)
    else (r.1 ++ [s.byte (aper g + o + i)], r.2)) ([], s)

/-- Bytes at a physical offset as a reader sees them: in a local store by `lsBytes`. -/
def State.seen (s : State) (a n : Nat) : List Byte × State :=
  match aperOf a with
  | some g => s.lsBytes g (a - aper g) n
  | none => (s.bytes a n, s)

/-! ### Error records (R542 to R546) -/

/-- Keep a record in the ring of 4,096: a full ring loses its oldest record below FATAL, or the new one. -/
def State.keep (s : State) (r : Record) : State :=
  if s.records.length < 4096 then { s with records := s.records ++ [r] }
  else
    match firstIdx (fun (x : Record) => x.cls ≠ 4) s.records with
    | some i => { s with records := dropAt i s.records ++ [r] }
    | none => s.addSat .RDROP 0 0 32 1

/-- Raise MSI-X vector `v` of LD `ld` (R446): sent when enabled and not masked, else pending. -/
def State.raiseVec (s : State) (ld v : Nat) : State :=
  let e := Sparse.get (1#128 <<< 96) s.msix (4 * ld + v)
  if NSet.has s.msixEn ld && fld e.toNat 96 96 = 0 then { s with out := .msix ld v :: s.out }
  else { s with pba := NSet.add (4 * ld + v) s.pba }

/-- A record that names flask `f` enters LD `f`'s log, and vector 0 is raised where the event interrupt policy
asks for it (R434, R446, R547). -/
def State.logTo (s : State) (f cls rseq : Nat) : State :=
  let log := if cls ≥ 3 then 2 else 0
  let s := { s with ldlog := Sparse.set [] s.ldlog (4 * f + log) (Sparse.get [] s.ldlog (4 * f + log) ++ [rseq]) }
  if bit (Sparse.get 0 s.policy f) log = 1 then s.raiseVec f 0 else s

/-- Make an error record: class, code, source block, instance, flask, DETAIL (R542, R543). -/
def State.record (s : State) (cls code src inst : Nat) (flask : Option Nat) (d0 d1 d2 : Nat) : State :=
  let n := s.rn .RSEQ 0 0
  let node := s.rn .NODE 0 0
  let r : Record :=
    { rseq := n, cls := cls, boot := s.rn .BOOTNUM 0 0, slot := s.rf .PINS 0 0 28 24,
      node := fld node 13 0 + bit node 31 * 2 ^ 15, acnt := s.acnt, code := code, src := src, flask := flask,
      inst := inst, d0 := d0, d1 := d1, d2 := d2, acked := false, sent := if s.rf .NET 0 0 48 48 = 1 then 1 else 0,
      i3c := false }
  let s := if s.rf .NET 0 0 48 48 = 1 then { s with out := .record n :: s.out } else s
  let s := (s.keep r).wn .RSEQ 0 0 ((n + 1) % 2 ^ 32)
  match flask with
  | some f => s.logTo f cls n
  | none => s

/-- A corrected-error counter raised by one, with its CORR record at each multiple of CTHRESH (R544). -/
def State.corr (s : State) (r : Reg) (i j src inst kind : Nat) : State :=
  let n := s.rn r i j
  let s := s.addSat r i j 32 1
  let th := s.rf .ERRCTL 0 0 15 0
  let n' := s.rn r i j
  if n' ≠ n ∧ th ≠ 0 ∧ n' % th = 0 then s.record 1 0x0050 src inst none n' kind 0 else s

/-- The block of a register offset (R42), as SRC numbers it, its instance, and its flask where the block is a flask's. -/
def blockOf (off : Nat) : Nat × Nat × Option Nat :=
  if off < 0x10_0000 then (0, 0, none)
  else if off < 0x20_0000 then (1, 0, none)
  else if off < 0x70_0000 then (off / 0x10_0000 + 8, 0, none)
  else if off < 0x100_0000 then (0, 0, none)
  else if off < 0x110_0000 then (2, off / 0x1_0000 % 16, some (off / 0x1_0000 % 16))
  else if off < 0x200_0000 then (0, 0, none)
  else if off < 0x210_0000 then (7, off / 0x1_0000 % 16, none)
  else if off < 0x300_0000 then (0, 0, none)
  else if off < 0x320_0000 then (8, off / 0x10_0000 % 2, none)
  else if off < 0x340_0000 then (9, off / 0x10_0000 % 2, none)
  else if off < 0x400_0000 then (0, 0, none)
  else if off < 0x480_0000 then (5, off / 0x10_0000 % 8, none)
  else if off < 0x800_0000 then (0, 0, none)
  else if off < 0x800_0000 + 384 * 0x1000 then (6, off % 0x800_0000 / 0x1000, none)
  else if off < 0x1000_0000 then (0, 0, none)
  else if off < 0x5000_0000 then
    let k := (off - 0x1000_0000) / 0x100_0000
    let d := (off - 0x1000_0000) % 0x100_0000
    if 0x80_0000 ≤ d ∧ d < 0xC0_0000 then (4, 64 * k + (d - 0x80_0000) / 0x1_0000, none) else (3, k, none)
  else (0, 0, none)

/-- A refused register write is logged, from the block of its offset (R12, R542, R543; log entry 41). -/
def State.refuse (s : State) (off v : Nat) : State :=
  let s := { s with mgt := { s.mgt with refused := s.mgt.refused + 1 } }
  s.record 3 0x0040 (blockOf off).1 (blockOf off).2.1 (blockOf off).2.2 off v 0

/-- A refused command or image is logged (R543). -/
def State.refuseCmd (s : State) (code why : Nat) : State :=
  State.record { s with mgt := { s.mgt with refused := s.mgt.refused + 1 } } 3 0x0041 0 0 none code why 0

/-! ### Notices -/

/-- Put a notice in flight. -/
def State.notify (s : State) (n : Notice) : State := { s with notices := s.notices ++ [n] }

/-- A step event of a flask (R388): 0 POIS, 1 FAULT, 2 NODE, 3 QUAR, 4 SEAL, 5 JFULL. -/
def State.stepEvent (s : State) (f flag : Nat) : State := s.notify (.stepEv f flag)

/-- POIS when a poisoned value was read (R22, R388). -/
def State.poisEvent (s : State) (f : Nat) (p : Bool) : State := if p then s.stepEvent f 0 else s

/-! ### Local store with its code (R195) -/

/-- The host flask a core's storage belongs to: the one that holds it now, else one whose core map names it. -/
def State.coreHost (s : State) (g : Nat) : Option Nat :=
  let is (f : Nat) : Bool := f < s.nf && !(s.isGuest f) && s.inMap f g
  if is (s.core g).hflask then some (s.core g).hflask else (List.range 16).find? is

/-- The flask that the record of an error in a local store names: the guest flask in the guest reserve, else the host flask
(R434, R542; log entry 41). -/
def State.lsFlask (s : State) (g o : Nat) : Option Nat :=
  if s.hostLs g ≤ o then some (s.guestOf g) else s.coreHost g

/-- Read word `w` (offset div 4) of a local store: a single-bit error is corrected and counted, a double-bit error
poisons the word and is recorded. -/
def State.scrubWord (s : State) (w : Nat) : State :=
  match Sparse.get 0 s.m.lerr w with
  | 0 => s
  | e =>
    let g := (4 * w - apBase) / 0x10_0000
    let s := { s with m := { s.m with lerr := Sparse.set 0 s.m.lerr w 0 } }
    if e = 1 then s.corr .LSCORR g 0 13 g 0
    else (s.poison (4 * w) 4).record 3 0x0013 4 g (s.lsFlask g (4 * w - aper g)) (4 * w - aper g) 0 0

/-- Find the errors of the local-store words that `n` bytes at a physical offset read. -/
def State.scrub (s : State) (a n : Nat) : State :=
  if s.m.lerr = [] ∨ a < dramEnd then s else (granules a n).foldl State.scrubWord s

/-- A write to local store (R195): a word written in part is read first; one written whole loses its error. -/
def State.lsWrite (s : State) (a : Nat) (mask : List Bool) (bs : List Byte) (pois : Bool) : State :=
  let n := bs.length
  let whole (w : Nat) : Bool :=
    wholeGranule a n w && (mask.isEmpty || (List.range 4).all fun k => mask.getD (4 * w - a + k) false)
  let touched (w : Nat) : Bool :=
    mask.isEmpty || (List.range 4).any fun k => a ≤ 4 * w + k && mask.getD (4 * w + k - a) false
  let ws := (granules a n).filter touched
  let s := if s.m.lerr = [] then s
    else ws.foldl (fun s w =>
      if whole w then { s with m := { s.m with lerr := Sparse.set 0 s.m.lerr w 0 } } else s.scrubWord w) s
  let s := s.put a mask bs
  if pois then { s with pois := ws.foldl (fun p i => NSet.add i p) s.pois }
  else { s with pois := s.pois.filter fun i => !(ws.contains i && whole i) }

/-! ### Write digests (R232, R233) -/

/-- The record hash of R232. -/
def digestRecord (w off size op : Nat) (data : List Nat) : Word64 :=
  data.foldl (fun h d => mix (h ^^^ BitVec.ofNat 64 d))
    (mix (mix ((BitVec.ofNat 64 w * k1) ^^^ BitVec.ofNat 64 off) ^^^ (BitVec.ofNat 64 size * k2) ^^^ BitVec.ofNat 64 op))

/-- The 8-byte little-endian words of a byte string, zero-padded. -/
def words8 (bs : List Byte) : List Nat := (List.range ((bs.length + 7) / 8)).map fun i => leAt bs (8 * i) 8

/-- The window of flask `f` that holds an offset, and the offset from its base; of several that hold it, the one of lowest
index (DESIGN CHOICE, log entry 66). -/
def State.winOf (s : State) (f off : Nat) : Option (Nat × Nat) :=
  ((List.range (s.nwin f)).find? fun w => (s.window f w).1 ≤ off && off < (s.window f w).1 + (s.window f w).2.1).map
    fun w => (w, off - (s.window f w).1)

/-- Add write records to the running digest of flask `f` at the home of `off`, when its region is marked DIGEST. -/
def State.digest (s : State) (f off size op : Nat) (recs : List (List Nat)) (pois : Bool) : State :=
  if off < dramEnd ∧ bit (s.region (regionOf off)) 8 = 1 then
    match s.winOf f off with
    | none => s
    | some (w, o) =>
      let m := s.home (s.view off / 128)
      let sum := recs.foldl (fun a d => a + digestRecord w o size op d) (s.rd .DGSUM m f)
      let s := s.wr .DGSUM m f sum
      if pois then (s.wf .DGFLAG m 0 f f 1).stepEvent f 0 else s
  else s

/-- Snapshot of flask `f`'s digest at die `m` (R233). -/
def State.snapOne (s : State) (m f : Nat) : State :=
  let s := (s.wr .DGSNAP m f (s.rd .DGSUM m f)).wn .DGSUM m f 0
  (s.wf .DGFLAG m 0 (16 + f) (16 + f) (s.rf .DGFLAG m 0 f f)).wf .DGFLAG m 0 f f 0

/-! ### Reads and writes at the point of coherence, by an agent acting for a flask -/

/-- A write is made to an update view after the seal (R388, R393). -/
def State.sealCheck (s : State) (off : Nat) : State :=
  if s.isUpdate off then
    let f := fld (s.region (regionOf off)) 3 0
    if s.rf .SHADOW f 0 1 1 = 1 then s.stepEvent f 4 else s
  else s

/-- A write of a line overtakes a backing read of it still under way (R231). -/
def State.overtake (s : State) (line : Nat) : State :=
  { s with m := { s.m with restore := s.m.restore.filter (· ≠ line) } }

/-- Write bytes at a module offset, on behalf of flask `f`: the application instant of R250. `op` is the digest's. -/
def State.pocWrite (s : State) (f off : Nat) (mask : List Bool) (bs : List Byte) (pois : Bool) : State :=
  if off < dramEnd then
    let s := (s.digest f off bs.length 0 [words8 bs] pois).sealCheck off
    let a := s.view off
    let s := (s.put a mask bs).overtake (a / 128)
    if pois then s.poison a bs.length else s.clean a bs.length mask
  else s.lsWrite off mask bs pois

/-- Read bytes at a module offset: the bytes, whether any is poisoned, and the state with errors found. -/
def State.pocRead (s : State) (off n : Nat) : List Byte × Bool × State :=
  let a := s.view off
  let s := s.scrub a n
  let r := s.seen a n
  (r.1, s.poisoned a n, r.2)

end Sys2Proof.Machine
end

