-- ==== Sys2Proof/Machine/Atomic.lean ====
section
/-! DEFINITION. Atomic operations at their point of coherence (R149, R150, R183), and the barrier updates (R281, R283). -/

namespace Sys2Proof.Machine

/-- The new value an atomic operation stores (R183): AOP, size in bytes, old value, operand, compare value. -/
def atomNew (aop sz old v cmp : Nat) : Nat :=
  let w := 8 * sz
  let a := old % 2 ^ w
  let b := v % 2 ^ w
  match aop with
  | 0x0 => (a + b) % 2 ^ w
  | 0x1 => a &&& b
  | 0x2 => a ||| b
  | 0x3 => a ^^^ b
  | 0x4 => if sgn w b < sgn w a then b else a
  | 0x5 => if sgn w a < sgn w b then b else a
  | 0x6 => if b < a then b else a
  | 0x7 => if a < b then b else a
  | 0x8 => (fAdd (BitVec.ofNat 32 a) (BitVec.ofNat 32 b)).toNat
  | 0x9 => (fMin (BitVec.ofNat 32 a) (BitVec.ofNat 32 b)).toNat
  | 0xA => (fMax (BitVec.ofNat 32 a) (BitVec.ofNat 32 b)).toNat
  | 0xB => b
  | _ => if a = cmp % 2 ^ w then b else a

/-- Apply a list of operands one after another: the intermediate old values and the final value (R149, R150). -/
def atomList (aop sz : Nat) : Nat → List (Nat × Nat) → List Nat × Nat
  | old, [] => ([], old)
  | old, o :: os =>
    let r := atomList aop sz (atomNew aop sz old o.1 o.2) os
    (old :: r.1, r.2)

/-- An integer operation the core reduces to one operand (R150). -/
def combines (aop : Nat) : Bool := aop ≤ 7

/-- The one operand a combined integer request carries: the lanes' operands reduced in ascending lane order. -/
def reduceOps (aop sz : Nat) : List (Nat × Nat) → Nat
  | [] => 0
  | o :: os => os.foldl (fun a p => atomNew aop sz a p.1 0) (o.1 % 2 ^ (8 * sz))

/-- What the request carries to its home (R150): one operand, or the ordered list. -/
def carried (aop sz : Nat) (ops : List (Nat × Nat)) : List (Nat × Nat) :=
  if combines aop then [(reduceOps aop sz ops, 0)] else ops

/-- The digest records of a near-memory request (R232): each operand it carries; a compare-and-swap element has its compare value and
then its swap value. -/
def atomRecs (aop : Nat) (ops : List (Nat × Nat)) : List (List Nat) :=
  ops.map fun o => if aop = 0xC then [o.2, o.1] else [o.1]

/-- Old values of the lanes from the home's old value, formed in the core for a combined request (R150). -/
def laneOlds (aop sz old : Nat) (ops : List (Nat × Nat)) : List Nat := (atomList aop sz old ops).1

/-! ### Barrier objects (R281, R283) -/

/-- complete_if_due on a 128-bit object: the object and whether a round completed. -/
def completeIfDue (o : Nat) : Nat × Bool :=
  let arr := fld o 15 0
  if 0 < arr ∧ fld o 47 32 ≤ arr + fld o 31 16 then
    (setFld (setFld (setFld o 15 0 0) 48 48 (1 - bit o 48)) 127 64 (fld o 127 64 + 1), true)
  else (o, false)

/-- Reserved bits 63:50 are written as zero. -/
def barClean (o : Nat) : Nat := setFld o 63 50 0

/-- bar_arrive: the new object and the released flag. -/
def barArrive (o n : Nat) : Nat × Bool :=
  let o1 := if fld o 15 0 = 0 then setFld o 47 32 n else if n ≠ fld o 47 32 then setFld o 49 49 1 else o
  let r := completeIfDue (setFld o1 15 0 (fld o1 15 0 + 1))
  (barClean r.1, r.2)

/-- bar_depart. -/
def barDepart (o : Nat) : Nat :=
  barClean (completeIfDue (setFld o 31 16 (min (fld o 31 16 + 1) 65535))).1

/-! ### Application at the point of coherence -/

/-- Store the result of an atomic (R211, R212): the line's poison stays, poisoned operands poison it. -/
def State.pocAtom (s : State) (f off sz aop : Nat) (ops : List (Nat × Nat)) (pois : Bool) : List Nat × Bool × State :=
  let r := s.pocRead off sz
  let a := atomList aop sz (leNat r.1) ops
  let s := (r.2.2.digest f off sz (aop + 1) (atomRecs aop ops) (pois || r.2.1)).sealCheck off
  let bs := leBytes sz a.2
  let s := if off < dramEnd then
      let s := (s.put (s.view off) [] bs).overtake (s.view off / 128)
      if pois then s.poison (s.view off) sz else s
    else s.lsWrite off [] bs (pois || r.2.1)
  (a.1, r.2.1, s)

/-- Apply bar_arrive or bar_depart (AOP 0xD, 0xE) to a 16-byte object (R562): its old bytes, released, poison. -/
def State.pocBar (s : State) (f off aop n : Nat) : List Byte × Bool × Bool × State :=
  let r := s.pocRead off 16
  let o := leNat r.1
  let p := if aop = 0xD then barArrive o n else (barDepart o, false)
  let s := (r.2.2.digest f off 16 (aop + 1) [[if aop = 0xD then n else 0]] r.2.1).sealCheck off
  let bs := leBytes 16 p.1
  let s := if off < dramEnd then (s.put (s.view off) [] bs).overtake (s.view off / 128) else s.lsWrite off [] bs r.2.1
  (r.1, p.2, r.2.1, s)

end Sys2Proof.Machine
end

