-- ==== Sys2Proof/Machine/Flags.lean ====
section
/-! DEFINITION. The conditions the instruction set tests: comparisons of uniforms, lanes and masks (R175, R176), and the
conditions of a signal wait (R291). The machine has no flag register: a comparison writes a mask or decides a branch. -/

namespace Sys2Proof.Machine

/-- COND of BRC over 64-bit uniforms (R175); none: a code the row does not define. -/
def condU (c : Nat) (a b : Word64) : Option Bool :=
  match c with
  | 0 => some (a == b)
  | 1 => some (a != b)
  | 2 => some (a.slt b)
  | 3 => some (!a.slt b)
  | 4 => some (a.ult b)
  | 5 => some (!a.ult b)
  | _ => none

/-- COND of BRM over a mask (R175). -/
def condK (c : Nat) (k : Word64) : Option Bool :=
  match c with
  | 0 => some (k != 0)
  | 1 => some (k == BitVec.allOnes 64)
  | 2 => some (k == 0)
  | _ => none

/-- COND of ICMP over 32-bit lanes (R176). -/
def condI (c : Nat) (a b : Word32) : Bool :=
  match c with
  | 0 => a == b
  | 1 => a != b
  | 2 => a.slt b
  | 3 => !a.slt b
  | 4 => a.ult b
  | _ => !a.ult b

/-- COND of FCMP over binary32 lanes (R176): with a NaN input NE and UN give 1, the others 0. -/
def condF (c : Nat) (a b : Word32) : Bool :=
  let x := f32 a
  let y := f32 b
  let un := vNaN x || vNaN y
  match c with
  | 0 => !un && vEq x y
  | 1 => un || !vEq x y
  | 2 => !un && vLt x y
  | 3 => !un && (vLt x y || vEq x y)
  | _ => un

/-- COND of SWAIT, unsigned over 64 bits (R291). -/
def condS (c obj v : Nat) : Bool :=
  match c with
  | 0 => v ≤ obj
  | 1 => obj = v
  | _ => obj ≠ v

end Sys2Proof.Machine
end

