-- ==== Sys2Proof/Machine/Operands.lean ====
section
/-! DEFINITION. Registers of a thread group, the operand forms of the instruction formats (R165 to R174), and the checks of
an instruction word. -/

namespace Sys2Proof.Machine

/-! ### Registers of a group (R131) -/

/-- Lane register `r` of lane `l`. -/
def Group.lane (g : Group) (r l : Nat) : Word32 := Sparse.get 0 g.v (64 * r + l)
/-- Its poison. -/
def Group.laneP (g : Group) (r l : Nat) : Bool := NSet.has g.vp (64 * r + l)
/-- Lane register written, with its poison. -/
def Group.setLane (g : Group) (r l : Nat) (x : Word32) (p : Bool) : Group :=
  { g with v := Sparse.set 0 g.v (64 * r + l) x,
           vp := if p then NSet.add (64 * r + l) g.vp else NSet.del g.vp (64 * r + l) }
/-- Uniform register. -/
def Group.unif (g : Group) (i : Nat) : Word64 := Sparse.get 0 g.u i
/-- Its poison. -/
def Group.unifP (g : Group) (i : Nat) : Bool := NSet.has g.up i
/-- Uniform register written, with its poison. -/
def Group.setUnif (g : Group) (i : Nat) (x : Word64) (p : Bool) : Group :=
  { g with u := Sparse.set 0 g.u i x, up := if p then NSet.add i g.up else NSet.del g.up i }
/-- Mask register: k0 reads as all ones (R131). -/
def Group.mask (g : Group) (i : Nat) : Word64 := if i = 0 then BitVec.allOnes 64 else Sparse.get 0 g.k i
/-- Its poison. -/
def Group.maskP (g : Group) (i : Nat) : Bool := i ≠ 0 && NSet.has g.kp i
/-- Mask register written: writes to k0 are ignored. -/
def Group.setMask (g : Group) (i : Nat) (x : Word64) (p : Bool) : Group :=
  if i = 0 then g
  else { g with k := Sparse.set 0 g.k i x, kp := if p then NSet.add i g.kp else NSet.del g.kp i }

/-- Lane `l` is unmasked under mask register `k` (R132). -/
def Group.on (g : Group) (k l : Nat) : Bool := (g.mask k).getLsbD l

/-- The lanes 0 to 63. -/
def lanes : List Nat := List.range 64

/-- The unmasked lanes, ascending. -/
def Group.onLanes (g : Group) (k : Nat) : List Nat := lanes.filter (g.on k)

/-- A W80 value in the quad v(r) to v(r + 3) (R144). -/
def Group.quad (g : Group) (r l : Nat) : Wide :=
  BitVec.ofNat 80 ((g.lane (r + 2) l).toNat % 2 ^ 16 * 2 ^ 64 + (g.lane (r + 1) l).toNat * 2 ^ 32 + (g.lane r l).toNat)
/-- Its poison: that of any of its registers. -/
def Group.quadP (g : Group) (r l : Nat) : Bool := (List.range 4).any fun i => g.laneP (r + i) l
/-- A quad written: bits 31:16 of v(r + 2) and v(r + 3) as zero, every register with the value's poison. -/
def Group.setQuad (g : Group) (r l : Nat) (w : Wide) (p : Bool) : Group :=
  (((g.setLane r l (BitVec.ofNat 32 w.toNat) p).setLane (r + 1) l (BitVec.ofNat 32 (w.toNat / 2 ^ 32)) p).setLane
    (r + 2) l (BitVec.ofNat 32 (w.toNat / 2 ^ 64)) p).setLane (r + 3) l 0 p

/-! ### Lane registers a stream has (R127, R129, R165) -/

/-- Registers per lane of a stream's groups. -/
def State.rpl (s : State) (x : Who) : Nat :=
  16 * 2 ^ (if isG x.strm then s.rf .SHAPE x.core 0 20 18 else s.rf .SHAPE x.core 0 2 0)

/-! ### Format V (R171) -/

/-- What a row reads in a source field of format V. -/
inductive VSrc where
  | lane | quad | none | mask | unif
  | code (n : Nat)
  deriving DecidableEq, Repr

/-- What a row writes through VD. -/
inductive VDst where
  | lane | quad | mask | unif
  deriving DecidableEq, Repr

/-- Shape of a format-V row: destination, sources, whether UA, UB, UC and IB are permitted (R171), whether the row
reads IMM, and below what bound, and whether MK governs lanes (R170). -/
structure VForm where
  d : VDst
  a : VSrc
  b : VSrc
  c : VSrc
  flags : Bool
  imm : Nat
  usesMk : Bool
  deriving DecidableEq, Repr

/-- A source field of 8 bits with its uniform flag is legal. -/
def srcOk (rpl : Nat) (flags : Bool) (k : VSrc) (v uflag : Nat) : Bool :=
  match k with
  | .lane => if uflag = 1 then flags && v < 32 else v < rpl
  | .quad => uflag = 0 && v % 4 = 0 && v < rpl
  | .none => uflag = 0 && v = 0
  | .mask => uflag = 0 && v < 8
  | .unif => uflag = 0 && v < 32
  | .code n => uflag = 0 && v < n

/-- The word of a format-V row breaks none of R163, R165, R169 to R171. -/
def VForm.ok (q : VForm) (rpl n : Nat) : Bool :=
  let va := fld n 44 37
  let vb := fld n 36 29
  let ib := bit n 17
  (match q.d with
    | .lane => fld n 52 45 < rpl
    | .quad => fld n 52 45 % 4 = 0 && fld n 52 45 < rpl
    | .mask => fld n 52 45 < 8
    | .unif => fld n 52 45 < 32)
  && srcOk rpl q.flags q.a va (bit n 20)
  && (if ib = 1 then q.flags && q.b = .lane && vb = 0 && bit n 19 = 0 else srcOk rpl q.flags q.b vb (bit n 19))
  && srcOk rpl q.flags q.c (fld n 28 21) (bit n 18)
  && bit n 16 = 0
  && (if ib = 1 then true else fld n 15 0 < q.imm)
  && (q.usesMk || fld n 55 53 = 0)

/-- Registers a format-V source names: lane r as r, uniform u as 256 + u. -/
def srcRegs (k : VSrc) (v uflag : Nat) : List Nat :=
  match k with
  | .lane => if uflag = 1 then [256 + v % 32] else [v]
  | .quad => [v, v + 1, v + 2, v + 3]
  | .unif => [256 + v % 32]
  | _ => []

/-- Registers a format-V word reads or writes. -/
def VForm.regs (q : VForm) (n : Nat) : List Nat :=
  (match q.d with
    | .lane => [fld n 52 45]
    | .quad => [fld n 52 45, fld n 52 45 + 1, fld n 52 45 + 2, fld n 52 45 + 3]
    | .mask => []
    | .unif => [256 + fld n 52 45 % 32])
  ++ srcRegs q.a (fld n 44 37) (bit n 20)
  ++ (if bit n 17 = 1 then [] else srcRegs q.b (fld n 36 29) (bit n 19))
  ++ srcRegs q.c (fld n 28 21) (bit n 18)

/-- A lane source: the lane's register, or bits 31:0 of a uniform (R166). -/
def Group.src (g : Group) (v uflag l : Nat) : Word32 × Bool :=
  if uflag = 1 then ((g.unif (v % 32)).setWidth 32, g.unifP (v % 32)) else (g.lane v l, g.laneP v l)

/-- Source A of lane `l`. -/
def Group.srcA (g : Group) (n l : Nat) : Word32 × Bool := g.src (fld n 44 37) (bit n 20) l
/-- Source B: with IB, IMM sign-extended. -/
def Group.srcB (g : Group) (n l : Nat) : Word32 × Bool :=
  if bit n 17 = 1 then ((BitVec.ofNat 16 n).signExtend 32, false) else g.src (fld n 36 29) (bit n 19) l
/-- Source C. -/
def Group.srcC (g : Group) (n l : Nat) : Word32 × Bool := g.src (fld n 28 21) (bit n 18) l

/-- The governing mask MK. -/
def mkOf (n : Nat) : Nat := fld n 55 53

/-- Write VD of every unmasked lane; `f` gives each lane's result and poison. -/
def Group.mapLanes (g : Group) (n : Nat) (f : Nat → Word32 × Bool) : Group :=
  (g.onLanes (mkOf n)).foldl (fun h l => h.setLane (fld n 52 45) l (f l).1 ((f l).2 || g.maskP (mkOf n))) g

/-- Write quad VD of every unmasked lane. -/
def Group.mapQuads (g : Group) (n : Nat) (f : Nat → Wide × Bool) : Group :=
  (g.onLanes (mkOf n)).foldl (fun h l => h.setQuad (fld n 52 45) l (f l).1 ((f l).2 || g.maskP (mkOf n))) g

/-- Write mask VD: a bit for every unmasked lane, the others kept (R170). -/
def Group.mapMask (g : Group) (n : Nat) (f : Nat → Bool × Bool) : Group :=
  let d := fld n 52 45
  let on := g.onLanes (mkOf n)
  let bits := on.foldl (fun (a : Nat) l => if (f l).1 then a + 2 ^ l else a) 0
  let sel := g.mask (mkOf n)
  let p := on.any (fun l => (f l).2) || g.maskP (mkOf n) || (g.maskP d && sel != BitVec.allOnes 64)
  g.setMask d (maskMerge (g.mask d) (BitVec.ofNat 64 bits) sel) p

/-- A poisoned value is read: any unmasked lane's source, or the governing mask. -/
def Group.readP (g : Group) (n : Nat) (f : Nat → Bool) : Bool :=
  g.maskP (mkOf n) || (g.onLanes (mkOf n)).any f

/-! ### Formats U and B (R174) -/

/-- The second operand s: ub, or IMM32 sign-extended when I = 1 (R174, R175). -/
def Group.opS (g : Group) (n : Nat) : Word64 :=
  if bit n 40 = 1 then (BitVec.ofNat 32 n).signExtend 64 else g.unif (fld n 45 41)
/-- Its poison. -/
def Group.opSP (g : Group) (n : Nat) : Bool := bit n 40 = 0 && g.unifP (fld n 45 41)

/-- What a format-U row reads: UD, UA, and the second operand (0 none, 1 ub or IMM32, 2 IMM32 only with I = 0,
3 UMOV's: ua, or IMM32 when I = 1). -/
structure UForm where
  ud : Bool
  ua : Bool
  s : Nat
  deriving DecidableEq, Repr

/-- The word of a format-U row breaks none of R163. -/
def UForm.ok (q : UForm) (n : Nat) : Bool :=
  (q.ud || fld n 55 51 = 0) && (q.ua || fld n 50 46 = 0) && fld n 39 32 = 0
  && (if q.s = 1 then (if bit n 40 = 1 then fld n 45 41 = 0 else fld n 31 0 = 0)
      else if q.s = 2 then fld n 45 40 = 0
      else if q.s = 3 then fld n 45 41 = 0 && (if bit n 40 = 1 then fld n 50 46 = 0 else fld n 31 0 = 0)
      else fld n 45 40 = 0 && fld n 31 0 = 0)

/-- Registers a format-U word reads or writes. -/
def UForm.regs (q : UForm) (n : Nat) : List Nat :=
  (if q.ud then [256 + fld n 55 51] else []) ++ (if q.ua then [256 + fld n 50 46] else [])
  ++ (if q.s = 1 ∧ bit n 40 = 0 then [256 + fld n 45 41] else [])

/-! ### Local-store values -/

/-- Physical offset of local-store offset `o` of core `g`. -/
def lsAt (g o : Nat) : Nat := aper g + o

end Sys2Proof.Machine
end

