-- ==== Sys2Proof/Machine/Issue.lean ====
section
/-! DEFINITION. Presenting and issuing an instruction (R133, R135, R138, R141, R160 to R163, R168), and raising a fault of
the issuing group. An instruction that its group, its stream or its core cannot issue now is not issued: the state
stays as it is, and the stream presents it again (log entry 7). -/

namespace Sys2Proof.Machine

/-- Causes of R449 that an instruction raises. -/
def illegal : Nat := 1
/-- Address fault. -/
def addrFault : Nat := 2

/-- Stop the streams of a core that work for a host (F, B, U) or a guest (G) (R133); a quarantined stream stays so. -/
def Core.stopAll (c : Core) (guest : Bool) (code : Nat) : Core :=
  { c with stop := (List.range 4).map fun i =>
      if c.stop.getD i 0 ≠ 4 ∧ decide (i = 3) = guest then code else c.stop.getD i 0 }

/-- Raise a fault of group `x` (R133): no stream of its flask on that core issues, and the notice leaves for I/O die 0
(R447). -/
def State.raise (s : State) (x : Who) (cause pc addr : Nat) : State :=
  (s.modCore x.core fun c => c.stopAll (isG x.strm) 3).notify
    (.fault (s.flaskOf x) cause x.core x.strm x.grp pc (if cause = 2 then fld addr 43 0 else 0))

/-- Count an issue (R141, R160): COR_ISSUE of the stream, and for G the denied count or the issues of the mode. -/
def State.countIssue (s : State) (x : Who) : State :=
  let s := s.addWrap .ISSUE x.core (streamNum x.strm) 1
  if isG x.strm then
    if s.rf .GSTARVE x.core 0 29 29 = 1 then
      if s.rf .GSTARVE x.core 0 28 17 = 4095 then s.wn .GSTARVE x.core 0 0
      else s.wf .GSTARVE x.core 0 28 17 (s.rf .GSTARVE x.core 0 28 17 + 1)
    else s.wf .GSTARVE x.core 0 16 0 0
  else s

/-- Move past the issued instruction: to `pc + 8`, W following (R138), or to a branch target. -/
def Group.advance (gr : Group) : Group := { gr with pc := gr.pc + 8, win := max gr.win (gr.pc - 256) }

/-- The issue of an instruction of group `x` that advances sequentially. -/
def State.retire (s : State) (x : Who) : State :=
  ((s.countIssue x).modCore x.core fun c => { c with lastq := c.lastq.set (streamNum x.strm) x.grp }).modGroup x
    Group.advance

/-- First offset and end of the stream's fetch region (R162). -/
def State.fetchOk (s : State) (x : Who) (pc : Nat) : Bool := s.lsOk x.core (isG x.strm) pc 8

/-- The core can issue instructions of the stream: awake, the stream not stopped, and for a host's no zeroing for a new split
under way (R126). -/
def Core.runs (c : Core) (st : Stream) : Bool :=
  c.stop.getD (streamNum st) 0 = 0 && (isG st || !c.zbusy) && c.power = 0 && !c.waking

/-- A register of the word still waits for a result of the group (R135, R168). -/
def Group.waits (gr : Group) (regs : List Nat) : Bool := gr.busy.any fun b => b.2.any fun r => regs.contains r

/-- What keeps an instruction from issuing: MEM and SYN wait for the group's acquires (R254), every instruction for
its registers, and a waiting group for its release. -/
def Group.held (gr : Group) (memSyn : Bool) (regs : List Nat) : Bool :=
  gr.waits regs || (memSyn && !gr.acq.isEmpty) || gr.wait.isSome

/-- The fault an issued word raises: its cause and address. -/
abbrev Check := State → Group → Option (Nat × Nat)
/-- Illegal-instruction fault unless the condition holds. -/
def need (b : Bool) : Option (Nat × Nat) := if b then none else some (illegal, 0)

/-- Group `x` is resident and its stream may issue from its program counter. -/
def State.presents (s : State) (x : Who) : Bool := (s.group x).isSome && (s.core x.core).runs x.strm

/-- The word at the program counter is read from local store (R138, R195): an error is found, and a poisoned word sets
POIS (R388). -/
def State.fetched (s : State) (x : Who) (pc : Nat) : State :=
  let a := lsAt x.core pc
  (s.scrub a 8).poisEvent (s.flaskOf x) ((s.scrub a 8).poisoned a 8)

/-- Present an instruction, which reads its operands from the group as it is at issue (R167): not issued (unchanged), faulting (R133, R162, R163), or issued with its effect. The effect
gets the state after the advance and the group as it was at issue. -/
def present (x : Who) (held : State → Group → Bool) (chk : Check) (eff : State → Group → State) (s : State) : State :=
  match s.group x with
  | none => s
  | some gr =>
    if !(s.core x.core).runs x.strm then s
    else if !(s.fetchOk x gr.pc) then (if gr.wait.isSome then s else s.raise x addrFault gr.pc gr.pc)
    else if held s gr then s
    else
      match chk s gr with
      | some e => ((s.fetched x gr.pc).countIssue x).raise x e.1 gr.pc e.2
      | none => eff ((s.fetched x gr.pc).retire x) gr

/-- Present a control, vector or caster instruction whose registers are `regs`. -/
def presentReg (x : Who) (regs : List Nat) (chk : Check) (eff : State → Group → State) (s : State) : State :=
  present x (fun _ gr => gr.held false regs) chk eff s

/-- Present a memory or synchronisation instruction. -/
def presentMem (x : Who) (regs : List Nat) (chk : Check) (eff : State → Group → State) (s : State) : State :=
  present x (fun _ gr => gr.held true regs) chk eff s

/-- The group changes, and a poisoned value read sets POIS of its flask (R388). -/
def State.regEff (s : State) (x : Who) (f : Group → Group) (p : Bool) : State :=
  (s.modGroup x f).poisEvent (s.flaskOf x) p

end Sys2Proof.Machine
end

