-- ==== Sys2Proof/Machine/Ctl.lean ====
section
/-! DEFINITION. The control instructions (R175): uniform arithmetic, branches, EXIT and MWAIT, and the word whose opcode
is not listed (R163). -/

namespace Sys2Proof.Machine

/-- A uniform instruction: the word's form, and the result from ua and s. -/
def uniform (x : Who) (q : UForm) (f : Group → Nat → Word64) (w : BitVec 56) (s : State) : State :=
  let n := w.toNat
  presentReg x (q.regs n) (fun _ _ => need (q.ok n)) (fun s gr =>
    let p := (q.ua && gr.unifP (fld n 50 46)) || (q.s = 1 && gr.opSP n)
    s.regEff x (fun h => h.setUnif (fld n 55 51) (f gr n) p) p) s

/-- Form of the two-operand rows. -/
def uForm2 : UForm := { ud := true, ua := true, s := 1 }

/-- ua op s. -/
def uniform2 (x : Who) (f : Word64 → Word64 → Word64) (w : BitVec 56) (s : State) : State :=
  uniform x uForm2 (fun gr n => f (gr.unif (fld n 50 46)) (gr.opS n)) w s

/-- NOP (R175): no effect. -/
def execNop (x : Who) (w : BitVec 56) (s : State) : Host.Outcome State Fault Refusal :=
  .next (presentReg x [] (fun _ _ => need (({ ud := false, ua := false, s := 0 } : UForm).ok w.toNat)) (fun s _ => s) s)

/-- UMOV (R175): ua, or IMM32 sign-extended when I = 1. -/
def execUmov (x : Who) (w : BitVec 56) (s : State) : Host.Outcome State Fault Refusal :=
  let n := w.toNat
  let q : UForm := { ud := true, ua := true, s := 3 }
  .next (presentReg x (if bit n 40 = 1 then [256 + fld n 55 51] else [256 + fld n 55 51, 256 + fld n 50 46])
    (fun _ _ => need (q.ok n)) (fun s gr =>
      let p := bit n 40 = 0 && gr.unifP (fld n 50 46)
      s.regEff x (fun h => h.setUnif (fld n 55 51)
        (if bit n 40 = 1 then (BitVec.ofNat 32 n).signExtend 64 else gr.unif (fld n 50 46)) p) p) s)

/-- UMOVH (R175): ud bits 63:32 = IMM32, bits 31:0 unchanged. -/
def execUmovh (x : Who) (w : BitVec 56) (s : State) : Host.Outcome State Fault Refusal :=
  let n := w.toNat
  let q : UForm := { ud := true, ua := false, s := 2 }
  .next (presentReg x (q.regs n) (fun _ _ => need (q.ok n)) (fun s gr =>
    let d := fld n 55 51
    s.regEff x (fun h => h.setUnif d (BitVec.ofNat 64 (fld n 31 0 * 2 ^ 32 + (gr.unif d).toNat % 2 ^ 32)) (gr.unifP d))
      (gr.unifP d)) s)

/-- UADD (R175). -/
def execUadd (x : Who) (w : BitVec 56) (s : State) : Host.Outcome State Fault Refusal :=
  .next (uniform2 x (fun a b => a + b) w s)
/-- USUB (R175). -/
def execUsub (x : Who) (w : BitVec 56) (s : State) : Host.Outcome State Fault Refusal :=
  .next (uniform2 x (fun a b => a - b) w s)
/-- UMUL (R175): the low 64 bits. -/
def execUmul (x : Who) (w : BitVec 56) (s : State) : Host.Outcome State Fault Refusal :=
  .next (uniform2 x (fun a b => a * b) w s)
/-- UAND (R175). -/
def execUand (x : Who) (w : BitVec 56) (s : State) : Host.Outcome State Fault Refusal :=
  .next (uniform2 x (fun a b => a &&& b) w s)
/-- UOR (R175). -/
def execUor (x : Who) (w : BitVec 56) (s : State) : Host.Outcome State Fault Refusal :=
  .next (uniform2 x (fun a b => a ||| b) w s)
/-- UXOR (R175). -/
def execUxor (x : Who) (w : BitVec 56) (s : State) : Host.Outcome State Fault Refusal :=
  .next (uniform2 x (fun a b => a ^^^ b) w s)
/-- USHL (R175): by bits 5:0 of s. -/
def execUshl (x : Who) (w : BitVec 56) (s : State) : Host.Outcome State Fault Refusal :=
  .next (uniform2 x (fun a b => a <<< (b.toNat % 64)) w s)
/-- USHR (R175): logical. -/
def execUshr (x : Who) (w : BitVec 56) (s : State) : Host.Outcome State Fault Refusal :=
  .next (uniform2 x (fun a b => a >>> (b.toNat % 64)) w s)
/-- USAR (R175): arithmetic. -/
def execUsar (x : Who) (w : BitVec 56) (s : State) : Host.Outcome State Fault Refusal :=
  .next (uniform2 x (fun a b => a.sshiftRight (b.toNat % 64)) w s)
/-- UMIN (R175): signed. -/
def execUmin (x : Who) (w : BitVec 56) (s : State) : Host.Outcome State Fault Refusal :=
  .next (uniform2 x (fun a b => if a.slt b then a else b) w s)
/-- UMAX (R175): signed. -/
def execUmax (x : Who) (w : BitVec 56) (s : State) : Host.Outcome State Fault Refusal :=
  .next (uniform2 x (fun a b => if a.slt b then b else a) w s)
/-- USLT (R175): 1 if ua < s, signed, else 0. -/
def execUslt (x : Who) (w : BitVec 56) (s : State) : Host.Outcome State Fault Refusal :=
  .next (uniform2 x (fun a b => if a.slt b then 1 else 0) w s)
/-- UGID (R175): the group index. -/
def execUgid (x : Who) (w : BitVec 56) (s : State) : Host.Outcome State Fault Refusal :=
  .next (uniform x { ud := true, ua := false, s := 0 } (fun gr _ => BitVec.ofNat 64 gr.q) w s)

/-! ### Branches -/

/-- Target of a branch at `pc`: PC + 8 × OFF, OFF signed 32 bits. -/
def target (pc n : Nat) : Int := (pc : Int) + 8 * sgn 32 n

/-- Take a branch (R138, R162): to a target in the buffer W stays, else W is the target. -/
def Group.jump (gr : Group) (t : Nat) : Group :=
  { gr with pc := t, win := if gr.win ≤ t ∧ t ≤ gr.win + 504 then gr.win else t }

/-- A branch: taken or not as `c` says; a taken one whose target is not 8-byte aligned or lies outside the fetch
region raises an address fault and does not branch (R162). -/
def branch (x : Who) (regs : List Nat) (ok : Nat → Bool) (c : Group → Nat → Bool) (p : Group → Nat → Bool)
    (w : BitVec 56) (s : State) : State :=
  let n := w.toNat
  presentReg x regs (fun s gr =>
    if !(ok n) then some (illegal, 0)
    else if c gr n then
      let t := target gr.pc n
      if t < 0 then some (addrFault, wrap 64 t)
      else if t % 8 ≠ 0 ∨ !(s.fetchOk x t.toNat) then some (addrFault, t.toNat) else none
    else none)
    (fun s gr =>
      let s := if c gr n then s.modGroup x fun _ => gr.jump (target gr.pc n).toNat else s
      s.poisEvent (s.flaskOf x) (p gr n)) s

/-- BR (R175). -/
def execBr (x : Who) (w : BitVec 56) (s : State) : Host.Outcome State Fault Refusal :=
  .next (branch x [] (fun n => fld n 55 32 = 0) (fun _ _ => true) (fun _ _ => false) w s)

/-- BRC (R175): if ua COND ub over 64 bits. -/
def execBrc (x : Who) (w : BitVec 56) (s : State) : Host.Outcome State Fault Refusal :=
  let n := w.toNat
  .next (branch x [256 + fld n 55 51, 256 + fld n 50 46]
    (fun n => fld n 45 43 = 0 && fld n 42 40 < 6 && fld n 39 32 = 0)
    (fun gr n => (condU (fld n 42 40) (gr.unif (fld n 55 51)) (gr.unif (fld n 50 46))).getD false)
    (fun gr n => gr.unifP (fld n 55 51) || gr.unifP (fld n 50 46)) w s)

/-- BRM (R175): if the mask register KM has COND. -/
def execBrm (x : Who) (w : BitVec 56) (s : State) : Host.Outcome State Fault Refusal :=
  .next (branch x [] (fun n => fld n 55 46 = 0 && fld n 42 40 < 3 && fld n 39 32 = 0)
    (fun gr n => (condK (fld n 42 40) (gr.mask (fld n 45 43))).getD false)
    (fun gr n => gr.maskP (fld n 45 43)) w s)

/-! ### EXIT and MWAIT -/

/-- A request of `src` with nothing in it. -/
def emptyReq (id : Nat) (src : Src) (flask : Nat) (kind : RKind) (addr size : Nat) : Req :=
  { id := id, src := src, pc := 0, flask := flask, kind := kind, addr := addr, size := size, data := [], mask := [],
    aop := 0, ops := [], ret := false, pois := false, rel := [], lanes := [], reg := 0, sz := 0, conv := 0,
    alloc := false, taint := false, cnt := 0, flag := none }

/-- Send a request: it gets the next id. -/
def State.send (s : State) (mk : Nat → Req) : State :=
  { s with reqs := s.reqs ++ [mk s.nextId], nextId := s.nextId + 1 }

/-- A line is dropped. -/
def Core.drop (c : Core) (line : Nat) : Core := { c with cc := c.cc.filter fun e => e.line ≠ line }

/-- The core a request belongs to. -/
def Src.core : Src → Option Nat
  | .grp x => some x.core
  | .dma g _ => some g
  | .pf g _ => some g
  | _ => none

/-- Forbid the fills of a core in flight to allocate (R260): all of them, or those of one line. -/
def State.taint (s : State) (g : Nat) (line : Option Nat) : State :=
  let hit (r : Req) : Bool := r.src.core = some g && r.alloc &&
    (match line with
      | none => true
      | some l => r.addr / 128 = l)
  let t (r : Req) : Req := if hit r then { r with taint := true } else r
  let tt (o : Outst) : Outst := { o with req := t o.req }
  let tp (p : Resp) : Resp := { p with req := t p.req }
  let tm (e : Nat × List Req) : Nat × List Req := (e.1, e.2.map t)
  { s with reqs := s.reqs.map t, resps := s.resps.map tp, m := { s.m with miss := s.m.miss.map tm },
           fab := { s.fab with outs := s.fab.outs.map tt } }

/-- An atomic of a core on a line issues (R199, R258, R260, R284, R297): the line leaves the core cache, and a fill of it on its
way is not kept. -/
def State.atomicLine (s : State) (g a : Nat) : State := (s.modCore g fun c => c.drop (a / 128)).taint g (some (a / 128))

/-- The departures of an ending group (R287, R288, R562): one for each listed object, in list order, each a release
at DOMAIN scope. -/
def State.departures (s : State) (x : Who) (gr : Group) : State :=
  gr.blist.foldl (fun s a =>
    let s := s.atomicLine x.core a
    let id := s.nextId
    let s := s.send fun id =>
      { emptyReq id (.grp x) (s.flaskOf x) .depart a 16 with aop := 0xE, ops := [(0, 0)], rel := gr.stores, pc := gr.pc }
    s.modCore x.core fun c => { c with depart := c.depart ++ [(id, isG x.strm, gr.own)] }) s

/-- A group leaves its stream; the host fields of COR_SHAPE return to reset with the last host group (R154), and
guaranteed mode ends with the last guest group (R141). -/
def State.endGroup (s : State) (x : Who) : State :=
  let s := s.modCore x.core fun c => { c with groups := c.groups.filter fun gr => !(Group.is x gr) }
  let gs := (s.core x.core).groups
  let s := if gs.all (fun gr => isG gr.strm) then s.wf .SHAPE x.core 0 17 0 0 else s
  if isG x.strm && gs.all (fun gr => !(isG gr.strm)) then
    (if s.rf .GSTARVE x.core 0 29 29 = 1 then s.wn .GSTARVE x.core 0 0 else s)
  else s

/-- EXIT (R175, R280, R287): the group ends and sends its departures. A listed object that can no longer be updated raises an
address fault (R39, R280). -/
def execExit (x : Who) (w : BitVec 56) (s : State) : Host.Outcome State Fault Refusal :=
  .next (presentReg x [] (fun s gr =>
      if !(({ ud := false, ua := false, s := 0 } : UForm).ok w.toNat) then some (illegal, 0)
      else (gr.blist.find? fun a => s.addrBad (some x.core) (s.flaskOf x) 2 a 16).map fun a => (addrFault, a))
    (fun s gr => (s.departures x gr).endGroup x) s)

/-- The stream's matrix operations are complete (R189): none queued, no plane loading, no landing to come. -/
def Core.mxIdle (c : Core) (st : Stream) : Bool :=
  c.mq.all (fun m => m.who.strm ≠ st) && c.planes.all (fun p => p.loading ≠ some st)
    && c.land.all (fun l => l.strm ≠ st)

/-- MWAIT (R175, R189): held until the stream's matrix operations are complete. -/
def execMwait (x : Who) (w : BitVec 56) (s : State) : Host.Outcome State Fault Refusal :=
  .next (present x (fun s gr => gr.held false [] || !((s.core x.core).mxIdle x.strm))
    (fun _ _ => need (({ ud := false, ua := false, s := 0 } : UForm).ok w.toNat)) (fun s _ => s) s)

/-- The opcodes of the opcode map (R175 to R177). -/
def listed (op : Nat) : Bool :=
  op ≤ 0x14 || (0x20 ≤ op && op ≤ 0x49) || (0x60 ≤ op && op ≤ 0x68) || (0x70 ≤ op && op ≤ 0x76)
    || (0x80 ≤ op && op ≤ 0x82) || (0x90 ≤ op && op ≤ 0x98)

/-- A word with an unlisted opcode (R163): an illegal-instruction fault when first presented. A word whose opcode the
map lists is another command, and leaves the state as it is. -/
def execUnlistedOpcode (x : Who) (w : BitVec 64) (s : State) : Host.Outcome State Fault Refusal :=
  .next (if listed (fld w.toNat 63 56) then s
    else present x (fun _ gr => gr.wait.isSome) (fun _ _ => some (illegal, 0)) (fun s _ => s) s)

/-- The instruction a group presents next (R162, R163): the row that the 8 bytes of local store at its program counter pick. -/
def State.nextInstr (s : State) (x : Who) : Option Instr :=
  (s.group x).map fun gr => rowOf x (BitVec.ofNat 64 (leNat (s.bytes (aper x.core + gr.pc) 8)))

end Sys2Proof.Machine
end

