-- ==== Sys2Proof/Machine/Access.lean ====
section
/-! DEFINITION. Loads, stores, atomics, fences and prefetch set-up (R172, R173, R179 to R183), the core cache (R197 to R201,
R260), and what their responses do in the core. An access to the core's own local store is made when the instruction
issues; every other access is a request to its point of coherence. -/

namespace Sys2Proof.Machine

/-! ### The core cache -/

/-- The line may be kept in the core cache: a DRAM offset or a Siltu address (R198). -/
def cacheable (a : Nat) : Bool := bit a 63 = 1 || fld a 47 0 < dramEnd

/-- Set of a line number (R197). -/
def ccSet (size line : Nat) : Nat := (line % 2 ^ 41) % (size / 1024)

/-- The cached line, if present. -/
def Core.find (c : Core) (line : Nat) : Option CLine := c.cc.find? fun e => e.line = line

/-- Tree pseudo-LRU: the way a tree of `n` levels names (node 1 is the root, bit b of the tree is node b). -/
def lruWay : Nat → Nat → Nat → Nat
  | 0, _, node => node
  | n + 1, t, node => lruWay n t (2 * node + bit t node)

/-- The tree after way `w` of `2^n` is marked most recently used: every node on its path points away from it. -/
def lruMark (n t w : Nat) : Nat :=
  (List.range n).foldl (fun t i =>
    let node := (2 ^ n + w) >>> (n - i)
    setFld t node node (1 - bit (2 ^ n + w) (n - 1 - i))) t

/-- Mark a way of a set most recently used. -/
def Core.touch (c : Core) (set way : Nat) : Core :=
  { c with lru := Sparse.set 0 c.lru set (lruMark 3 (Sparse.get 0 c.lru set) way) }

/-- The way a fill of a set takes (R197): the lowest invalid way, else the way the set's tree names. -/
def Core.fillWay (c : Core) (set : Nat) : Nat :=
  let used := (c.cc.filter fun e => e.set = set).map (·.way)
  match (List.range 8).find? fun w => !used.contains w with
  | some w => w
  | none => lruWay 3 (Sparse.get 0 c.lru set) 1 - 8

/-- Fill a line (R197). A copy of it that is present already, from another miss that was in flight, is dropped, and the fill
takes the way any fill takes (DESIGN CHOICE, log entry 66). -/
def Core.fill (c : Core) (size line : Nat) (data : List Byte) (pois : List Nat) : Core :=
  let set := ccSet size line
  let way := c.fillWay set
  let e : CLine := { set := set, way := way, line := line, data := data, pois := pois }
  let keep := c.cc.filter fun (e : CLine) => !(e.set = set && e.way = way) && e.line ≠ line
  ({ c with cc := keep ++ [e] } : Core).touch set way

/-- Invalidate every line (R200). -/
def Core.invalidate (c : Core) : Core := { c with cc := [], lru := [] }

/-- A store updates the words of a cached line (R199); the store's poison goes with them. It is no hit of a load, and does not
mark the line's way (R197; DESIGN CHOICE, log entry 66). -/
def Core.storeTo (c : Core) (a : Nat) (mask : List Bool) (bs : List Byte) (pois : Bool) : Core :=
  let o := a % 128
  let hit (k : Nat) : Bool := o ≤ k && k < o + bs.length && mask.getD (k - o) true
  { c with cc := c.cc.map fun e =>
      if e.line = a / 128 then
        let ws := (List.range 32).filter fun w => (List.range 4).any fun j => hit (4 * w + j)
        let all := (List.range 32).filter fun w => (List.range 4).all fun j => hit (4 * w + j)
        { e with
          data := (List.range 128).map fun k => if hit k then bs.getD (k - o) 0 else e.data.getD k 0
          pois := if pois then ws.foldl (fun p w => NSet.add w p) e.pois else e.pois.filter fun w => !all.contains w }
      else e }

/-- An acquire at CORE scope or wider issues (R200, R254, R260): the core cache is emptied and no fill on its way is kept. A
guest's leaves the cache and its fills as they are, since a guest never changes host cache state (R198; DESIGN CHOICE, log
entry 66). -/
def State.acquireAt (s : State) (x : Who) (scp : Nat) : State :=
  if 1 ≤ scp ∧ !(isG x.strm) then (s.modCore x.core Core.invalidate).taint x.core none else s

/-- A host group of the core has an acquire at CORE scope or wider in flight. -/
def Core.acquiring (c : Core) : Bool := c.groups.any fun gr => !(isG gr.strm) && gr.acq.any fun a => a.2

/-! ### Addresses and fields (R172, R173, R179) -/

/-- Ordering codes: 1 acquire, 2 release, 3 both. -/
def hasAcq (o : Nat) : Bool := o = 1 || o = 3
/-- The ordering releases. -/
def hasRel (o : Nat) : Bool := o = 2 || o = 3

/-- Address of a lane under format M. -/
def Group.addrM (gr : Group) (n l : Nat) : Nat :=
  let sz := 2 ^ fld n 31 29
  let off := if bit n 23 = 1 then 0 else (gr.lane (fld n 44 37) l).toNat * (if bit n 22 = 1 then sz else 1)
  wrap 64 ((gr.unif (fld n 36 32)).toNat + off + sgn 22 n)

/-- Address of a lane under format A. -/
def Group.addrA (gr : Group) (n l : Nat) : Nat :=
  ((gr.unif (fld n 20 16)).toNat + (gr.lane (fld n 44 37) l).toNat) % 2 ^ 64

/-- Poison of a lane's address. -/
def Group.addrPM (gr : Group) (n l : Nat) : Bool :=
  gr.unifP (fld n 36 32) || (bit n 23 = 0 && gr.laneP (fld n 44 37) l)

/-- A register operand of `sz` bytes: below RPL, a pair for 8 bytes, a quad for 16 (R165). -/
def regOk (rpl r sz : Nat) : Bool := r < rpl && (if sz = 8 then r % 2 = 0 else if sz = 16 then r % 4 = 0 else true)

/-- The registers an operand of `sz` bytes takes. -/
def regSpan (r sz : Nat) : List Nat := (List.range ((sz + 3) / 4)).map (r + ·)

/-- Fields of a format-M access by lanes are legal. -/
def formM (rpl n sz : Nat) : Bool :=
  fld n 26 24 ≤ 4 && (if bit n 23 = 1 then fld n 44 37 = 0 && bit n 22 = 0 else fld n 44 37 < rpl)
    && regOk rpl (fld n 52 45) sz

/-- Registers a format-M access by lanes reads or writes. -/
def regsM (n sz : Nat) : List Nat :=
  regSpan (fld n 52 45) sz ++ (if bit n 23 = 1 then [] else [fld n 44 37]) ++ [256 + fld n 36 32]

/-- The offset lies in the core's own local store. -/
def own (g a : Nat) : Bool := bit a 63 = 0 && aperOf (fld a 47 0) = some g

/-- Something of the core's goes first at its memory unit: a request of the group to its own local store (R182, R255), or one of
the core to the same 128-byte block (R251). Later accesses queue behind it. -/
def State.ownQueued (s : State) (x : Who) (line : Nat) : Bool := s.reqs.any fun r =>
  (r.src = .grp x && own x.core r.addr) || (r.src.core = some x.core && bit r.addr 63 = 0 && r.addr / 128 = line)

/-- The first lane, ascending, at which the access faults, with its address. -/
def State.laneFault (s : State) (me : Option Nat) (f : Nat) (p : Perm) (sz : Nat) (as : List (Nat × Nat)) : Option (Nat × Nat) :=
  (as.find? fun e => s.addrBad me f p e.2 sz).map fun e => (addrFault, e.2)

/-- Some address reads a parameter view while the hold of R35 lasts. -/
def State.paramHeld (s : State) (x : Who) (as : List (Nat × Nat)) : Bool :=
  !(isG x.strm) && (s.core x.core).phold && as.any fun e => bit e.2 63 = 0 && s.isParam (fld e.2 47 0)

/-! ### Load data into registers (R180) -/

/-- The value a load of `sz` bytes writes, widened by LDH and LDB (conv 1, 2). -/
def loadVal (conv v : Nat) : Nat :=
  if conv = 1 then (widenH v).toNat else if conv = 2 then (widenB v).toNat else v

/-- Write a loaded value of a lane into its registers. -/
def Group.putLoad (gr : Group) (r sz conv l v : Nat) (p : Bool) : Group :=
  ((List.range ((sz + 3) / 4)).foldl (fun h i => h.setLane (r + i) l (BitVec.ofNat 32 (loadVal conv v / 2 ^ (32 * i))) p) gr)

/-- Deliver a lane of a 128-byte line (conv 3: LDU, to a uniform). -/
def Group.fromLine (gr : Group) (q : Req) (data : List Byte) (pois : List Nat) (e : Nat × Nat) : Group :=
  let o := e.2 % 128
  let v := leAt data o q.sz
  let p := q.pois || (List.range ((o + q.sz - 1) / 4 - o / 4 + 1)).any fun k => pois.contains (o / 4 + k)
  if q.conv = 3 then gr.setUnif q.reg (BitVec.ofNat 64 v) p else gr.putLoad q.reg q.sz q.conv e.1 v p

/-- Poisoned 4-byte words of the line of `a`, at its point of coherence. -/
def State.linePois (s : State) (off : Nat) : List Nat :=
  let b := s.view off / 128 * 128
  if off < dramEnd then (if NSet.has s.pois (b / 128) then List.range 32 else [])
  else (List.range 32).filter fun w => NSet.has s.pois (b / 4 + w)

/-! ### Loads -/

/-- One line of a load: served from local store, from the cache, or requested. -/
def State.loadLine (s : State) (x : Who) (proto : Req) (acq : Bool) (line : Nat) : State :=
  let mine := proto.lanes.filter fun e => e.2 / 128 = line
  let a := line * 128
  let g := x.core
  let c := s.core g
  let size := s.ccSize g
  let ask (s : State) : State :=
    let id := s.nextId
    let q := { proto with id := id, addr := a, size := 128, lanes := mine,
                          alloc := !(isG x.strm) && size ≠ 0 && cacheable a && !(own g a),
                          taint := (s.core g).acquiring || acq && 1 ≤ proto.cnt }
    (s.send fun _ => { q with cnt := 0 }).modGroup x fun gr =>
      { gr with busy := gr.busy ++ [(id, if proto.conv = 3 then [256 + proto.reg] else regSpan proto.reg proto.sz)],
                loads := gr.loads ++ [id],
                acq := if acq then gr.acq ++ [(id, decide (1 ≤ proto.cnt))] else gr.acq }
  if own g a ∧ !(s.ownQueued x line) then
    let s := mine.foldl (fun s e => s.scrub (fld e.2 47 0) proto.sz) s
    let r := s.lsBytes g (fld a 47 0 - aper g) 128
    let data := r.1
    let s := r.2
    let pois := s.linePois (fld a 47 0)
    (s.modGroup x fun gr => mine.foldl (fun h e => h.fromLine proto data pois e) gr).poisEvent proto.flask
      (mine.any fun e => proto.pois || s.poisoned (fld e.2 47 0) proto.sz)
  else if !(isG x.strm) ∧ size ≠ 0 ∧ cacheable a ∧ !(acq && 1 ≤ proto.cnt) then
    match c.find line with
    | some e =>
      let bad (k : Nat) : Nat := Sparse.get 0 s.m.cerr (g * 2 ^ 17 + (e.set * 8 + e.way) * 32 + k)
      let ws := (mine.map fun p => (List.range ((p.2 % 128 + proto.sz - 1) / 4 - p.2 % 128 / 4 + 1)).map
        (p.2 % 128 / 4 + ·)).flatten.eraseDups
      let hurt := ws.filter fun k => bad k ≠ 0
      let s := hurt.foldl (fun s k =>
        ({ s with m := { s.m with cerr := Sparse.set 0 s.m.cerr (g * 2 ^ 17 + (e.set * 8 + e.way) * 32 + k) 0 } }).corr
          .CCCORR g 0 13 g 1) s
      if hurt.any fun k => bad k = 2 then ask (s.modCore g fun c => c.drop line)
      else
        let s := s.modCore g fun c => c.touch e.set e.way
        (s.modGroup x fun gr => mine.foldl (fun h p => h.fromLine proto e.data e.pois p) gr).poisEvent proto.flask
          (ws.any e.pois.contains || proto.pois)
    | none => ask s
  else ask s

/-- The lines some addresses touch, in order of first use. -/
def linesOf (as : List (Nat × Nat)) : List Nat := (as.map fun e => e.2 / 128).eraseDups

/-- A load by lanes, its addresses known. -/
def State.loadAll (s : State) (x : Who) (proto : Req) (acq : Bool) : State :=
  (linesOf proto.lanes).foldl (fun s l => s.loadLine x proto acq l) (if acq then s.acquireAt x proto.cnt else s)

/-- LD, LDH and LDB: conv 0, 1, 2. -/
def load (x : Who) (conv : Nat) (w : BitVec 56) (s : State) : State :=
  let n := w.toNat
  let sz := 2 ^ fld n 31 29
  let ord := fld n 28 27
  let addrs (gr : Group) : List (Nat × Nat) := (gr.onLanes (mkOf n)).map fun l => (l, gr.addrM n l)
  present x (fun s gr => gr.held true (regsM n sz) || s.paramHeld x (addrs gr))
    (fun s gr =>
      if !(fld n 31 29 ≤ 4) || (conv ≠ 0 && fld n 31 29 ≠ 1) || !(formM (s.rpl x) n sz) || hasRel ord then
        some (illegal, 0)
      else s.laneFault (some x.core) (s.flaskOf x) 0 sz (addrs gr))
    (fun s gr =>
      let f := s.flaskOf x
      let ap := (gr.onLanes (mkOf n)).any (gr.addrPM n) || gr.maskP (mkOf n)
      let proto := { emptyReq 0 (.grp x) f .read 0 sz with
        pc := gr.pc, reg := fld n 52 45, sz := sz, conv := conv, lanes := addrs gr, pois := ap, cnt := fld n 26 24 }
      (s.loadAll x proto (hasAcq ord)).poisEvent f ap) s

/-- LD (R180). -/
def execLd (x : Who) (w : BitVec 56) (s : State) : Host.Outcome State Fault Refusal := .next (load x 0 w s)
/-- LDH (R50, R180): binary16 widened. -/
def execLdh (x : Who) (w : BitVec 56) (s : State) : Host.Outcome State Fault Refusal := .next (load x 1 w s)
/-- LDB (R50, R180): bfloat16 widened. -/
def execLdb (x : Who) (w : BitVec 56) (s : State) : Host.Outcome State Fault Refusal := .next (load x 2 w s)

/-- Fields of LDU and STU: SZ = 8 B, NOV = 1, VD names a uniform, MK reserved (R170, R180). -/
def formU (n : Nat) : Bool :=
  fld n 55 53 = 0 && fld n 52 50 = 0 && fld n 44 37 = 0 && fld n 31 29 = 3 && fld n 26 24 ≤ 4 && bit n 23 = 1 && bit n 22 = 0

/-- LDU (R180): an 8-byte load to a uniform. -/
def execLdu (x : Who) (w : BitVec 56) (s : State) : Host.Outcome State Fault Refusal :=
  let n := w.toNat
  let ord := fld n 28 27
  let u := fld n 49 45
  .next (present x (fun s gr => gr.held true [256 + u, 256 + fld n 36 32] || s.paramHeld x [(0, gr.addrM n 0)])
    (fun s gr => if !(formU n) || hasRel ord then some (illegal, 0)
      else s.laneFault (some x.core) (s.flaskOf x) 0 8 [(0, gr.addrM n 0)])
    (fun s gr =>
      let f := s.flaskOf x
      let ap := gr.unifP (fld n 36 32)
      let proto := { emptyReq 0 (.grp x) f .read 0 8 with
        pc := gr.pc, reg := u, sz := 8, conv := 3, lanes := [(0, gr.addrM n 0)], pois := ap, cnt := fld n 26 24 }
      (s.loadAll x proto (hasAcq ord)).poisEvent f ap) s)

/-! ### Stores -/

/-- Bytes a line of a store writes: start, mask (empty: all), bytes (R263: the highest lane's where lanes overlap). -/
def storeBytes (line : Nat) (es : List (Nat × List Byte)) : Nat × List Bool × List Byte :=
  let mine := es.filter fun e => e.1 / 128 = line
  let at' (k : Nat) : Option Byte :=
    mine.foldl (fun r e => if e.1 % 128 ≤ k ∧ k < e.1 % 128 + e.2.length then e.2[k - e.1 % 128]? else r) none
  let full := (List.range 128).filter fun k => (at' k).isSome
  let lo := full.headD 0
  let hi := full.getLastD 0
  if full.length = hi + 1 - lo then (line * 128 + lo, [], full.map fun k => (at' k).getD 0)
  else (line * 128, (List.range 128).map fun k => (at' k).isSome, (List.range 128).map fun k => (at' k).getD 0)

/-- One line of a store (R199, R250, R255, R263): `rel` is what it waits for. -/
def State.storeLine (s : State) (x : Who) (proto : Req) (es : List (Nat × List Byte)) (line : Nat) : State :=
  let b := storeBytes line es
  let g := x.core
  let s := (s.modCore g fun c => c.storeTo b.1 b.2.1 b.2.2 proto.pois).taint g (some line)
  if own g b.1 ∧ proto.rel = [] ∧ !(s.ownQueued x line) then s.pocWrite proto.flask (fld b.1 47 0) b.2.1 b.2.2 proto.pois
  else
    let id := s.nextId
    (s.send fun id => { proto with id := id, addr := b.1, size := b.2.2.length, mask := b.2.1, data := b.2.2 }).modGroup x
      fun gr => { gr with stores := gr.stores ++ [id] }

/-- What a release at a scope waits for (R255, R256): nothing at GROUP. -/
def Group.relWait (gr : Group) (rel : Bool) (scp : Nat) : List Nat := if rel ∧ 1 ≤ scp then gr.stores else []

/-- ST (R180, R199): the lanes' data from VD. -/
def execSt (x : Who) (w : BitVec 56) (s : State) : Host.Outcome State Fault Refusal :=
  let n := w.toNat
  let sz := 2 ^ fld n 31 29
  let ord := fld n 28 27
  let addrs (gr : Group) : List (Nat × Nat) := (gr.onLanes (mkOf n)).map fun l => (l, gr.addrM n l)
  .next (presentMem x (regsM n sz)
    (fun s gr =>
      if !(fld n 31 29 ≤ 4) || !(formM (s.rpl x) n sz) || hasAcq ord then some (illegal, 0)
      else s.laneFault (some x.core) (s.flaskOf x) 1 sz (addrs gr))
    (fun s gr =>
      let f := s.flaskOf x
      let es := (gr.onLanes (mkOf n)).map fun l =>
        (gr.addrM n l, leBytes sz ((List.range ((sz + 3) / 4)).foldl (fun a i =>
          a + (gr.lane (fld n 52 45 + i) l).toNat * 2 ^ (32 * i)) 0))
      let p (line : Nat) : Bool := gr.maskP (mkOf n) || (gr.onLanes (mkOf n)).any fun l =>
        gr.addrM n l / 128 = line && (gr.addrPM n l || (regSpan (fld n 52 45) sz).any fun r => gr.laneP r l)
      let rel := gr.relWait (hasRel ord) (fld n 26 24)
      (linesOf (addrs gr)).foldl (fun s line =>
        (s.storeLine x { emptyReq 0 (.grp x) f .write 0 0 with pc := gr.pc, pois := p line, rel := rel } es line).poisEvent
          f (p line)) s) s)

/-- STU (R180): an 8-byte store of a uniform. -/
def execStu (x : Who) (w : BitVec 56) (s : State) : Host.Outcome State Fault Refusal :=
  let n := w.toNat
  let ord := fld n 28 27
  let u := fld n 49 45
  .next (presentMem x [256 + u, 256 + fld n 36 32]
    (fun s gr => if !(formU n) || hasAcq ord then some (illegal, 0)
      else s.laneFault (some x.core) (s.flaskOf x) 1 8 [(0, gr.addrM n 0)])
    (fun s gr =>
      let f := s.flaskOf x
      let a := gr.addrM n 0
      let p := gr.unifP u || gr.unifP (fld n 36 32)
      (s.storeLine x { emptyReq 0 (.grp x) f .write 0 0 with
          pc := gr.pc, pois := p, rel := gr.relWait (hasRel ord) (fld n 26 24) }
        [(a, leBytes 8 (gr.unif u).toNat)] (a / 128)).poisEvent f p) s)

/-! ### Atomics (R149 to R151, R183) -/

/-- Write a lane's old value. -/
def Group.putOld (gr : Group) (r sz l v : Nat) (p : Bool) : Group := gr.putLoad r sz 0 l v p

/-- Write the old values a request returned. -/
def Group.putOlds (gr : Group) (q : Req) (olds : List Nat) (p : Bool) : Group :=
  (q.lanes.zip olds).foldl (fun h e => h.putOld q.reg q.sz e.1.1 e.2 p) gr

/-- ATOM is legal: SZ, AOP, ORD, SCP, RET and the register fields. -/
def formA (rpl n : Nat) : Bool :=
  let sz := 2 ^ fld n 11 10
  let aop := fld n 15 12
  2 ≤ fld n 11 10 && aop ≤ 0xC && (!(8 ≤ aop && aop ≤ 0xA) || sz = 4) && fld n 9 7 ≤ 4 && fld n 3 0 = 0
    && (if bit n 4 = 1 then regOk rpl (fld n 52 45) sz else fld n 52 45 = 0) && fld n 44 37 < rpl
    && regOk rpl (fld n 36 29) sz && (if aop = 0xC then regOk rpl (fld n 28 21) sz else fld n 28 21 = 0)

/-- One combined request (R149 to R151): the lanes of one address. -/
def State.atomAddr (s : State) (x : Who) (proto : Req) (acq : Option Bool) (a : Nat)
    (es : List (Nat × Nat × Nat × Nat)) : State :=
  let mine := es.filter fun e => e.2.1 = a
  let ops := mine.map fun e => e.2.2
  let g := x.core
  let s := s.atomicLine g a
  let q := { proto with addr := a, ops := ops, lanes := mine.map fun e => (e.1, a) }
  if own g a ∧ proto.rel = [] ∧ !(s.ownQueued x (a / 128)) then
    let r := s.pocAtom proto.flask (fld a 47 0) proto.sz proto.aop ops proto.pois
    let p := r.2.1 || proto.pois
    ((if proto.ret then r.2.2.modGroup x fun gr => gr.putOlds q r.1 p else r.2.2)).poisEvent proto.flask p
  else
    let id := s.nextId
    (s.send fun id => { q with id := id }).modGroup x fun gr =>
      { gr with stores := gr.stores ++ [id],
                loads := if proto.ret then gr.loads ++ [id] else gr.loads,
                busy := if proto.ret then gr.busy ++ [(id, regSpan proto.reg proto.sz)] else gr.busy,
                acq := match acq with
                  | some b => gr.acq ++ [(id, b)]
                  | none => gr.acq }

/-- ATOM (R183). -/
def execAtom (x : Who) (w : BitVec 56) (s : State) : Host.Outcome State Fault Refusal :=
  let n := w.toNat
  let sz := 2 ^ fld n 11 10
  let aop := fld n 15 12
  let ord := fld n 6 5
  let scp := fld n 9 7
  let ret : Bool := bit n 4 = 1
  let regs := (if ret then regSpan (fld n 52 45) sz else []) ++ [fld n 44 37] ++ regSpan (fld n 36 29) sz
    ++ (if aop = 0xC then regSpan (fld n 28 21) sz else []) ++ [256 + fld n 20 16]
  let val (gr : Group) (r l : Nat) : Nat :=
    (List.range (sz / 4)).foldl (fun a i => a + (gr.lane (r + i) l).toNat * 2 ^ (32 * i)) 0
  .next (presentMem x regs
    (fun s gr =>
      if !(formA (s.rpl x) n) then some (illegal, 0)
      else s.laneFault (some x.core) (s.flaskOf x) 2 sz ((gr.onLanes (mkOf n)).map fun l => (l, gr.addrA n l)))
    (fun s gr =>
      let f := s.flaskOf x
      let on := gr.onLanes (mkOf n)
      let es := on.map fun l =>
        (l, gr.addrA n l, val gr (fld n 36 29) l, if aop = 0xC then val gr (fld n 28 21) l else 0)
      let as := (es.map fun e => e.2.1).eraseDups
      let p (a : Nat) : Bool := gr.maskP (mkOf n) || gr.unifP (fld n 20 16) || on.any fun l => gr.addrA n l = a &&
        (gr.laneP (fld n 44 37) l || (regSpan (fld n 36 29) sz).any (fun r => gr.laneP r l)
          || (aop = 0xC && (regSpan (fld n 28 21) sz).any fun r => gr.laneP r l))
      let s := (if hasAcq ord then s.acquireAt x scp else s).addSat .ATOM x.core 0 32 (on.length - as.length)
      as.foldl (fun s a =>
        (s.atomAddr x { emptyReq 0 (.grp x) f .atom 0 sz with
            pc := gr.pc, aop := aop, sz := sz, reg := fld n 52 45, ret := ret, pois := p a,
            rel := gr.relWait (hasRel ord) scp }
          (if hasAcq ord then some (decide (1 ≤ scp)) else none) a es).poisEvent f (p a)) s) s)

/-! ### FENCE and PFSET -/

/-- FENCE (R180, R181, R254, R255). -/
def execFence (x : Who) (w : BitVec 56) (s : State) : Host.Outcome State Fault Refusal :=
  let n := w.toNat
  let ord := fld n 28 27
  let scp := fld n 26 24
  .next (present x (fun _ gr => gr.held true [] || !(gr.relWait (hasRel ord) scp).isEmpty)
    (fun _ _ => need (fld n 55 29 = 0 && fld n 23 0 = 0 && ord ≠ 0 && scp ≤ 4))
    (fun s gr =>
      if hasAcq ord then
        (s.acquireAt x scp).modGroup x fun h =>
          { h with acq := h.acq ++ gr.loads.map fun i => (i, decide (1 ≤ scp)) }
      else s) s)

/-- PFSET (R183, R213, R214). -/
def execPfset (x : Who) (w : BitVec 56) (s : State) : Host.Outcome State Fault Refusal :=
  let n := w.toNat
  let u := fld n 36 32
  let k := fld n 48 45
  .next (presentMem x [256 + u, 257 + u]
    (fun _ gr =>
      let d := (gr.unif (u + 1)).toNat
      need (fld n 55 53 = 0 && fld n 52 49 = 0 && fld n 44 37 = 0 && fld n 31 0 = 0 && u + 1 ≤ 31 && !(isG x.strm)
        && fld d 49 48 ≤ 1 && (gr.unif u).toNat % 128 = 0))
    (fun s gr =>
      let d := (gr.unif (u + 1)).toNat
      let c := s.core x.core
      let fl := match Sparse.get none c.pf k with
        | some p => p.inflight
        | none => []
      let p : Pf := { addr := (gr.unif u).toNat, nlines := fld d 23 0, stride := sgn 24 (fld d 47 24), tgt := fld d 49 48,
                      strm := x.strm, inflight := fl }
      (s.modCore x.core fun c => { c with pf := Sparse.set none c.pf k (if p.nlines = 0 ∧ fl = [] then none else some p) }).poisEvent
        (s.flaskOf x) (gr.unifP u || gr.unifP (u + 1))) s)

end Sys2Proof.Machine
end

