-- ==== Sys2Proof/Machine/Convert.lean ====
section
/-! DEFINITION. The caster and range-counter instructions (R70 to R78, R184 to R187): operands in registers and in local
store, the slot's counts, and the seven instructions. -/

namespace Sys2Proof.Machine

/-! ### Range-counter slots (R70, R71, R76 to R78) -/

/-- The slot an instruction of a stream names: a guest's 0 to 7 are 56 to 63 (R70). -/
def slotOf (st : Stream) (n : Nat) : Nat := if isG st then 56 + n else n

/-- The slot number is in the flask's range (R70). -/
def slotOk (st : Stream) (n : Nat) : Bool := if isG st then n < 8 else n < 56

/-- Index of entry `v` of slot `sl` of COR_RCHIST. -/
def histIdx (sl v : Nat) : Nat := 32 * sl + v

/-- A recorded group raises MAXOWN and its histogram bin (R71, R77). -/
def State.countGroup (s : State) (g sl : Nat) (p : Nat × Nat) : State :=
  let m := s.rf .RCMAX g sl 7 0
  let s := s.wn .RCMAX g sl (2 ^ 8 + max m p.1)
  s.addSat .RCHIST g (histIdx sl (p.2 / 8)) 32 1

/-- A cast's counts are added to its slot (R71). -/
def State.countCast (s : State) (g sl : Nat) (c : CastCount) : State :=
  let s := ((s.addSat .RCOVF g sl 32 c.1).addSat .RCFLU g sl 32 c.2.1).addSat .RCNF g sl 32 c.2.2.1
  c.2.2.2.foldl (fun s p => s.countGroup g sl p) s

/-- The counts of a slot are zeroed (R78). -/
def State.clearSlot (s : State) (g sl : Nat) : State :=
  let s := (((s.wn .RCOVF g sl 0).wn .RCFLU g sl 0).wn .RCNF g sl 0).wn .RCMAX g sl 0
  (List.range 32).foldl (fun s v => s.wn .RCHIST g (histIdx sl v) 0) s

/-- The modes a cast samples (R75). -/
def State.modes (s : State) (g sl : Nat) : CastCfg := castCfg (s.rn .RCCFG g sl)

/-- The noise key of a cast: SEED, STEP, the slot's TID, JB (R68, R185). -/
def State.castKey (s : State) (gr : Group) (g sl uk : Nat) : CastKey :=
  (gr.unif uk, BitVec.ofNat 64 ((gr.unif (uk + 1)).toNat % 2 ^ 32), s.rd .RCTID g sl, (gr.unif (uk + 2)).toNat % 2 ^ 48)

/-! ### Operands -/

/-- An element of a register source (R184). -/
def Group.elemOf (gr : Group) (sf r l : Nat) : Val × Bool :=
  if sf = 0x14 then (wVal (gr.quad r l), gr.quadP r l)
  else
    let v := gr.lane r l
    (if sf = 0x11 then f32 v else if sf = 0x12 then binVal fmtF16 (v.toNat % 2 ^ 16) else binVal fmtBF16 (v.toNat % 2 ^ 16),
     gr.laneP r l)

/-- Write an element to a register destination (R184). -/
def Group.putElem (gr : Group) (df r l bits : Nat) (p : Bool) : Group :=
  if df = 0x14 then gr.setQuad r l (BitVec.ofNat 80 bits) p else gr.setLane r l (BitVec.ofNat 32 bits) p

/-- A register operand in an element format is legal. -/
def elemReg (rpl fmt r : Nat) : Bool := if fmt = 0x14 then regQuad rpl r else r < rpl
where
  /-- An aligned quad below RPL. -/
  regQuad (rpl r : Nat) : Bool := r % 4 = 0 && r < rpl

/-- The registers of an element operand. -/
def elemSpan (fmt r : Nat) : List Nat := if fmt = 0x14 then [r, r + 1, r + 2, r + 3] else [r]

/-- Bytes of a block's mantissa field in format `c`. -/
def blockBytes (c : Nat) : Nat := 4 * elemBits c

/-- The mantissa and scale bases of a local-store descriptor (R184). -/
def descM (d : Word64) : Nat := fld d.toNat 19 0
/-- The scale-plane base. -/
def descS (d : Word64) : Nat := fld d.toNat 39 20

/-- The blocks of a descriptor lie in the stream's local store: `k` blocks (1 or 2). -/
def State.blocksOk (s : State) (x : Who) (c : Nat) (d : Word64) (k : Nat) : Bool :=
  s.lsOk x.core (isG x.strm) (descM d) (k * blockBytes c) && s.lsOk x.core (isG x.strm) (descS d) k

/-- The lowest address of a descriptor's blocks that is not mapped. -/
def State.blocksAddr (s : State) (x : Who) (c : Nat) (d : Word64) (k : Nat) : Nat :=
  if s.lsOk x.core (isG x.strm) (descM d) (k * blockBytes c) then lsAt x.core (descS d) else lsAt x.core (descM d)

/-- Read a block: scale, mantissa field, poison, and the state with errors found. -/
def State.getBlock (s : State) (g c : Nat) (mb sb : Nat) : Nat × Nat × Bool × State :=
  let s := (s.scrub (lsAt g mb) (blockBytes c)).scrub (lsAt g sb) 1
  let m := s.lsBytes g mb (blockBytes c)
  let e := m.2.lsBytes g sb 1
  (leNat e.1, leNat m.1, s.poisoned (lsAt g mb) (blockBytes c) || s.poisoned (lsAt g sb) 1, e.2)

/-- Local-store offset and length of the bytes that hold element `i` of block `b` of a descriptor's pair. -/
def elemAt (c : Nat) (d : Word64) (b i : Nat) : Nat × Nat :=
  let lo := elemBits c * i / 8
  (descM d + b * blockBytes c + lo, (elemBits c * i + elemBits c - 1) / 8 - lo + 1)

/-- Element `i` of block `b` of a descriptor's pair is poisoned: a word that holds its bits, or its scale's word, is (R54, R194). -/
def State.elemP (s : State) (g c : Nat) (d : Word64) (b i : Nat) : Bool :=
  s.poisoned (lsAt g (elemAt c d b i).1) (elemAt c d b i).2 || s.poisoned (lsAt g (descS d + b)) 1

/-- The first of some lanes, ascending, whose element or its scale byte is not mapped: its address (R132, R133). A masked lane
makes no access. -/
def State.elemsBad (s : State) (x : Who) (c : Nat) (d : Word64) (on : List Nat) : Option Nat :=
  on.findSome? fun l =>
    let e := elemAt c d (l / 32) (l % 32)
    if !(s.lsOk x.core (isG x.strm) e.1 e.2) then some (lsAt x.core e.1)
    else if !(s.lsOk x.core (isG x.strm) (descS d + l / 32) 1) then some (lsAt x.core (descS d + l / 32)) else none

/-- The words that hold the elements of some lanes and their scale bytes are read: errors are found. -/
def State.elemScrub (s : State) (g c : Nat) (d : Word64) (on : List Nat) : State :=
  on.foldl (fun s l =>
    let e := elemAt c d (l / 32) (l % 32)
    (s.scrub (lsAt g e.1) e.2).scrub (lsAt g (descS d + l / 32)) 1) s

/-- Block `b` of a descriptor's pair as some lanes read it: its scale and its mantissa field, nothing where no lane of the
block is unmasked. -/
def State.getDesc (s : State) (g c : Nat) (d : Word64) (b : Nat) (on : List Nat) : (Nat × Nat) × State :=
  if on.all fun l => l / 32 ≠ b then ((0, 0), s)
  else
    let m := s.lsBytes g (descM d + b * blockBytes c) (blockBytes c)
    let e := m.2.lsBytes g (descS d + b) 1
    ((leNat e.1, leNat m.1), e.2)

/-- Write a block of mantissa width `m`: field, scale, poison. -/
def State.putBlock (s : State) (g m mb sb scale field : Nat) (p : Bool) : State :=
  (s.lsWrite (lsAt g mb) [] (leBytes (4 * m) field) p).lsWrite (lsAt g sb) [] [BitVec.ofNat 8 scale] p

/-- Write block `b` of a descriptor's pair. -/
def State.putDesc (s : State) (g m : Nat) (d : Word64) (b scale field : Nat) (p : Bool) : State :=
  s.putBlock g m (descM d + b * 4 * m) (descS d + b) scale field p

/-! ### The conversions (R184) -/

/-- Fields of format C (R174). -/
def cVR (n : Nat) : Nat := fld n 52 45
/-- VS. -/
def cVS (n : Nat) : Nat := fld n 44 37
/-- UB. -/
def cUB (n : Nat) : Nat := fld n 36 32
/-- SF. -/
def cSF (n : Nat) : Nat := fld n 31 27
/-- DF. -/
def cDF (n : Nat) : Nat := fld n 26 22
/-- SLOT. -/
def cSlot (n : Nat) : Nat := fld n 21 16
/-- UK. -/
def cUK (n : Nat) : Nat := fld n 15 11

/-- What every conversion checks beside its pair: the slot, the key descriptor, the reserved bits. -/
def convOk (st : Stream) (n : Nat) (h : Bool) : Bool :=
  slotOk st (cSlot n) && cUK n + 2 ≤ 31 && fld n 9 0 = 0 && (h || bit n 10 = 0)

/-- The poison of the noise key. -/
def Group.keyP (gr : Group) (uk : Nat) : Bool := gr.unifP uk || gr.unifP (uk + 1) || gr.unifP (uk + 2)

/-- Registers of the noise key. -/
def keyRegs (n : Nat) : List Nat := [256 + cUK n, 257 + cUK n, 258 + cUK n]

/-- CVT (R184): register to register, lane by lane. -/
def execCvt (x : Who) (w : BitVec 56) (s : State) : Host.Outcome State Fault Refusal :=
  let n := w.toNat
  let g := x.core
  let sl := slotOf x.strm (cSlot n)
  .next (presentReg x (elemSpan (cDF n) (cVR n) ++ elemSpan (cSF n) (cVS n) ++ keyRegs n)
    (fun s _ => need (convOk x.strm n false && cUB n = 0 && cvtPair (cSF n) (cDF n)
      && elemReg (s.rpl x) (cDF n) (cVR n) && elemReg (s.rpl x) (cSF n) (cVS n)))
    (fun s gr =>
      let key := s.castKey gr g sl (cUK n)
      let kp := gr.keyP (cUK n) || gr.maskP (mkOf n)
      let on := gr.onLanes (mkOf n)
      let jb := key.2.2.2
      let r := castScalars (cDF n) (s.modes g sl) key (on.map fun l =>
        let e := gr.elemOf (cSF n) (cVS n) l
        (jb + l, e.1, e.2 || kp))
      (s.countCast g sl r.2).regEff x (fun h => (on.zip r.1).foldl (fun h e =>
          h.putElem (cDF n) (cVR n) e.1 e.2.2.1 e.2.2.2) h)
        (r.1.any fun e => e.2.2)) s)

/-- CASTL (R184): a block pair to a register. -/
def execCastl (x : Who) (w : BitVec 56) (s : State) : Host.Outcome State Fault Refusal :=
  let n := w.toNat
  let g := x.core
  let sl := slotOf x.strm (cSlot n)
  .next (presentReg x (elemSpan (cDF n) (cVR n) ++ [256 + cUB n] ++ keyRegs n)
    (fun s gr =>
      let d := gr.unif (cUB n)
      if !(convOk x.strm n false && cVS n = 0 && castlPair (cSF n) (cDF n) && elemReg (s.rpl x) (cDF n) (cVR n)
          && descM d % 4 = 0) then some (illegal, 0)
      else (s.elemsBad x (cSF n) d (gr.onLanes (mkOf n))).map fun a => (addrFault, a))
    (fun s gr =>
      let d := gr.unif (cUB n)
      let on := gr.onLanes (mkOf n)
      let s := s.elemScrub g (cSF n) d on
      let b0 := s.getDesc g (cSF n) d 0 on
      let b1 := b0.2.getDesc g (cSF n) d 1 on
      let s := b1.2
      let key := s.castKey gr g sl (cUK n)
      let kp := gr.keyP (cUK n) || gr.maskP (mkOf n) || gr.unifP (cUB n)
      let r := castScalars (cDF n) (s.modes g sl) key (on.map fun l =>
        let b := if l < 32 then b0.1 else b1.1
        (key.2.2.2 + l, blockVal (cSF n) b.1 b.2 (l % 32), s.elemP g (cSF n) d (l / 32) (l % 32) || kp))
      (s.countCast g sl r.2).regEff x (fun h => (on.zip r.1).foldl (fun h e =>
          h.putElem (cDF n) (cVR n) e.1 e.2.2.1 e.2.2.2) h)
        (r.1.any fun e => e.2.2)) s)

/-- Cast a block of 32 inputs to BSm and write it as block `b` of the descriptor. -/
def State.castBlock (s : State) (g sl m : Nat) (key : CastKey) (d : Word64) (b : Nat) (xs : List (Val × Bool)) : State :=
  let r := castToBs m (s.modes g sl) key (key.2.2.2 + 32 * b) xs
  (s.countCast g sl r.2.2.2).putDesc g m d b r.1 (packMants m r.2.1) r.2.2.1

/-- Until a later ac, reads of the blocks a cast writes are unpredictable (R186): it writes them `L` fc after its issue. -/
def State.freshen (s : State) (g m : Nat) (d : Word64) (k : Nat) : State :=
  s.modCore g fun c => { c with fresh := c.fresh ++ [(descM d, k * 4 * m), (descS d, k)] }

/-- CASTS (R184): a register to a block pair; masked lanes enter as +0 (R132). -/
def execCasts (x : Who) (w : BitVec 56) (s : State) : Host.Outcome State Fault Refusal :=
  let n := w.toNat
  let g := x.core
  let sl := slotOf x.strm (cSlot n)
  let k := if bit n 10 = 1 then 1 else 2
  .next (presentReg x (elemSpan (cSF n) (cVR n) ++ [256 + cUB n] ++ keyRegs n)
    (fun s gr =>
      let d := gr.unif (cUB n)
      if !(convOk x.strm n true && cVS n = 0 && castsPair (cSF n) (cDF n) && elemReg (s.rpl x) (cSF n) (cVR n)
          && descM d % 4 = 0) then some (illegal, 0)
      else if s.blocksOk x (cDF n) d k then none else some (addrFault, s.blocksAddr x (cDF n) d k))
    (fun s gr =>
      let d := gr.unif (cUB n)
      let key := s.castKey gr g sl (cUK n)
      let kp := gr.keyP (cUK n) || gr.maskP (mkOf n) || gr.unifP (cUB n)
      let inp (l : Nat) : Val × Bool := if gr.on (mkOf n) l then gr.elemOf (cSF n) (cVR n) l else (.fin false 0 0, false)
      let s := (List.range k).foldl (fun s b => s.castBlock g sl (cDF n) key d b
        ((List.range 32).map fun i => ((inp (32 * b + i)).1, (inp (32 * b + i)).2 || kp))) s
      (s.freshen g (cDF n) d k).poisEvent (s.flaskOf x) (kp || (List.range (32 * k)).any fun l => (inp l).2)) s)

/-- CASTM (R63, R184): a block pair to a block pair. Between MXI8 and BS8 the bits are copied and no slot changes; there a
masked lane's mantissa is 0 and the block keeps the source's scale, though its mantissas may all be 0; a block with no unmasked
lane is not read and has scale 0 (R47; DESIGN CHOICE, log entry 66). -/
def execCastm (x : Who) (w : BitVec 56) (s : State) : Host.Outcome State Fault Refusal :=
  let n := w.toNat
  let g := x.core
  let sl := slotOf x.strm (cSlot n)
  let k := if bit n 10 = 1 then 1 else 2
  let us := cVR n % 32
  let copy : Bool := (cSF n = 0x15 && cDF n = 8) || (cSF n = 8 && cDF n = 0x15)
  .next (presentReg x ([256 + us, 256 + cUB n] ++ keyRegs n)
    (fun s gr =>
      let a := gr.unif us
      let d := gr.unif (cUB n)
      if !(convOk x.strm n true && cVS n = 0 && cVR n < 32 && castmPair (cSF n) (cDF n) && descM d % 4 = 0
          && descM a % 4 = 0) then some (illegal, 0)
      else if let some b := s.elemsBad x (cSF n) a ((gr.onLanes (mkOf n)).filter (· < 32 * k)) then some (addrFault, b)
      else if s.blocksOk x (cDF n) d k then none else some (addrFault, s.blocksAddr x (cDF n) d k))
    (fun s gr =>
      let a := gr.unif us
      let d := gr.unif (cUB n)
      let key := s.castKey gr g sl (cUK n)
      let kp := gr.keyP (cUK n) || gr.maskP (mkOf n) || gr.unifP (cUB n) || gr.unifP us
      let ls := (gr.onLanes (mkOf n)).filter (· < 32 * k)
      let src := (List.range k).foldl (fun (p : List (Nat × Nat) × State) b =>
        let r := p.2.getDesc g (cSF n) a b ls
        (p.1 ++ [r.1], r.2)) ([], s.elemScrub g (cSF n) a ls)
      let on (l : Nat) : Bool := gr.on (mkOf n) l
      let ep (b i : Nat) : Bool := on (32 * b + i) && src.2.elemP g (cSF n) a b i
      let s := (List.range k).foldl (fun s b =>
        let e := src.1.getD b (0, 0)
        if copy then
          let fieldOn := packMants 8 ((List.range 32).map fun i =>
            if e.1 ≠ 0xFF ∧ on (32 * b + i) then sgn 8 (elemRaw 8 e.2 i) else 0)
          s.putDesc g 8 d b e.1 fieldOn ((List.range 32).any (ep b) || kp)
        else
          s.castBlock g sl (cDF n) key d b ((List.range 32).map fun i =>
            if on (32 * b + i) then (blockVal (cSF n) e.1 e.2 i, ep b i || kp) else (.fin false 0 0, kp))) src.2
      (s.freshen g (cDF n) d k).poisEvent (s.flaskOf x) (kp || (List.range k).any fun b => (List.range 32).any (ep b))) s)

/-! ### Range-counter instructions (R187) -/

/-- A drain of the stream that names the slot has not been granted (R187). -/
def Core.slotBusy (c : Core) (st : Stream) (sl : Nat) : Bool :=
  c.mq.any fun m => m.who.strm = st && (match m.op with
    | .drain _ _ _ _ _ d sl' _ _ _ _ _ _ _ _ _ _ _ _ _ _ _ => d ≠ 0x14 && sl' = sl
    | _ => false)

/-- RCSET (R187): COR_RCCFG and COR_RCTID of the slot. -/
def execRcset (x : Who) (w : BitVec 56) (s : State) : Host.Outcome State Fault Refusal :=
  let n := w.toNat
  let sl := slotOf x.strm (cSlot n)
  .next (presentReg x [256 + cUB n]
    (fun _ _ => need (slotOk x.strm (cSlot n) && mkOf n = 0 && cVR n = 0 && cVS n = 0 && fld n 31 22 = 0 && fld n 15 0 = 0))
    (fun s gr =>
      let v := (gr.unif (cUB n)).toNat
      ((s.wn .RCCFG x.core sl (fld v 15 8 * 2 ^ 8 + fld v 2 0)).wn .RCTID x.core sl (fld v 63 32)).poisEvent (s.flaskOf x)
        (gr.unifP (cUB n))) s)

/-- The counter RCGET reads. -/
def rcReg (sf sl df : Nat) : Reg × Nat :=
  match sf with
  | 0 => (.RCOVF, sl)
  | 1 => (.RCFLU, sl)
  | 2 => (.RCNF, sl)
  | 3 => (.RCMAX, sl)
  | _ => (.RCHIST, histIdx sl df)

/-- RCGET (R187). -/
def execRcget (x : Who) (w : BitVec 56) (s : State) : Host.Outcome State Fault Refusal :=
  let n := w.toNat
  let sl := slotOf x.strm (cSlot n)
  .next (present x (fun s gr => gr.held false [256 + cVR n % 32] || (s.core x.core).slotBusy x.strm sl)
    (fun _ _ => need (slotOk x.strm (cSlot n) && mkOf n = 0 && cVR n < 32 && cVS n = 0 && cUB n = 0 && cSF n ≤ 4
      && (cSF n = 4 || cDF n = 0) && fld n 15 0 = 0))
    (fun s _ =>
      let r := rcReg (cSF n) sl (cDF n)
      s.regEff x (fun h => h.setUnif (cVR n) (s.rd r.1 x.core r.2) false) false) s)

/-- RCCLR (R187): the slot's counts are zeroed. -/
def execRcclr (x : Who) (w : BitVec 56) (s : State) : Host.Outcome State Fault Refusal :=
  let n := w.toNat
  let sl := slotOf x.strm (cSlot n)
  .next (present x (fun s gr => gr.held false [] || (s.core x.core).slotBusy x.strm sl)
    (fun _ _ => need (slotOk x.strm (cSlot n) && mkOf n = 0 && cVR n = 0 && cVS n = 0 && cUB n = 0 && fld n 31 22 = 0 && fld n 15 0 = 0))
    (fun s _ => s.clearSlot x.core sl) s)

end Sys2Proof.Machine
end

