-- ==== Sys2Proof/Machine/Matrix.lean ====
section
/-! DEFINITION. The bit-serial matrix array (R81 to R122, R188 to R190, R561): the matrix instructions, the grants of the
three ports, the landings in the edge file, the drains, and the zeroing of R115. A granted operation does in one
command what the manual spreads over its fc: timing is outside the model (log entry 2). -/

namespace Sys2Proof.Machine

/-! ### Decoding and checking (R83 to R86, R130, R188) -/

/-- Format of a stationary or serial operand: BS2 to BS16, or MXI8. -/
def mxFmt (c : Nat) : Bool := isBs c || c = 0x15

/-- Entries a row of a stream updates, as slots 0 to the first free level (R97). -/
def slotsTouched (lam tix : Nat) : Nat := ((List.range lam).find? fun l => bit tix l = 0).getD lam

/-- The entries of an operation's region (R86, R97, R113): under PAIR all λ + 1 slots of its rows. -/
def regionOfRows (eb m : Nat) (pair : Bool) (lam : Nat) : Nat × Nat := (eb, eb + (if pair then (lam + 1) * m else m))

/-- Slots a drain reads (R99). -/
def slotsRead (lam tiles : Nat) : List Nat :=
  if tiles = 0 then [] else if tiles = 2 ^ lam then [lam] else (List.range lam).filter fun l => bit tiles l = 1

/-- The edge entries an operation reads or writes (R130, R561). -/
def MOp.entries : MOp → List Nat
  | .load .. => []
  | .stream _ _ _ m eb pair lam tix _ _ _ _ =>
    if pair then (List.range (slotsTouched lam tix + 1)).flatMap fun l => (List.range m).map fun v => eb + l * m + v
    else (List.range m).map (eb + ·)
  | .drain eb m pair lam _ _ _ _ _ _ _ _ _ _ _ tiles _ _ _ _ _ _ =>
    if pair then (slotsRead lam tiles).flatMap fun l => (List.range m).map fun v => eb + l * m + v
    else if tiles = 0 then [] else (List.range m).map (eb + ·)

/-- The plane an operation uses. -/
def MOp.plane : MOp → Option Nat
  | .load pl .. => some pl
  | .stream pl .. => some pl
  | .drain .. => none

/-- The issuing stream's edge window (R130). -/
def State.edgeWindow (s : State) (g : Nat) (st : Stream) : Nat × Nat :=
  let efb := s.rf .EWIN g 0 8 0
  let ebe := s.rf .EWIN g 0 24 16
  match st with
  | .f => (0, efb)
  | .b => (efb, ebe)
  | _ => (ebe, 256)

/-- Bytes of an epilogue operand element (EPF 0 F32, 1 F16, 2 BF16, 3 W80). -/
def epSize (epf : Nat) : Nat := if epf = 0 then 4 else if epf = 3 then 16 else 2

/-- Index of the epilogue operand of output (r, c) (R102). -/
def epIdx (eps ers r c : Nat) : Nat := if eps = 0 then r * ers + c else if eps = 1 then c else r

/-- Local-store ranges of an operation: offset and length. A vector of an MSTREAM occupies two blocks (R92). -/
def MOp.ranges : MOp → List (Nat × Nat)
  | .load _ _ fmt _ _ mb sb => [(mb, 512 * elemBits fmt), (sb, 128)]
  | .stream _ _ fmt m _ _ _ _ _ mb sb vs =>
    (List.range m).flatMap fun v => [(mb + v * vs * blockBytes fmt, 2 * blockBytes fmt), (sb + v * vs, 2)]
  | .drain _ m _ _ nw dfmt _ epi epf eps db dsb epb drs ers _ _ _ _ _ _ _ =>
    drainOuts m nw dfmt db dsb drs
    ++ (if epi = 0 then [] else (List.range m).flatMap fun r => (List.range nw).map fun c =>
        (epb + epIdx eps ers r c * epSize epf, epSize epf))

/-- The parameter checks of R86 and R130. -/
def MOp.legal (win : Nat × Nat) (o : MOp) : Bool :=
  (o.entries.all fun e => win.1 ≤ e && e < win.2) &&
  (match o with
    | .load _ _ fmt _ _ mb _ => mxFmt fmt && mb % 4 = 0
    | .stream _ _ fmt m eb pair lam tix start mb _ vs =>
      mxFmt fmt && mb % 4 = 0 && vs ≠ 0 && lam ≤ 20
        && (if pair then !start && tix < 2 ^ lam && eb + (lam + 1) * m ≤ 256 else lam = 0 && eb + m ≤ 256)
    | .drain eb m pair lam _ dfmt slot epi epf eps db _ epb drs ers tiles _ _ _ _ _ _ =>
      (isBs dfmt || dfmt = 0x11 || dfmt = 0x14) && lam ≤ 20 && slot < 56 && (dfmt ≠ 0x14 || slot = 0) && epi < 3 && eps < 3
        && (if pair then tiles ≤ 2 ^ lam && eb + (lam + 1) * m ≤ 256 else lam = 0 && tiles ≤ 1 && eb + m ≤ 256)
        && drs ≠ 0 && db % (if dfmt = 0x14 then 16 else 4) = 0
        && epb % epSize epf = 0 && ers ≠ 0)

/-- MLOAD's operation. -/
def decodeLoad (gr : Group) (n : Nat) : MOp :=
  let d := gr.unif (fld n 55 51)
  .load (bit n 50) (bit n 49 = 1) (fld n 48 44) (fld n 43 38 + 1) (bit n 37 + 1) (descM d) (descS d)

/-- MSTREAM's operation. Under UNSP, TIX is not read. -/
def decodeStream (gr : Group) (n : Nat) : MOp :=
  let d := gr.unif (fld n 55 51)
  let pair : Bool := bit n 22 = 1
  .stream (bit n 45) (bit n 44 = 1) (fld n 43 39) (fld n 38 31 + 1) (fld n 30 23) pair (fld n 21 17)
    (if pair then fld (gr.unif (fld n 50 46)).toNat 19 0 else 0) (bit n 16 = 1) (descM d) (descS d) (fld d.toNat 51 40)

/-- MDRAIN's operation; the slot's modes and tensor id are sampled at issue (R75). -/
def decodeDrain (s : State) (gr : Group) (g n : Nat) : MOp :=
  let a := fld n 55 51
  let k := fld n 50 46
  let d0 := gr.unif a
  let d1 := (gr.unif (a + 1)).toNat
  let slot := fld n 12 7
  .drain (fld n 45 38) (fld n 37 30 + 1) (bit n 29 = 1) (fld n 28 24) (fld n 23 18 + 1) (fld n 17 13) slot (fld n 6 5)
    (fld n 4 3) (fld n 2 1) (descM d0) (descS d0) (fld d0.toNat 59 40) (fld d1 11 0) (fld d1 23 12) (fld d1 44 24)
    (fld (gr.unif (a + 2)).toNat 31 0) (gr.unif k) (BitVec.ofNat 64 ((gr.unif (k + 1)).toNat % 2 ^ 32))
    ((gr.unif (k + 2)).toNat % 2 ^ 48) (s.rd .RCCFG g slot) (s.rd .RCTID g slot)

/-- The stream's queue for a port has room: 4 operations per stream (R136). -/
def Core.room (c : Core) (st : Stream) (port : Nat) : Bool :=
  (c.mq.filter fun m => m.who.strm = st && m.op.port = port).length < 4

/-- The cells that the operands of an MLOAD or MSTREAM hold (R190). -/
def State.operandCells (s : State) (g : Nat) (o : MOp) : List Host.Cell :=
  if o.port = 2 then []
  else s.mem.filter fun c => o.ranges.any fun r => lsAt g r.1 ≤ c.1 && c.1 < lsAt g (r.1 + r.2)

/-- Issue a matrix instruction (R82, R86, R130, R136, R189, R193). -/
def matrix (x : Who) (ok : Nat → Bool) (port : Nat) (regs : List Nat) (dec : State → Group → MOp) (p : Group → Bool)
    (n : Nat) (s : State) : State :=
  present x (fun s gr => gr.held false regs || (!(isG x.strm) && !((s.core x.core).room x.strm port)))
    (fun s gr =>
      let o := dec s gr
      if isG x.strm || !(ok n) || !(o.legal (s.edgeWindow x.core x.strm)) then some (illegal, 0)
      else (o.ranges.find? fun r => !(s.lsOk x.core false r.1 r.2)).map fun r => (addrFault, r.1))
    (fun s gr => (s.modCore x.core fun c => { c with mq := c.mq ++ [{ who := x, pc := gr.pc, op := dec s gr, old := s.operandCells x.core (dec s gr) }] }).poisEvent
      (s.flaskOf x) (p gr)) s

/-- MLOAD (R83, R188). -/
def execMload (x : Who) (w : BitVec 56) (s : State) : Host.Outcome State Fault Refusal :=
  let n := w.toNat
  .next (matrix x (fun n => fld n 36 0 = 0) 0 [256 + fld n 55 51] (fun _ gr => decodeLoad gr n)
    (fun gr => gr.unifP (fld n 55 51)) n s)

/-- MSTREAM (R84, R188). u(UB) is read under PAIR only. -/
def execMstream (x : Who) (w : BitVec 56) (s : State) : Host.Outcome State Fault Refusal :=
  let n := w.toNat
  .next (matrix x (fun n => fld n 15 0 = 0) 1
    (if bit n 22 = 1 then [256 + fld n 55 51, 256 + fld n 50 46] else [256 + fld n 55 51]) (fun _ gr => decodeStream gr n)
    (fun gr => gr.unifP (fld n 55 51) || (bit n 22 = 1 && gr.unifP (fld n 50 46))) n s)

/-- MDRAIN (R85, R188). -/
def execMdrain (x : Who) (w : BitVec 56) (s : State) : Host.Outcome State Fault Refusal :=
  let n := w.toNat
  let a := fld n 55 51
  let k := fld n 50 46
  .next (matrix x (fun n => bit n 0 = 0 && fld n 55 51 ≤ 29 && fld n 50 46 ≤ 29) 2
    [256 + a, 257 + a, 258 + a, 256 + k, 257 + k, 258 + k] (fun s gr => decodeDrain s gr x.core n)
    (fun gr => (List.range 3).any fun i => gr.unifP (a + i) || gr.unifP (k + i)) n s)

/-! ### Grants (R113, R561) -/

/-- Two operations of a stream conflict: same plane, or overlapping edge entries (R561). -/
def MOp.conflicts (a b : MOp) : Bool :=
  (a.plane.isSome && a.plane = b.plane) || a.entries.any fun e => b.entries.contains e

/-- An earlier operation of the same stream in the queue conflicts. -/
def blocked (q : MQ) : List MQ → Bool
  | [] => false
  | e :: l => if e = q then false else (e.who.strm = q.who.strm && e.op.conflicts q.op) || blocked q l

/-- The operation a port is granted to: the first of each stream for the port, by priority F, B, U, that qualifies. -/
def Core.pick (c : Core) (port : Nat) (ready : MOp → Bool) : Option MQ :=
  if c.zero then none
  else
    [Stream.f, Stream.b, Stream.u].findSome? fun st =>
      match c.mq.find? fun e => e.who.strm = st && e.op.port = port with
      | some e => if ready e.op && !(blocked e c.mq) then some e else none
      | none => none

/-- The queue without an operation. -/
def unqueue (q : MQ) : List MQ → List MQ
  | [] => []
  | e :: l => if e = q then l else e :: unqueue q l

/-- Change plane `pl`. -/
def Core.modPlane (c : Core) (pl : Nat) (f : Plane → Plane) : Core := { c with planes := modAt f pl c.planes }

/-- The plane of a core. -/
def Core.plane (c : Core) (pl : Nat) : Plane := c.planes.getD pl (Plane.zeroTile false)

/-! ### MLOAD: the tile (R87 to R91) -/

/-- The tile's active block: column below NC, half below KB (R91). -/
def activeBlock (nc kb b : Nat) : Bool := b / 2 < nc && b % 2 < kb

/-- QUAD alignment of a mantissa (R89): held value and whether it changed. -/
def alignMant (m q e : Nat) (v : Int) : Int × Bool :=
  let sh : Int := 16 - m - ((q : Int) - e)
  if 0 ≤ sh then (v * 2 ^ sh.toNat, false)
  else
    (rneSigned v (-sh).toNat, v % ((2 ^ (-sh).toNat : Nat) : Int) ≠ 0)

/-- The plane an MLOAD leaves, and how many elements QUAD alignment changed (R88 to R91, R106). -/
def loadPlane (quad : Bool) (m nc kb : Nat) (blk : Nat → Nat × Nat × Bool) (st : Stream) : Plane × Nat :=
  let act := (List.range 128).filter (activeBlock nc kb)
  let quadOf (b : Nat) : Nat := 2 * (b % 2) + b / 64
  let qs := (List.range 4).map fun k => act.filter fun b => quadOf b = k
  let qScale := qs.map fun l => l.foldl (fun a b => max a (blk b).1) 0
  let qPois := qs.map fun l => l.any fun b => (blk b).2.2
  let sc (b : Nat) : Nat := if quad then qScale.getD (quadOf b) 0 else (blk b).1
  let els := act.flatMap fun b => (List.range 32).map fun i =>
    let v := sgn m (elemRaw m (blk b).2.1 i)
    let key := 64 * (b / 2) + 32 * (b % 2) + i
    if quad then
      if sc b = 0xFF then (key, (0 : Int), false)
      else
        let a := alignMant m (sc b) (blk b).1 v
        (key, a.1, a.2)
    else (key, v * 2 ^ (16 - m), false)
  ({ quad := quad, nc := nc, kb := kb,
     mant := els.foldl (fun l e => Sparse.set 0 l e.1 e.2.1) [],
     scale := (List.range 128).foldl (fun l b =>
       Sparse.set 0 l b (if quad then qScale.getD (quadOf b) 0 else if activeBlock nc kb b then (blk b).1 else 0)) [],
     pois := (List.range 128).filter fun b =>
       if quad then qPois.getD (quadOf b) false else activeBlock nc kb b && (blk b).2.2,
     bad := [], ready := false, loading := some st },
   (els.filter fun e => e.2.2).length)

/-- Two cell lists differ at an address, below their common default. -/
def cellsDiffer (old new : List Host.Cell) : List Nat :=
  ((old.map (·.1) ++ new.map (·.1)).filter fun a => Sparse.get 0 old a ≠ Sparse.get 0 new a).eraseDups

/-- The memory an MLOAD or MSTREAM of core `g` reads at its grant (R190): a byte written since the issue reads as it was or
as it is. -/
def State.operandMem (s : State) (g : Nat) (q : MQ) : State :=
  (cellsDiffer q.old (s.operandCells g q.op)).foldl (fun s a =>
    let b := s.freeB
    if b.1 then { b.2 with mem := Sparse.set 0 s.mem a (Sparse.get 0 q.old a) } else b.2) s

/-- Read `k` blocks of a tensor from local store. -/
def State.readBlocks (s : State) (g fmt mb sb : Nat) (ks : List Nat) : List (Nat × Nat × Bool) × State :=
  ks.foldl (fun p k =>
    let r := p.2.getBlock g fmt (mb + k * blockBytes fmt) (sb + k)
    (p.1 ++ [(r.1, r.2.1, r.2.2.1)], r.2.2.2)) ([], s)

/-- The fc count of core `g`'s cluster (R487). -/
def State.fcOf (s : State) (g : Nat) : Nat := s.rn .FCNT (g / 64) 0

/-- A port is granted to a stream, to be free after `n` fc (R112). -/
def State.occupy (s : State) (g port : Nat) (st : Stream) (n : Nat) : State :=
  s.modCore g fun c => { c with ports := c.ports.set port (some (st, s.fcOf g + n)) }

/-- A port is known to be free: the event that follows its last use has come. -/
def Core.release (c : Core) (port : Nat) : Core := { c with ports := c.ports.set port none }

/-- As `release`, where the stream was the last to be granted it. -/
def Core.releaseIf (c : Core) (port : Nat) (st : Stream) : Core :=
  match c.ports.getD port none with
  | some (t, _) => if t = st then c.release port else c
  | none => c

/-- The stream that occupies a port now (R112, R118). -/
def State.holder (s : State) (g port : Nat) : Option Stream :=
  match (s.core g).ports.getD port none with
  | some (st, n) => if s.fcOf g < n then some st else none
  | none => none

/-- MLOAD_GRANT (R112, R113): the row port takes the next MLOAD, and the plane's rows are written. -/
def execMloadGrant (g : Nat) (s : State) : Host.Outcome State Fault Refusal :=
  .next (match (s.core g).pick 0 fun _ => true with
    | some q =>
      match q.op with
      | .load pl quad fmt nc kb mb sb =>
        let r := (s.operandMem g q).readBlocks g fmt mb sb (List.range 128)
        let p := loadPlane quad (elemBits fmt) nc kb (fun b => r.1.getD b (0, 0, false)) q.who.strm
        let s := (State.modCore { r.2 with mem := s.mem } g fun c =>
          { c with mq := unqueue q c.mq, planes := c.planes.set pl p.1 }).addSat .MXALN g 0 32 p.2
        let s := s.occupy g 0 q.who.strm (64 + 4 * (if quad then 1 else 0))
        s.poisEvent (s.flaskOf q.who) (!p.1.pois.isEmpty)
      | _ => s
    | none => s)

/-- PLANE_READY (R112): the plane of the MLOAD in flight becomes ready. -/
def execPlaneReady (g pl : Nat) (s : State) : Host.Outcome State Fault Refusal :=
  .next (if ((s.core g).plane pl).loading.isSome then
      s.modCore g fun c => (c.modPlane pl fun p => { p with ready := true, loading := none }).release 0
    else s)

/-! ### MSTREAM: half-sums (R92 to R95) -/

/-- Contraction blocks each vector carries (R92). -/
def Plane.blocks (p : Plane) (trans : Bool) : Nat := if trans then (if p.nc ≤ 32 then 1 else 2) else p.kb

/-- Held mantissa of a row and column. -/
def Plane.held (p : Plane) (r c : Nat) : Int := Sparse.get 0 p.mant (64 * c + r)

/-- Half-sum `h` of output `o` (R94, R95, R106): its W80 value and poison. `x` is the serial block. -/
def Plane.halfSum (p : Plane) (trans : Bool) (m o h : Nat) (x : Nat × Nat × Bool) : Wide × Bool :=
  let blk := if trans then 2 * (32 * h) + o / 32 else 2 * o + h
  let es := Sparse.get 0 p.scale blk
  let acc := (List.range 32).foldl (fun (a : Int) i =>
    a + (if trans then p.held o (32 * h + i) else p.held (32 * h + i) o) * sgn m (elemRaw m x.2.1 i)) 0
  let bad := if trans then p.bad.contains o else (List.range 32).any fun i => p.bad.contains (32 * h + i)
  (if es = 0xFF ∨ x.1 = 0xFF then wNaN else toW (ofInt false acc ((es : Int) + x.1 - 266 - m)),
   p.pois.contains blk || x.2.2 || bad)

/-- Rows gated by slice bits over one vector's slices (R108, R121). In transposed reading the serial elements feed columns
(R92), and the active columns are counted in the rows' place (DESIGN CHOICE, log entry 66). -/
def Plane.gated (p : Plane) (trans : Bool) (m : Nat) (xs : List (Nat × Nat × Bool)) : Nat :=
  ((List.range xs.length).map fun h => ((List.range 32).map fun i =>
    let line := 32 * h + i
    if (if trans then decide (line < p.nc) else decide (line < 32 * p.kb)) then
      m - popcount m (elemRaw m (xs.getD h (0, 0, false)).2.1 i) else 0).sum).sum

/-- The state with a memory put back. -/
def State.withMem (m : List Host.Cell) (s : State) : State := { s with mem := m }

/-- One granted MSTREAM: its landings, in vector order (R110), and the counters. -/
def State.streamVectors (s : State) (g : Nat) (q : MQ) (p : Plane) (trans : Bool) (fmt m eb : Nat) (pair : Bool)
    (lam tix : Nat) (start : Bool) (mb sb vs : Nat) : State :=
  let a := p.blocks trans
  let w := elemBits fmt
  let gd := s.rf .MXCTL g 0 0 0
  let mem := s.mem
  let s := s.modCore g fun c => { c with mq := unqueue q c.mq }
  let s := (s.occupy g 1 q.who.strm (m * w)).operandMem g q
  State.withMem mem <| (List.range m).foldl (fun s v =>
    let r := s.readBlocks g fmt mb sb ((List.range a).map (v * vs + ·))
    let cols := lanes.map fun o => (List.range a).map fun h => p.halfSum trans w o h (r.1.getD h (0, 0, false))
    let l : Landing := { strm := q.who.strm, ent := eb + v, pair := pair, lam := lam, tix := tix, m := m, start := start,
                         cols := cols, last := v + 1 = m }
    let s := (r.2.modCore g fun c => { c with land := c.land ++ [l] }).addWrap .MXVEC g 0 1
    let s := s.addWrap .MXGATE g 0 (if gd = 1 then 0 else p.gated trans w r.1)
    s.poisEvent (s.flaskOf q.who) (cols.any fun c => c.any Prod.snd)) s

/-- Grant the serial port, skipping operations that fail the check made at grant: TRANS against the plane's tile (R86, R92). -/
def streamGrant (g : Nat) : Nat → State → State
  | 0, s => s
  | k + 1, s =>
    match (s.core g).pick 1 (fun o => match o.plane with
        | some pl => ((s.core g).plane pl).ready
        | none => false) with
    | some q =>
      match q.op with
      | .stream pl tr fmt m eb pair lam tix start mb sb vs =>
        let p := (s.core g).plane pl
        if tr && !p.quad then
          streamGrant g k ((s.modCore g fun c => { c with mq := unqueue q c.mq }).raise q.who illegal q.pc 0)
        else s.streamVectors g q p tr fmt m eb pair lam tix start mb sb vs
      | _ => s
    | none => s

/-- MSTREAM_GRANT (R112, R113). -/
def execMstreamGrant (g : Nat) (s : State) : Host.Outcome State Fault Refusal :=
  .next (streamGrant g (s.core g).mq.length s)

/-! ### The edge file (R96, R97, R107) -/

/-- Read an edge entry (R107): errors are corrected or poison the entry. What was found is not found again by a later read,
whether or not this read writes the entry back (DESIGN CHOICE, log entry 66). -/
def State.readEdge (s : State) (g col ent : Nat) : Wide × Bool × State :=
  let key := 256 * col + ent
  let s := match Sparse.get 0 s.m.eerr (g * 2 ^ 14 + key) with
    | 0 => s
    | e =>
      let s := { s with m := { s.m with eerr := Sparse.set 0 s.m.eerr (g * 2 ^ 14 + key) 0 } }
      if e = 1 then s.addFld .MXEDGE g 0 15 0 1
      else ((s.modCore g fun c => { c with edgeP := NSet.add key c.edgeP }).addFld .MXEDGE g 0 31 16 1).record 3 0x0012 4 g
        (s.coreHost g) ent 0 0
  (Sparse.get 0 (s.core g).edge key, NSet.has (s.core g).edgeP key, s)

/-- Write an edge entry with its poison: an error it held is lost (R107). -/
def State.writeEdge (s : State) (g col ent : Nat) (v : Wide) (p : Bool) : State :=
  let key := 256 * col + ent
  let s := { s with m := { s.m with eerr := Sparse.set 0 s.m.eerr (g * 2 ^ 14 + key) 0 } }
  s.modCore g fun c => { c with edge := Sparse.set 0 c.edge key v,
                                edgeP := if p then NSet.add key c.edgeP else NSet.del c.edgeP key }

/-- edge_pairwise of R97 from level `l`, with fuel. -/
def State.pairwise (s : State) (g col : Nat) (d : Landing) : Nat → Nat → Wide → Bool → State
  | 0, l, v, p => s.writeEdge g col (d.ent + l * d.m) v p
  | k + 1, l, v, p =>
    if l < d.lam ∧ bit d.tix l = 1 then
      let r := s.readEdge g col (d.ent + l * d.m)
      r.2.2.pairwise g col d k (l + 1) (wAdd r.1 v) (r.2.1 || p)
    else s.writeEdge g col (d.ent + l * d.m) v p

/-- One column of a landing (R96, R97). -/
def State.landCol (s : State) (g col : Nat) (d : Landing) : State :=
  let hs := d.cols.getD col []
  let hp := hs.any Prod.snd
  if d.pair then
    let node := match hs with
      | [] => wZero
      | h :: t => t.foldl (fun a b => wAdd a b.1) h.1
    s.pairwise g col d d.lam 0 node hp
  else if d.start then s.writeEdge g col d.ent (toW (hs.foldl (fun a b => vAdd a (wVal b.1)) (.fin false 0 0))) hp
  else
    let r := s.readEdge g col d.ent
    r.2.2.writeEdge g col d.ent (toW (hs.foldl (fun a b => vAdd a (wVal b.1)) (wVal r.1))) (r.2.1 || hp)

/-- EDGE_LANDING (R110): the oldest vector in flight lands. -/
def execEdgeLanding (g : Nat) (s : State) : Host.Outcome State Fault Refusal :=
  .next (match (s.core g).land with
    | [] => s
    | d :: l => lanes.foldl (fun s col => s.landCol g col d) (s.modCore g fun c =>
        let c := { c with land := l }
        if l.all fun e => e.strm ≠ d.strm then c.releaseIf 1 d.strm else c))

/-! ### MDRAIN (R99, R101 to R104) -/

/-- Complete the sum of output (r, col): value, poison, and the state with errors found. -/
def State.drainSum (s : State) (g eb m : Nat) (pair : Bool) (lam tiles r col : Nat) : Wide × Bool × State :=
  if tiles = 0 then (wZero, false, s)
  else
    let slots := if pair then slotsRead lam tiles else [0]
    let f := slots.foldl (fun (a : Option Wide × Bool × State) l =>
      let e := a.2.2.readEdge g col (eb + l * m + r)
      (some (match a.1 with
        | none => e.1
        | some c => wAdd e.1 c), a.2.1 || e.2.1, e.2.2)) (none, false, s)
    (f.1.getD wZero, f.2.1, f.2.2)

/-- The epilogue operand at local-store offset `o` (R50, R102). -/
def State.epOperand (s : State) (g epf o : Nat) : Wide × Bool × State :=
  let z := epSize epf
  let s := s.scrub (lsAt g o) z
  let bs := s.bytes (lsAt g o) z
  (if epf = 3 then wOfBytes bs
   else toW (if epf = 0 then binVal fmtF32 (leNat bs) else if epf = 1 then binVal fmtF16 (leNat bs) else binVal fmtBF16 (leNat bs)),
   s.poisoned (lsAt g o) z, s)

/-- One output of a drain after its epilogue. -/
def State.drainOut (s : State) (g eb m : Nat) (pair : Bool) (lam tiles epi epf eps epb ers r c : Nat) : Wide × Bool × State :=
  let v := s.drainSum g eb m pair lam tiles r c
  if epi = 0 then v
  else
    let e := v.2.2.epOperand g epf (epb + epIdx eps ers r c * epSize epf)
    ((if epi = 1 then wAdd v.1 e.1 else wMul v.1 e.1), v.2.1 || e.2.1, e.2.2)

/-- The outputs of one row; its entries in all 64 columns are read (R81). -/
def State.drainRow (s : State) (g eb m : Nat) (pair : Bool) (lam tiles epi epf eps epb ers nw r : Nat) :
    List (Wide × Bool) × State :=
  lanes.foldl (fun p c =>
    if c < nw then
      let o := p.2.drainOut g eb m pair lam tiles epi epf eps epb ers r c
      (p.1 ++ [(o.1, o.2.1)], o.2.2)
    else (p.1, (p.2.drainSum g eb m pair lam tiles r c).2.2)) ([], s)

/-- The casts of an F32 drain's row: output (r, c) has index JB + r × JS + c (R103). -/
def f32Row (j0 : Nat) (row : List (Wide × Bool)) : List (Nat × Val × Bool) :=
  (List.range row.length).map fun c =>
    let e := row.getD c (wZero, false)
    (j0 + c, wVal e.1, e.2)

/-- Write one row through the caster (R101, R103). The counts of an F32 drain are taken over the whole drain, since its
groups of 32 outputs may span rows (R71): `drainCount`. -/
def State.drainWrite (s : State) (g : Nat) (dfmt slot db dsb drs js : Nat) (seed step : Word64) (jb : Nat) (cfg tid : Word64)
    (r : Nat) (row : List (Wide × Bool)) : State :=
  let j0 := jb + r * js
  let key : CastKey := (seed, step, tid, j0)
  let md := castCfg cfg.toNat
  if dfmt = 0x14 then
    (List.range row.length).foldl (fun s c =>
      let e := row.getD c (wZero, false)
      s.lsWrite (lsAt g (db + (r * drs + c) * 16)) [] (wBytes e.1) e.2) s
  else if dfmt = 0x11 then
    let o := castScalars 0x11 md key (f32Row j0 row)
    (List.range row.length).foldl (fun s c =>
      let e := o.1.getD c (0, 0, false)
      s.lsWrite (lsAt g (db + (r * drs + c) * 4)) [] (leBytes 4 e.2.1) e.2.2) s
  else
    (List.range ((row.length + 31) / 32)).foldl (fun s b =>
      let xs := (List.range 32).map fun i =>
        let e := row.getD (32 * b + i) (wZero, false)
        (if 32 * b + i < row.length then wVal e.1 else .fin false 0 0, e.2)
      let o := castToBs dfmt md key (j0 + 32 * b) xs
      (s.countCast g slot o.2.2.2).putBlock g dfmt (db + (r * drs + b) * (4 * dfmt)) (dsb + r * drs + b) o.1
        (packMants dfmt o.2.1) o.2.2.1) s

/-- The counts of an F32 drain whose outputs have these indexes, values and poisons (R71). -/
def State.drainCount (s : State) (g dfmt slot : Nat) (seed step : Word64) (jb : Nat) (cfg tid : Word64)
    (xs : List (Nat × Val × Bool)) : State :=
  if dfmt = 0x11 then s.countCast g slot (castScalars 0x11 (castCfg cfg.toNat) (seed, step, tid, jb) xs).2 else s

/-- A landing is to come into the rows of a region. -/
def Landing.into (d : Landing) (r : Nat × Nat) : Bool :=
  (List.range ((if d.pair then slotsTouched d.lam d.tix else 0) + 1)).any fun l => r.1 ≤ d.ent + l * d.m && d.ent + l * d.m < r.2

/-- No landing is to come into a drain's region (R113). -/
def Core.drainFree (c : Core) : MOp → Bool
  | .drain eb m pair lam .. => c.land.all fun d => !(d.into (regionOfRows eb m pair lam))
  | _ => true

/-- MDRAIN_GRANT (R112, R113): no landing into the region is still to come; every row is read, completed and written. -/
def execMdrainGrant (g : Nat) (s : State) : Host.Outcome State Fault Refusal :=
  .next (match (s.core g).pick 2 (s.core g).drainFree with
    | some q =>
      match q.op with
      | .drain eb m pair lam nw dfmt slot epi epf eps db dsb epb drs ers tiles js seed step jb cfg tid =>
        let s := (s.modCore g fun c => { c with mq := unqueue q c.mq }).occupy g 2 q.who.strm
          (24 + (m - 1) + 12 * ((if tiles = 0 ∨ tiles = 2 ^ lam then 1 else popcount 21 tiles) - 1) + (if epi = 0 then 0 else 12))
        let p := (List.range m).foldl (fun (p : List (Nat × Val × Bool) × State) r =>
          let row := p.2.drainRow g eb m pair lam tiles epi epf eps epb ers nw r
          (p.1 ++ f32Row (jb + r * js) row.1,
           (row.2.drainWrite g dfmt slot db dsb drs js seed step jb cfg tid r row.1).poisEvent (s.flaskOf q.who)
            (row.1.any Prod.snd))) ([], s)
        p.2.drainCount g dfmt slot seed step jb cfg tid p.1
      | _ => s
    | none => s)

/-! ### Zeroing (R115) and the counter clears (R78, R122, R161, R307) -/

/-- Begin the zeroing of planes and edge file: queued operations and landings are gone with their flask. -/
def Core.startZero (c : Core) : Core :=
  { c with zero := true, mq := [], land := [], edge := [], edgeP := [], ports := [none, none, none],
           planes := [Plane.zeroTile false, Plane.zeroTile false] }

/-- The zeroing of an array ends (R115): both planes are ready with the zero tile. -/
def Core.endZero (c : Core) : Core :=
  if c.zero then { c with zero := false, planes := [Plane.zeroTile true, Plane.zeroTile true] } else c

/-- Errors held by the edge entries of a core are overwritten (R107). -/
def State.zeroArray (s : State) (g : Nat) : State :=
  let s := { s with m := { s.m with eerr := s.m.eerr.filter fun e => e.1 / 2 ^ 14 ≠ g } }
  s.modCore g Core.startZero

/-- ARRAY_ZEROING_END (R115): both planes are ready with the zero tile. -/
def execArrayZeroingEnd (g : Nat) (s : State) : Host.Outcome State Fault Refusal :=
  .next (if (s.core g).zero then s.modCore g Core.endZero else s)

/-- MXCLR_GATE (R122). -/
def execMxclrGate (g : Nat) (s : State) : Host.Outcome State Fault Refusal := .next (s.wn .MXGATE g 0 0)
/-- MXCLR_VEC (R122). -/
def execMxclrVec (g : Nat) (s : State) : Host.Outcome State Fault Refusal := .next (s.wn .MXVEC g 0 0)
/-- MXCLR_EDGE (R122). -/
def execMxclrEdge (g : Nat) (s : State) : Host.Outcome State Fault Refusal := .next (s.wn .MXEDGE g 0 0)
/-- MXCLR_ALN (R122). -/
def execMxclrAln (g : Nat) (s : State) : Host.Outcome State Fault Refusal := .next (s.wn .MXALN g 0 0)
/-- RCCLR_CLEAR (R78): a management write of COR_RCCLR[s].CLEAR. -/
def execRcclrClear (g slot : Nat) (s : State) : Host.Outcome State Fault Refusal := .next (s.clearSlot g slot)
/-- EXCLR_ATOM (R161). -/
def execExclrAtom (g : Nat) (s : State) : Host.Outcome State Fault Refusal := .next (s.wn .ATOM g 0 0)
/-- Zero every COR_ISSUE[x] of a core. -/
def State.clearIssue (s : State) (g : Nat) : State := (List.range 4).foldl (fun s i => s.wn .ISSUE g i 0) s
/-- EXCLR_ISSUE (R161). -/
def execExclrIssue (g : Nat) (s : State) : Host.Outcome State Fault Refusal := .next (s.clearIssue g)
/-- SYNCCLR_POLL (R307). -/
def execSyncclrPoll (g : Nat) (s : State) : Host.Outcome State Fault Refusal := .next (s.wn .SYNCPOLL g 0 0)

end Sys2Proof.Machine
end

