-- ==== Sys2Proof/Machine/Link.lean ====
section
/-! DEFINITION. Fabric messages and their place on a port: the header (R321, R322), port choice (R319), transmit queues
(R324, R325), the FLOOR a source sends and the completion store (R330). -/

namespace Sys2Proof.Machine

/-! ### Header fields (R321) -/

/-- Opcode. -/
def mOp (m : Msg) : Nat := rfld m.w0 5 0
/-- Virtual channel. -/
def mVc (m : Msg) : Nat := rfld m.w0 7 6
/-- Destination node. -/
def mDst (m : Msg) : Nat := rfld m.w0 21 8
/-- Source node. -/
def mSrc (m : Msg) : Nat := rfld m.w0 35 22
/-- Job id. -/
def mJob (m : Msg) : Nat := rfld m.w0 51 36
/-- Data length in 4-byte units. -/
def mDlen (m : Msg) : Nat := rfld m.w0 60 52
/-- The data is poisoned. -/
def mPoi (m : Msg) : Bool := rfld m.w0 61 61 = 1
/-- Sequence number. -/
def mSeq (m : Msg) : Nat := rfld m.w1 31 0
/-- Flagged transfer: FT. -/
def mFt (m : Msg) : Bool := rfld m.w1 32 32 = 1
/-- Transfer slot. -/
def mTsl (m : Msg) : Nat := rfld m.w1 34 33
/-- GEN. -/
def mGen (m : Msg) : Bool := rfld m.w1 35 35 = 1
/-- FIN. -/
def mFin (m : Msg) : Bool := rfld m.w1 36 36 = 1
/-- Atomic operation. -/
def mAop (m : Msg) : Nat := rfld m.w1 40 37
/-- Old values returned. -/
def mRet (m : Msg) : Bool := rfld m.w1 41 41 = 1
/-- Operand size in bytes. -/
def mAsz (m : Msg) : Nat := if rfld m.w1 42 42 = 1 then 8 else 4
/-- Operations in the list. -/
def mNops (m : Msg) : Nat := rfld m.w1 48 43 + 1
/-- Completion status. -/
def mStatus (m : Msg) : Nat := rfld m.w1 52 49
/-- Offset at the destination. -/
def mOffset (m : Msg) : Nat := rfld m.w2 47 0
/-- Access length in bytes. -/
def mLen (m : Msg) : Nat := rfld m.w2 54 48 + 1
/-- Count of a flagged final write. -/
def mCnt (m : Msg) : Nat := rfld m.w3 25 0
/-- FLOOR. -/
def mFloor (m : Msg) : Nat := rfld m.w3 63 32

/-- Word 0 of a header. -/
def head0 (op vc dst src job dlen : Nat) (poi : Bool) : Word64 :=
  BitVec.ofNat 64 (op % 64 + vc % 4 * 2 ^ 6 + dst % 2 ^ 14 * 2 ^ 8 + src % 2 ^ 14 * 2 ^ 22 + job % 2 ^ 16 * 2 ^ 36
    + dlen % 2 ^ 9 * 2 ^ 52 + (if poi then 2 ^ 61 else 0))

/-- Word 1 of a header. -/
def head1 (seq : Nat) (flag : Option (Nat × Bool × Bool × Nat)) (aop : Nat) (ret : Bool) (asz nops status : Nat) :
    Word64 :=
  let fl := match flag with
    | some (tsl, gen, fin, _) => 2 ^ 32 + tsl % 4 * 2 ^ 33 + (if gen then 2 ^ 35 else 0) + (if fin then 2 ^ 36 else 0)
    | none => 0
  BitVec.ofNat 64 (seq % 2 ^ 32 + fl + aop % 16 * 2 ^ 37 + (if ret then 2 ^ 41 else 0) + (if asz = 8 then 2 ^ 42 else 0)
    + (nops - 1) % 64 * 2 ^ 43 + status % 16 * 2 ^ 49)

/-- Word 2 of a header. -/
def head2 (offset len : Nat) : Word64 := BitVec.ofNat 64 (offset % 2 ^ 48 + (len - 1) % 128 * 2 ^ 48)

/-- Word 3 of a header. -/
def head3 (cnt floor : Nat) : Word64 := BitVec.ofNat 64 (cnt % 2 ^ 26 + floor % 2 ^ 32 * 2 ^ 32)

/-- The bytes of a message on the wire. -/
def msgBytes (m : Msg) : List Byte :=
  leBytes 8 m.w0.toNat ++ leBytes 8 m.w1.toNat ++ leBytes 8 m.w2.toNat ++ leBytes 8 m.w3.toNat ++ m.data

/-- Bytes of the message that begins with these bytes, once its header is whole. -/
def msgSize (bs : List Byte) : Nat := 32 + 4 * fld (leAt bs 0 8) 60 52

/-- The message whose bytes these are. -/
def msgOf (bs : List Byte) : Msg :=
  { w0 := BitVec.ofNat 64 (leAt bs 0 8), w1 := BitVec.ofNat 64 (leAt bs 8 8), w2 := BitVec.ofNat 64 (leAt bs 16 8),
    w3 := BitVec.ofNat 64 (leAt bs 24 8), data := bs.drop 32 }

/-- Credits of 32 bytes a message takes (R324). -/
def msgCredits (m : Msg) : Nat := (32 + 4 * mDlen m + 31) / 32

/-- Data padded to 4-byte units. -/
def pad4 (bs : List Byte) : List Byte := bs ++ List.replicate (roundUp bs.length 4 - bs.length) 0

/-! ### Nodes and ports -/

/-- The module's node number is in force. -/
def State.nodeValid (s : State) : Bool := s.rf .NODE 0 0 31 31 = 1
/-- The module's node number. -/
def State.ownNode (s : State) : Nat := s.rf .NODE 0 0 13 0
/-- A port is up. -/
def State.portUp (s : State) (p : Nat) : Bool := s.rf .LNKSTAT p 0 0 0 = 1
/-- A port's link state. -/
def State.port (s : State) (p : Nat) : Port := s.fab.ports.getD p Port.init
/-- The state with a port changed. -/
def State.modPort (s : State) (p : Nat) (f : Port → Port) : State :=
  { s with fab := { s.fab with ports := modAt f p s.fab.ports } }

/-- The up ports of a route (R319). -/
def State.upPorts (s : State) (d : Nat) : List Nat := (setBits 16 (s.rn .ROUTE 0 d)).filter s.portUp

/-- The port for a destination and an offset among the up ports given (R319). -/
def State.pickAmong (_s : State) (up : List Nat) (d offset : Nat) : Option Nat :=
  let mine := up.filter fun p => p / 8 = d % 2
  let l := if mine = [] then up else mine
  if l = [] then none
  else
    let h := (mix (BitVec.ofNat 64 (d * 2 ^ 48) ^^^ BitVec.ofNat 64 (offset / 128))).toNat / 2 ^ 32
    l[h % l.length]?

/-- The port for a destination and an offset (R319). -/
def State.pickPort (s : State) (d offset : Nat) : Option Nat := s.pickAmong (s.upPorts d) d offset

/-- A message accepted at a port's transmit queue, for a flask. -/
def State.txPush (s : State) (p flask : Nat) (m : Msg) : State :=
  s.modPort p fun q => { q with tx := q.tx ++ [(mVc m, flask, m)] }

/-- A message discarded by a port (R322, R331). -/
def State.dropMsg (s : State) (p : Nat) : State := s.addSat .DROP p 0 32 1

/-- Last number used toward a destination. -/
def State.lastSeq (s : State) (d : Nat) : Nat := Sparse.get 0 s.fab.seq d

/-- FLOOR toward a destination (R321): every number before it has received its completion. Requests stay in `outs` in the
order of their numbers. -/
def State.floorOf (s : State) (d : Nat) : Nat :=
  match s.fab.outs.find? fun o => o.dst = d with
  | some o => o.seq
  | none => (s.lastSeq d + 1) % 2 ^ 32

/-- JOBID of a flask's active job entry. -/
def State.jobId (s : State) (f : Nat) : Nat := s.rf .JACT f 0 15 0

/-! ### Requests as messages (R322, R562) -/

/-- The operands a request brings to its point of coherence: those of a core as it combines them (R150), those of another node as
they came (R322). -/
def Req.operands (q : Req) : List (Nat × Nat) :=
  match q.src with
  | .node _ _ => q.ops
  | _ => carried q.aop q.sz q.ops

/-- A value of `n` bytes for each operation; a compare-and-swap gives its compare value and then its swap value. -/
def opsBytes (aop sz : Nat) (ops : List (Nat × Nat)) : List Byte :=
  (ops.map fun o => if aop = 0xC then leBytes sz o.2 ++ leBytes sz o.1 else leBytes sz o.1).flatten

/-- The mask bytes of a WRM. -/
def maskBytes (mask : List Bool) : List Byte :=
  leBytes 16 ((List.range 128).foldl (fun a i => a + (if mask.getD i false then 2 ^ i else 0)) 0)

/-- First byte of its line and length of what a read asks another node for: the whole line when the core cache may keep
it, else the bytes its lanes span (R198, R263; log entry 65). -/
def Req.span (q : Req) : Nat × Nat :=
  if q.lanes.isEmpty || q.alloc then (fld q.addr 6 0, q.size)
  else
    let as := q.lanes.map fun e => e.2 % 128
    let lo := as.foldl min 127
    (lo, as.foldl max 0 + q.sz - lo)

/-- The request of a module as a message toward node `d` with number `seq`. -/
def State.reqMsg (s : State) (q : Req) (d seq : Nat) : Msg :=
  let off := fld q.addr 47 0
  let job := s.jobId q.flask
  let cnt := match q.flag with
    | some (_, _, true, n) => n
    | _ => 0
  let mk (op : Nat) (data : List Byte) (aop : Nat) (ret : Bool) (asz nops len : Nat) : Msg :=
    { w0 := head0 op 0 d s.ownNode job (data.length / 4) q.pois, w1 := head1 seq q.flag aop ret asz nops 0,
      w2 := head2 off len, w3 := head3 cnt (s.floorOf d), data := data }
  match q.kind with
  | .read =>
    let m := mk 1 [] 0 false 4 1 q.span.2
    { m with w2 := head2 (off / 128 * 128 + q.span.1) q.span.2 }
  | .poll | .prefetch => mk 1 [] 0 false 4 1 q.size
  | .write =>
    if q.mask.isEmpty then mk 2 (pad4 q.data) 0 false 4 1 q.size
    else mk 3 (maskBytes q.mask ++ q.data) 0 false 4 1 128
  | .atom =>
    let ops := q.operands
    mk 4 (opsBytes q.aop q.sz ops) q.aop q.ret q.sz ops.length 1
  | .signal => mk 4 (opsBytes 0 8 q.ops) 0 q.flag.isNone 8 1 1
  | .arrive => mk 4 (opsBytes 0xD 8 q.ops) 0xD true 8 1 1
  | .depart => mk 4 (opsBytes 0xE 8 q.ops) 0xE false 8 1 1

/-! ### Completions (R322, R323, R330) -/

/-- Entries of the completion store a completion occupies. -/
def storeEntries (m : Msg) : Nat := if mOp m = 0x12 ∧ 128 < 4 * mDlen m then (4 * mDlen m + 127) / 128 else 1

/-- Entries of the completion store in use on an I/O die. -/
def State.storeUsed (s : State) (die : Nat) : Nat :=
  (s.fab.store.filter fun e => e.node % 2 = die).foldl (fun a e => a + storeEntries e.msg) 0

/-- Entries the completion of a request in progress will occupy. -/
def Req.storeNeed (q : Req) : Nat := if q.kind = .atom ∧ q.ret then max 1 ((q.sz * q.ops.length + 127) / 128) else 1

/-- Entries of the completion store that the requests in progress of an I/O die's sources will occupy; a request is accepted only
while there is room for its own beside them (R330; DESIGN CHOICE, log entry 69). -/
def State.storeDue (s : State) (die : Nat) : Nat :=
  let mine (q : Req) : Nat := match q.src with
    | .node n _ => if n % 2 = die then q.storeNeed else 0
    | _ => 0
  (s.reqs.map mine).sum + ((s.m.miss.map fun e => (e.2.map mine).sum).sum)
    + ((s.fab.land.map fun e => match e.2.fin with
        | some (_, q) => mine q
        | none => 0).sum)

/-- The filter die has room for one more request (R330). -/
def State.storeRoom (s : State) (die need : Nat) : Bool := s.storeUsed die + s.storeDue die + need ≤ 16384

/-- A completion leaves toward its source: on the port R319 chooses for the request's offset. -/
def State.sendBack (s : State) (flask off : Nat) (m : Msg) : State :=
  match s.pickPort (mDst m) off with
  | some p => s.txPush p flask m
  | none => s

/-- The completion of a request received from a node: its status, its data and poison, or its old values. -/
def State.cmpMsg (s : State) (q : Req) (src seq : Nat) (data : List Byte) (pois : Bool) (olds : List Nat)
    (status : Nat) : Msg :=
  let mk (op : Nat) (data : List Byte) (aop asz nops len : Nat) (poi : Bool) : Msg :=
    { w0 := head0 op 1 src s.ownNode q.cnt (data.length / 4) poi,
      w1 := head1 seq none aop false asz nops status, w2 := if op = 0x11 then head2 0 len else 0, w3 := head3 0 (s.floorOf src),
      data := data }
  if status ≠ 0 then mk 0x10 [] 0 4 1 1 false
  else
    match q.kind with
    | .read | .poll | .prefetch => mk 0x11 (pad4 data) 0 4 1 q.size pois
    | .atom =>
      if q.ret then mk 0x12 (olds.map fun v => leBytes q.sz v).flatten 0 q.sz q.operands.length 1 pois
      else mk 0x10 [] 0 4 1 1 false
    | .arrive => mk 0x12 (leBytes 16 (olds.getD 0 0) ++ leBytes 8 (olds.getD 1 0)) 0 8 1 1 pois
    | _ => mk 0x10 [] 0 4 1 1 false

/-- A request is complete (R250, R256, R323): what came back waits for its core or engine; the completion of a request
from another node is stored and then sent; that of the module's own node goes back to its source (R318). -/
def State.complete (s : State) (q : Req) (data : List Byte) (pw : List Nat) (olds : List Nat) (status : Nat) : State :=
  let back (q : Req) : Resp := { req := q, data := data, pois := pw, olds := olds, status := status }
  match q.src with
  | .node src seq =>
    let m := s.cmpMsg q src seq data (!pw.isEmpty) olds status
    let e : Stored := { node := src, seq := seq, msg := m }
    let s := { s with fab := { s.fab with store := s.fab.store ++ [e] } }
    let is (o : Outst) : Bool := o.dst = src && o.seq = seq
    if src = s.ownNode then
      match s.fab.outs.find? is with
      | some o =>
        { s with fab := { s.fab with outs := s.fab.outs.filter fun o => !(is o) }, resps := s.resps ++ [back o.req] }
      | none => s
    else s.sendBack q.flask q.reg m
  | _ => { s with resps := s.resps ++ [back q] }

end Sys2Proof.Machine
end

