-- ==== Sys2Proof/Machine/Route.lean ====
section
/-! DEFINITION. Routes between the dies of the module (R6, R28, R29, R319, R556), and the crossings a request uses (R32). -/

namespace Sys2Proof.Machine

/-- Node of an address with bit 63 set. -/
def nodeOf (a : Nat) : Nat := fld a 61 48

/-! ### Routes (R6, R28, R29, R319, R556) -/

/-- Where a route starts or ends: a compute die, a memory-side die, an I/O die. -/
inductive Place where
  | comp (d : Nat)
  | mem (m : Nat)
  | io (i : Nat)
  deriving DecidableEq, Repr

/-- Compute dies a memory-side die attaches to, in the order of R6. -/
def memDies (m : Nat) : List Nat :=
  match m / 2 with
  | 0 => [0, 1]
  | 1 => [1, 3]
  | 2 => [3, 2]
  | 3 => [2, 0]
  | _ => []

/-- Compute dies an I/O die attaches to. -/
def ioDies (i : Nat) : List Nat := if i = 0 then [0, 2] else if i = 1 then [1, 3] else []

/-- Number of the die-to-die link between two compute dies (R505). -/
def dieLink (a b : Nat) : Option Nat :=
  let p := [(0, 1), (1, 3), (3, 2), (2, 0)]
  (firstIdx (fun e => e = (a, b) || e = (b, a)) p).map (20 + ·)

/-- The number of a crossing (R505). -/
def crossingNum : Crossing → Option Nat
  | .link a b => dieLink a b
  | .mem d m => (firstIdx (fun e => e = d) (memDies m)).map (2 * m + ·)
  | .io d i => (firstIdx (fun e => e = d) (ioDies i)).map (16 + 2 * i + ·)

/-- Crossings of a list of compute dies in turn. -/
def hops : List Nat → List Nat
  | a :: b :: l => (dieLink a b).toList ++ hops (b :: l)
  | _ => []

/-- Compute dies from `d` to the one that attaches memory-side die `m` (R28). -/
def toMem (d m : Nat) : List Nat :=
  if (memDies m).contains d then [d]
  else
    match d, m / 2 with
    | 0, 1 => [0, 1]
    | 0, _ => [0, 2]
    | 1, 2 => [1, 3]
    | 1, _ => [1, 0]
    | 2, 0 => [2, 0]
    | 2, _ => [2, 3]
    | 3, 0 => [3, 1]
    | _, _ => [3, 2]

/-- Compute dies from `d` to the one that attaches I/O die `i` (R28). -/
def toIo (d i : Nat) : List Nat :=
  if (ioDies i).contains d then [d]
  else
    match d with
    | 0 => [0, 1]
    | 1 => [1, 0]
    | 2 => [2, 3]
    | _ => [3, 2]

/-- Compute dies between two compute dies (R29): the horizontal link first. -/
def toComp (a b : Nat) : List Nat :=
  match a, b with
  | 0, 3 => [0, 1, 3]
  | 3, 0 => [3, 2, 0]
  | 1, 2 => [1, 0, 2]
  | 2, 1 => [2, 3, 1]
  | a, b => [a, b]

/-- Compute dies from I/O die `i` to memory-side die `m` (R556). -/
def ioMem (i m : Nat) : List Nat :=
  match i, m / 2 with
  | 0, 0 => [0]
  | 0, 1 => [0, 1]
  | 0, 2 => [2]
  | 0, _ => [0]
  | _, 0 => [1]
  | _, 1 => [1]
  | _, 2 => [3]
  | _, _ => [1, 0]

/-- The attachment of a memory-side or I/O die to the last compute die of a list. -/
def attach (mk : Nat → Crossing) (l : List Nat) : List Nat :=
  match l.getLast? with
  | some d => (crossingNum (mk d)).toList
  | none => []

/-- Crossings of the route between two places, both ways. -/
def route : Place → Place → List Nat
  | .comp a, .comp b => hops (toComp a b) ++ hops (toComp b a)
  | .comp a, .mem m | .mem m, .comp a => hops (toMem a m) ++ attach (.mem · m) (toMem a m)
  | .comp a, .io i | .io i, .comp a => hops (toIo a i) ++ attach (.io · i) (toIo a i)
  | .io i, .mem m | .mem m, .io i =>
    hops (ioMem i m) ++ attach (.mem · m) (ioMem i m) ++ attach (.io · i) ((ioMem i m).take 1)
  | .io i, .io j => if i = j then [] else [16, 20, 18]
  | .mem _, .mem _ => []

/-- Where a request starts: its core's die, its engine's die, the owning die of the node it came from. -/
def State.startOf (s : State) (q : Req) : Place :=
  match q.src with
  | .grp x => .comp (x.core / 1024)
  | .dma g _ | .pf g _ => .comp (g / 1024)
  | .node n _ => .io (n % 2)
  | .eng n =>
    if n = 0 then .mem (s.home q.reg)
    else if n = 1 then .io q.reg
    else if n = 2 then
      match s.runner.sends.find? fun e => e.ids.contains q.id with
      | some e => .io (e.q % 2)
      | none => .io 0
    else .io 0

/-- Where a request is served: its point of coherence, or the owning die of the node it names. -/
def State.endOf (s : State) (q : Req) : Place :=
  if bit q.addr 63 = 1 then .io (nodeOf q.addr % 2)
  else
    let off := fld q.addr 47 0
    match aperOf off with
    | some g => .comp (g / 1024)
    | none => .mem (s.home (s.view off / 128))

/-- Crossings a request uses, on to its port where it has left the owning die (R319). -/
def State.uses (s : State) (q : Req) (port : Option Nat) : List Nat :=
  route (s.startOf q) (s.endOf q) ++
    match port with
    | some p => if p < 16 then route (.io (nodeOf q.addr % 2)) (.io (p / 8)) else []
    | none => []

/-- A request's route crosses a link that has failed (R32). -/
def State.cutRoute (s : State) (q : Req) : Bool := (s.uses q none).any s.down.contains

/-- A route between two places crosses a link that has failed. -/
def State.cutBetween (s : State) (a b : Place) : Bool := (route a b).any s.down.contains

end Sys2Proof.Machine
end

