-- ==== Sys2Proof/Machine/Rs.lean ====
section
/-! DEFINITION. The symbol code of a DRAM access (R223 to R226): arithmetic of GF(2^8), syndromes, and the decoder. The code
is linear, so the decoder is given the error of an access: symbols with the value added to each. -/

namespace Sys2Proof.Machine

/-- Multiply by α (field polynomial x^8 + x^4 + x^3 + x^2 + 1). -/
def gfX (a : Nat) : Nat := if 2 * a < 256 then 2 * a else (2 * a) ^^^ 0x11D

/-- Product over the `n` low bits of `b`. -/
def gfMulN : Nat → Nat → Nat → Nat
  | 0, _, _ => 0
  | n + 1, a, b => (if b % 2 = 1 then a else 0) ^^^ gfMulN n (gfX a) (b / 2)

/-- Product in GF(2^8). -/
def gfMul (a b : Nat) : Nat := gfMulN 8 a b

/-- α to a power. -/
def gfExp : Nat → Nat
  | 0 => 1
  | n + 1 => gfX (gfExp n)

/-- Inverse: the 254th power, as the product of the squares. -/
def gfInv (a : Nat) : Nat :=
  ((List.range 7).foldl (fun (p : Nat × Nat) _ => (gfMul p.1 p.1, gfMul p.2 (gfMul p.1 p.1))) (a, 1)).2

/-- A polynomial (coefficients from the constant term) at a point. -/
def gfEval (p : List Nat) (x : Nat) : Nat := p.foldr (fun c v => c ^^^ gfMul v x) 0

/-- Degree of symbol `s` of a codeword: data byte 0 is the coefficient of x^71, the last check byte that of x^0. -/
def symDeg (s : Nat) : Nat := 71 - s

/-- The eight syndromes of an error, S_j the error's value at α^j. -/
def syndromes (e : List (Nat × Nat)) : List Nat :=
  (List.range 8).map fun j => e.foldl (fun a x => a ^^^ gfMul x.2 (gfExp (symDeg x.1 * j % 255))) 0

/-- The poison pattern P as an error on the check bytes (R225). -/
def poisonPat : List (Nat × Nat) :=
  [(64, 0xE1), (65, 0x4B), (66, 0x96), (67, 0x2D), (68, 0xC3), (69, 0x78), (70, 0x1E), (71, 0xB4)]

/-- Two errors added. -/
def errAdd (a b : List (Nat × Nat)) : List (Nat × Nat) :=
  ((List.range 72).map fun s =>
    (s, (a ++ b).foldl (fun v x => if x.1 = s then v ^^^ x.2 else v) 0)).filter fun x => x.2 ≠ 0

/-- `a + c · b` for polynomials. -/
def polyAdd (a b : List Nat) (c : Nat) : List Nat :=
  (List.range (max a.length b.length)).map fun i => a.getD i 0 ^^^ gfMul c (b.getD i 0)

/-- One step of the search for the error locator: locator, previous locator, length, gap, previous discrepancy. -/
def locStep (syn : List Nat) (st : List Nat × List Nat × Nat × Nat × Nat) (n : Nat) :
    List Nat × List Nat × Nat × Nat × Nat :=
  let (c, b, l, m, bd) := st
  let d := (List.range (l + 1)).foldl (fun a i => a ^^^ gfMul (c.getD i 0) (syn.getD (n - i) 0)) 0
  if d = 0 then (c, b, l, m + 1, bd)
  else
    let c' := polyAdd c (List.replicate m 0 ++ b) (gfMul d (gfInv bd))
    if 2 * l ≤ n then (c', c, n + 1 - l, 1, d) else (c', b, l, m + 1, bd)

/-- The error of four or fewer symbols that has these syndromes, if there is one. -/
def rsSolve (syn : List Nat) : Option (List (Nat × Nat)) :=
  let (c, _, l, _, _) := (List.range 8).foldl (locStep syn) ([1], [1], 0, 1, 1)
  if 4 < l then none
  else
    let roots := (List.range 72).filter fun s => gfEval c (gfExp ((255 - symDeg s) % 255)) = 0
    let omega := (List.range 8).map fun k =>
      (List.range (k + 1)).foldl (fun a i => a ^^^ gfMul (syn.getD i 0) (c.getD (k - i) 0)) 0
    let deriv := (List.range c.length).map fun i => if i % 2 = 0 then c.getD (i + 1) 0 else 0
    let es := roots.map fun s =>
      let xi := gfExp ((255 - symDeg s) % 255)
      (s, gfMul (gfExp (symDeg s)) (gfMul (gfEval omega xi) (gfInv (gfEval deriv xi))))
    if roots.length = l ∧ syndromes es = syn ∧ es.all (fun x => x.2 ≠ 0) then some es else none

/-- What an access decodes as (R225): good, written poisoned, corrected symbols, or uncorrectable. -/
inductive RsOut where
  | good
  | poisoned
  | fixed (es : List (Nat × Nat))
  | bad
  deriving DecidableEq, Repr

/-- Decode an access with this error (R225). -/
def rsDecode (e : List (Nat × Nat)) : RsOut :=
  let syn := syndromes e
  if syn.all (· = 0) then .good
  else if syn = syndromes poisonPat then .poisoned
  else match rsSolve syn with
    | some es => .fixed es
    | none => .bad

/-- The error left on the data after decoding. -/
def rsLeft (e : List (Nat × Nat)) : List (Nat × Nat) :=
  match rsDecode e with
  | .fixed es => errAdd e es
  | .good => e
  | _ => []

end Sys2Proof.Machine
end

