-- ==== Sys2Proof/Machine/Home.lean ====
section
/-! DEFINITION. The memory-side dies: homes and their last-level cache (R206 to R210), near-memory units (R211, R212),
channels, rota and symbol code (R217 to R226), poison list, scrubbing and restores (R227 to R231), the digests' snapshot, and
the owning core's memory unit behind an aperture (R196). The bytes of `mem` are the values at the points of coherence: the
cache keeps which lines it holds and which are dirty, the channel keeps the errors of its codewords (log entry 8). -/

namespace Sys2Proof.Machine

/-! ### Regions and lines -/

/-- Region record of a DRAM line. -/
def State.lineRegion (s : State) (line : Nat) : Nat := s.region (line / 2 ^ 23)

/-- The region's policy is NOALLOC (R207). -/
def State.noAlloc (s : State) (line : Nat) : Bool := bit (s.lineRegion line) 7 = 1

/-- The DRAM line at λ of a channel: the inverse of `place`. -/
def State.lineAt (s : State) (c lam : Nat) : Nat :=
  let grp := c % 3
  let e := c / 48 + 8 * (c % 48 / 3)
  let l := lam * 128
  let t := l / 2 ^ 30
  if fld (s.region (3 * 128 * t + grp)) 6 5 = 3 then ((3 * (128 * t + e) + grp) * 2 ^ 30 + l % 2 ^ 30) / 128
  else
    let r := 3 * (l / 2 ^ 23) + grp
    let mode := fld (s.region r) 6 5
    let b := l % 2 ^ 23
    let o :=
      if mode = 1 then (b / 4096 * 128 + e) * 4096 + b % 4096
      else
        let y := b / 256
        let h := (y % 128) ^^^ (y / 128 % 128) ^^^ (y / 2 ^ 14)
        (y * 128 + (if mode = 2 then e ^^^ h else e)) * 256 + b % 256
    (r * 2 ^ 30 + o) / 128

/-- The rota of a channel runs (R217, R495, R496): from the end of boot, but not from its stop in standby to the restart. -/
def State.rotaOn (s : State) (c : Nat) : Bool :=
  s.booted && !(NSet.has s.m.selfref c) && !s.pwr.leaving

/-! ### The channel -/

/-- A line enters its bank queue (R221); entries past the fourth are held by the LLC bank. -/
def State.bankPush (s : State) (line : Nat) (write : Bool) : State :=
  let c := s.chan line
  let k := 32 * c.1 + c.2 % 32
  { s with m := { s.m with bank := Sparse.set [] s.m.bank k (Sparse.get [] s.m.bank k ++ [{ line := line, write := write }]) } }

/-- MSD_POIS.USED follows the list (R236). -/
def State.poisUsed (s : State) (die : Nat) : State :=
  s.wf .POIS die 0 10 0 (s.m.plist.filter fun e => e.1 = die).length

/-- The home removes a line from its poison list. -/
def State.unlist (s : State) (line : Nat) : State :=
  let die := s.home line
  State.poisUsed { s with m := { s.m with plist := s.m.plist.filter fun e => e.2 ≠ line } } die

/-- A line is written to DRAM (R226, R227): its codewords are good again, or carry the poison pattern. -/
def State.dramWrite (s : State) (line : Nat) : State :=
  let m := { s.m with derr := Sparse.set [] (Sparse.set [] s.m.derr (2 * line) []) (2 * line + 1) [] }
  if NSet.has s.pois line then { s with m := { m with dpois := NSet.add line m.dpois } }
  else State.unlist { s with m := { m with dpois := NSet.del m.dpois line } } line

/-- A bank slot writes a line: a correction the patrol holds for it is cancelled, and HOLD clears with it (R228, R242; DESIGN CHOICE,
log entry 68). -/
def State.bankWrite (s : State) (line : Nat) : State :=
  let c := (s.chan line).1
  let s := s.dramWrite line
  if Sparse.get 0 s.m.patq c = line + 1 then
    State.wf { s with m := { s.m with patq := Sparse.set 0 s.m.patq c 0 } } .PATROL c 0 26 26 0
  else s

/-- The bank queue that takes a line. -/
def State.bankKey (s : State) (line : Nat) : Nat := 32 * (s.chan line).1 + (s.chan line).2 % 32

/-- A write of the line waits in its bank queue. -/
def State.writeQueued (s : State) (line : Nat) : Bool :=
  (Sparse.get [] s.m.bank (s.bankKey line)).any fun e => e.line = line && e.write

/-- Entries of the line leave its bank queue. -/
def State.bankTake (s : State) (line : Nat) (write : Bool) : State :=
  let k := s.bankKey line
  let q := (Sparse.get [] s.m.bank k).filter fun e => !(e.line = line && e.write = write)
  { s with m := { s.m with bank := Sparse.set [] s.m.bank k q } }

/-- A write of the line that waits in its bank queue is made now. -/
def State.flushBank (s : State) (line : Nat) : State :=
  if s.writeQueued line then (s.bankTake line true).bankWrite line else s

/-- Error of access `k` of a line, the poison pattern included. -/
def State.accessErr (s : State) (line k : Nat) : List (Nat × Nat) :=
  let e := Sparse.get [] s.m.derr (2 * line + k)
  if NSet.has s.m.dpois line then errAdd e poisonPat else e

/-- Count one access of a read (R226, R544). -/
def State.countAccess (s : State) (c : Nat) : RsOut → State
  | .good => s
  | .poisoned => s.addSat .RSPOIS c 0 32 1
  | .fixed es => (es.foldl (fun s e => s.addSat .PINSYM c (e.1 / 3) 32 1) s).corr .RSCORR c 0 6 c 2
  | .bad => s.addSat .RSUNC c 0 32 1

/-- What a read of a line from its channel finds (R225): a corrected symbol, an uncorrectable access, a poisoned line. -/
structure LineRead where
  fixed : Bool
  bad : Bool
  pois : Bool
  deriving DecidableEq, Repr

/-- Decode both accesses of a line, and count. -/
def State.decodeLine (s : State) (line : Nat) : LineRead × State :=
  let c := (s.chan line).1
  let r0 := rsDecode (s.accessErr line 0)
  let r1 := rsDecode (s.accessErr line 1)
  let isFixed (r : RsOut) : Bool := match r with
    | .fixed _ => true
    | _ => false
  ({ fixed := isFixed r0 || isFixed r1, bad := r0 = .bad || r1 = .bad,
     pois := r0 = .bad || r1 = .bad || r0 = .poisoned || r1 = .poisoned || s.m.plist.any fun e => e.2 = line },
   (s.countAccess c r0).countAccess c r1)

/-- Errors that decoding leaves in a line change its bytes, where `skip` does not say they were written since. -/
def State.leftover (s : State) (line : Nat) (skip : Nat → Bool) : State :=
  let fix (s : State) (k : Nat) : State :=
    (rsLeft (s.accessErr line k)).foldl (fun s e =>
      let o := 64 * k + e.1
      if e.1 < 64 ∧ !(skip o) then
        s.put (128 * line + o) [] [s.byte (128 * line + o) ^^^ BitVec.ofNat 8 e.2]
      else s) s
  if s.m.derr = [] then s else fix (fix s 0) 1

/-! ### The last-level cache -/

/-- The cached line. -/
def State.llcFind (s : State) (line : Nat) : Option LLine := s.m.llc.find? fun e => e.line = line

/-- LLC bank of a line: its die and its set modulo 8. -/
def State.llcBank (s : State) (line : Nat) : Nat × Nat := (s.home line, s.llcSet line % 8)

/-- Mark a way of a set most recently used. -/
def State.llcTouch (s : State) (die set way : Nat) : State :=
  let k := die * 2 ^ 17 + set
  { s with m := { s.m with lru := Sparse.set 0 s.m.lru k (lruMark 4 (Sparse.get 0 s.m.lru k) way) } }

/-- The line leaves the cache; its sectors' errors go with it. -/
def State.llcDrop (s : State) (line : Nat) : State :=
  { s with m := { s.m with llc := s.m.llc.filter fun e => e.line ≠ line,
                           serr := s.m.serr.filter fun e => e.1 / 4 ≠ line } }

/-- A cached line becomes dirty. -/
def State.llcDirty (s : State) (line : Nat) : State :=
  { s with m := { s.m with llc := s.m.llc.map fun e => if e.line = line then { e with dirty := true } else e } }

/-! ### Poisoning and restores (R227, R230, R231) -/

/-- The backing read of a poisoned line begins, once. -/
def State.backing (s : State) (line : Nat) : State :=
  let r := s.lineRegion line
  if bit r 49 = 0 ∨ s.m.restore.contains line then s
  else if bit r 50 = 1 then { s with m := { s.m with restore := NSet.add line s.m.restore } }
  else
    let f := fld r 3 0
    if !(s.jobOk f) then s
    else
      let a := 2 ^ 63 + fld r 36 23 * 2 ^ 48 + fld r 48 37 * 2 ^ 30 + line * 128 % 2 ^ 30
      State.send { s with m := { s.m with restore := NSet.add line s.m.restore } } fun id =>
        { emptyReq id (.eng 0) f .read a 128 with reg := line }

/-- The home poisons a line (R227): it enters the poison list, or finds it full. -/
def State.listLine (s : State) (line : Nat) : State :=
  let c := s.chan line
  let die := c.1 / 48
  let s := { s with pois := NSet.add line s.pois }
  if s.m.plist.contains (die, line) then s
  else if (s.m.plist.filter fun e => e.1 = die).length < 1024 then
    State.poisUsed { s with m := { s.m with plist := s.m.plist ++ [(die, line)] } } die
  else (s.wf .POIS die 0 11 11 1).record 3 0x0016 5 die none c.2 c.1 0

/-- The home poisons an uncached line (R230): list entry, record, restore. -/
def State.poisonLine (s : State) (line : Nat) (flask : Option Nat) : State :=
  let c := s.chan line
  ((s.listLine line).record 3 0x0015 6 c.1 flask c.2 (line * 128) 1).backing line

/-! ### Sectors, victims and fills (R206, R210) -/

/-- Sectors of 32 B an access touches. -/
def sectorsOf (off n : Nat) : List Nat := (List.range 4).filter fun k => off % 128 / 32 ≤ k && k ≤ (off % 128 + n - 1) / 32

/-- The codes of sectors `ks` of a cached line, read (R210): single-bit errors are corrected; a double-bit error drops a clean
line, and poisons a dirty one, which is recorded. That the home then lists the line and starts its backing read, as for any line it
poisons, and that it does neither for a line a poisoned write poisons, is DESIGN CHOICE (R227, R231; log entry 68). `whole`: the
line is written whole, and no code is read. -/
def State.sectorCheck (s : State) (e : LLine) (ks : List Nat) (whole : Bool) : State :=
  let ks := ks.map (4 * e.line + ·)
  let two := ks.any fun k => Sparse.get 0 s.m.serr k = 2
  let s := if s.m.serr = [] then s
    else { s with m := { s.m with serr := ks.foldl (fun m k => Sparse.set 0 m k 0) s.m.serr } }
  if !two ∨ whole then s
  else if e.dirty then
    let c := s.chan e.line
    ((s.listLine e.line).record 3 0x0014 5 e.die none c.2 c.1 0).backing e.line
  else s.llcDrop e.line

/-- A line leaves the cache: a dirty one is read out, with its codes, and goes to its channel. -/
def State.evict (s : State) (v : LLine) : State :=
  let s := if v.dirty then (s.sectorCheck v (List.range 4) false).bankPush v.line true else s
  s.llcDrop v.line

/-- The line is in the cache afterwards (R206): a hit is marked; a fill takes the lowest invalid way, else the way the
set's tree names, whose dirty line goes to its channel. -/
def State.install (s : State) (line : Nat) (dirty : Bool) : State :=
  match s.llcFind line with
  | some e => let s := s.llcTouch e.die e.set e.way; if dirty then s.llcDirty line else s
  | none =>
    let die := s.home line
    let set := s.llcSet line
    let mine := s.m.llc.filter fun e => e.die = die && e.set = set
    let way := match (List.range 16).find? fun w => !(mine.any fun e => e.way = w) with
      | some w => w
      | none => lruWay 4 (Sparse.get 0 s.m.lru (die * 2 ^ 17 + set)) 1 - 16
    let s := match mine.find? fun e => e.way = way with
      | some v => s.evict v
      | none => s
    State.llcTouch { s with m := { s.m with llc := s.m.llc ++
      [{ die := die, set := set, way := way, line := line, dirty := dirty }] } } die set way

/-- A line is queued for the scrub slot (R229, R230): a poison write always, a correction while fewer than 4 wait. -/
def State.scrubPush (s : State) (line : Nat) (pois : Bool) : State :=
  let c := (s.chan line).1
  let q := Sparse.get [] s.m.scrubq c
  if q.length < 4 ∨ pois then { s with m := { s.m with scrubq := Sparse.set [] s.m.scrubq c (q ++ [(line, pois)]) } }
  else s.addFld .SCRUB c 0 31 16 1

/-- An uncorrectable line that the cache holds, or whose write waits in its bank queue, stands as it is (R230). -/
def State.standLine (s : State) (line : Nat) (flask : Option Nat) : State :=
  let c := s.chan line
  (s.llcDirty line).record 3 0x0015 6 c.1 flask c.2 (line * 128) 0

/-- A line's data comes from its channel to the home (R225, R229, R230): decoded, corrected or poisoned; a copy the cache got in the
meantime stands. Answers whether the line must be dirty in the cache. `skip` names bytes an accepted write has already set, `keep`
that it poisoned. -/
def State.fetchLine (s : State) (line : Nat) (flask : Option Nat) (skip : Nat → Bool) (keep : Bool) : Bool × State :=
  let (r, s) := s.decodeLine line
  if (s.llcFind line).isSome then (r.fixed, if r.bad then s.standLine line flask else s)
  else
  let s := s.leftover line skip
  if r.bad then
    let s := s.poisonLine line flask
    (true, if s.noAlloc line then s.scrubPush line true else s)
  else
    let s := if r.pois || keep then { s with pois := NSet.add line s.pois } else { s with pois := NSet.del s.pois line }
    if r.fixed then (true, if s.noAlloc line then s.scrubPush line false else s) else (false, s)

/-! ### Serving a request at its point of coherence (R250) -/

/-- The request updates its line. -/
def RKind.updates : RKind → Bool
  | .read | .poll | .prefetch => false
  | _ => true

/-- A flagged data write of another node has landed (R277). -/
def State.landed (s : State) (q : Req) : State :=
  match q.src, q.flag with
  | .node src _, some (tsl, gen, false, _) => s.notify (.landing src tsl gen)
  | _, _ => s

/-- Apply a plain write. -/
def State.applyWrite (s : State) (q : Req) : State :=
  (s.pocWrite q.flask (fld q.addr 47 0) q.mask q.data q.pois).landed q

/-- A prefetch that returns no data leaves its stream (R214). -/
def State.pfDone (s : State) (q : Req) : State :=
  match q.src with
  | .pf g k => s.modCore g fun c =>
      match Sparse.get none c.pf k with
      | some p =>
        let p := { p with inflight := p.inflight.filter (· ≠ q.id) }
        { c with pf := Sparse.set none c.pf k (if p.nlines = 0 ∧ p.inflight = [] then none else some p) }
      | none => c
  | _ => s

/-- Serve a request whose line is at hand, and send what comes back. -/
def State.serve (s : State) (q : Req) : State :=
  let off := fld q.addr 47 0
  match q.kind with
  | .read | .poll =>
    let s := if q.lanes.isEmpty then s.scrub (s.view off) q.size
      else q.lanes.foldl (fun s e => s.scrub (s.view (fld e.2 47 0)) q.sz) s
    let pw := if q.lanes.isEmpty then (if s.poisoned (s.view off) q.size then List.range 32 else []) else s.linePois off
    let r := s.seen (s.view off) q.size
    r.2.complete q r.1 pw [] 0
  | .prefetch =>
    if q.alloc ∨ (q.src matches .node _ _) then
      let r := s.seen (s.view off) q.size
      r.2.complete q r.1 (s.linePois off) [] 0
    else s.pfDone q
  | .write => (s.applyWrite q).complete q [] [] [] 0
  | .atom =>
    let r := s.pocAtom q.flask off q.sz q.aop q.operands q.pois
    r.2.2.complete q [] (if r.2.1 ∨ q.pois then [0] else []) r.1 0
  | .signal =>
    let r := s.pocAtom q.flask off 8 0 q.ops q.pois
    r.2.2.complete q [] (if r.2.1 then [0] else []) [] 0
  | .arrive | .depart =>
    let r := s.pocBar q.flask off q.aop ((q.ops.headD (0, 0)).1 % 2 ^ 16)
    r.2.2.2.complete q [] (if r.2.2.1 then [0] else []) [leNat r.1, if r.2.1 then 1 else 0] 0

/-- An update of a flask that is gone is still applied, and answers nobody. -/
def Req.orphan (q : Req) : Req :=
  { q with src := .eng 7, ret := false, rel := [], kind := if q.kind = .arrive then .depart else q.kind }

/-- A request whose link has failed (R32): an update not yet made may be made or not (log entry 3), and what comes back
is marked link-failed: zeros, poisoned, where data was to come. -/
def State.linkLost (s : State) (q : Req) (mayApply : Bool) : State :=
  let s := if mayApply && q.kind.updates && bit q.addr 63 = 0 then
      (let b := s.freeB; if b.1 then b.2.serve q.orphan else b.2)
    else s
  match q.src with
  | .node _ _ => s
  | _ =>
    let lost : Resp := { req := q, data := List.replicate 128 0, pois := List.range 32, olds := [], status := 5 }
    { s with resps := s.resps ++ [lost] }

/-! ### Acceptance by an LLC bank (R207 to R210) -/

/-- The request writes a whole line. -/
def wholeLine (q : Req) : Bool := q.kind = .write && q.data.length = 128 && q.mask.isEmpty

/-- A hit: count, mark, serve. -/
def State.llcHit (s : State) (e : LLine) (q : Req) : State :=
  let s := ((s.addSat .LLCHIT e.die 0 64 1).llcTouch e.die e.set e.way).serve q
  if wholeLine q && s.noAlloc e.line then (s.llcDrop e.line).bankPush e.line true
  else if q.kind.updates then s.llcDirty e.line else s

/-- A miss on a line without a miss entry: a whole-line write needs no data; any other takes an entry and reads the line,
a narrow write being applied now (R250, R559). -/
def State.llcMiss (s : State) (line : Nat) (q : Req) : State :=
  let s := s.addSat .LLCMISS (s.home line) 0 64 1
  if wholeLine q then
    let s := s.serve q
    if s.noAlloc line then s.bankPush line true else s.install line true
  else
    let s := { s with m := { s.m with miss := s.m.miss ++ [(line, [q])] } }
    (if q.kind = .write then s.applyWrite q else s).bankPush line false

/-- Miss entries in use in the LLC bank of a line (R209). -/
def State.missUsed (s : State) (line : Nat) : Nat := (s.m.miss.filter fun e => s.llcBank e.1 = s.llcBank line).length

/-- An LLC bank accepts a request, or none while its 64 miss entries are in use (R209). -/
def State.llcAccept (s : State) (q : Req) : Option State :=
  let off := fld q.addr 47 0
  let line := s.view off / 128
  if 64 ≤ s.missUsed line then none
  else if s.m.miss.any fun e => e.1 = line then
    some (State.addSat { s with m := { s.m with miss := s.m.miss.map fun e =>
      if e.1 = line then (e.1, e.2 ++ [q]) else e } } .LLCMISS (s.home line) 0 64 1)
  else
    let s := match s.llcFind line with
      | some e => s.sectorCheck e (sectorsOf off (max 1 q.size)) (wholeLine q)
      | none => s
    match s.llcFind line with
    | some e => some (s.llcHit e q)
    | none => some (s.llcMiss line q)

/-- Both requests are of one group, to its core's own local store (R182). -/
def sameLocal (q r : Req) : Bool :=
  match q.src with
  | .grp x => r.src = q.src && own x.core q.addr && own x.core r.addr
  | _ => false

/-- Nothing earlier of the same core goes first: to the same line or block of local store (R251, R253), or of the same group to its
own local store (R182). -/
def State.inTurn (s : State) (q : Req) : Bool :=
  q.src.core.isNone || !(s.reqs.any fun r => r.id < q.id && ((r.src.core = q.src.core && r.addr / 128 = q.addr / 128) || sameLocal q r))

/-- The request can be applied now: it is not held as a release, it is its turn, and its offset is on this module. -/
def State.ready (s : State) (q : Req) : Bool := q.rel.isEmpty && bit q.addr 63 = 0 && s.inTurn q

/-- Take the request with this number, of the kinds given, at a home in DRAM; one whose route has failed ends there (R32). -/
def State.homeRow (s : State) (id : Nat) (ks : List RKind) : State :=
  match s.reqs.find? fun r => r.id = id && ks.contains r.kind with
  | none => s
  | some q =>
    if !(s.ready q) ∨ dramEnd ≤ fld q.addr 47 0 ∨ !(s.rotaOn (s.chan (s.view (fld q.addr 47 0) / 128)).1) then s
    else if s.cutRoute q then State.linkLost { s with reqs := s.reqs.filter fun r => r.id ≠ id } q true
    else
      match State.llcAccept { s with reqs := s.reqs.filter fun r => r.id ≠ id } q with
      | some t => t
      | none => s

/-- The memory unit of core `g` serves its local store: the core runs, or is a quarantined one, which stays in Hold (R490) and there
serves its store unwoken (DESIGN CHOICE, log entry 70). -/
def State.servesLs (s : State) (g : Nat) : Bool :=
  !(s.core g).waking
    && ((s.core g).power = 0 || ((s.core g).power = 1 && bit (s.rn .QMAP 0 (g / 64)) (g % 64) = 0))

/-- Take the request at the memory unit of the core that owns the local store (R196); a core in a low-power state is
woken first (R494). -/
def State.coreRow (s : State) (id : Nat) (ks : List RKind) : State :=
  match s.reqs.find? fun r => r.id = id && ks.contains r.kind with
  | none => s
  | some q =>
    match aperOf (fld q.addr 47 0) with
    | none => s
    | some g =>
      if !(s.ready q) ∨ !(s.servesLs g) then s
      else if s.cutRoute q then State.linkLost { s with reqs := s.reqs.filter fun r => r.id ≠ id } q true
      else State.serve { s with reqs := s.reqs.filter fun r => r.id ≠ id } q

/-- Take an update of a synchronisation object, wherever it lies. -/
def State.objectRow (s : State) (id : Nat) (k : RKind) : State :=
  match s.reqs.find? fun r => r.id = id && r.kind = k with
  | none => s
  | some q => if fld q.addr 47 0 < dramEnd then s.homeRow id [k] else s.coreRow id [k]

/-- LLC_REQUEST (R208). -/
def execLlcRequest (id : Nat) (s : State) : Host.Outcome State Fault Refusal :=
  .next (s.homeRow id [.read, .write, .poll, .prefetch])

/-- NEAR_MEMORY_REQUEST (R211, R266). -/
def execNearMemoryRequest (id : Nat) (s : State) : Host.Outcome State Fault Refusal := .next (s.homeRow id [.atom])

/-- APERTURE_ACCESS (R196): also a request to the core's own local store that waits in its memory unit. -/
def execApertureAccess (id : Nat) (s : State) : Host.Outcome State Fault Refusal :=
  .next (s.coreRow id [.read, .write, .poll, .atom, .prefetch])

/-- BARRIER_ARRIVAL (R283). -/
def execBarrierArrival (id : Nat) (s : State) : Host.Outcome State Fault Refusal := .next (s.objectRow id .arrive)

/-- BARRIER_DEPARTURE (R283, R562). -/
def execBarrierDeparture (id : Nat) (s : State) : Host.Outcome State Fault Refusal := .next (s.objectRow id .depart)

/-- SIGNAL_UPDATE (R292, R294). -/
def execSignalUpdate (id : Nat) (s : State) : Host.Outcome State Fault Refusal := .next (s.objectRow id .signal)

/-! ### Slots of the rota -/

/-- The channel's rota runs and begins this slot next (R217): a rota takes its 34 slots in order. -/
def State.slotDue (s : State) (c slot : Nat) : Bool := c < 384 && s.rotaOn c && Sparse.get 0 s.m.slot c = slot

/-- CHN_ROTA at the start of a slot (R217, R241). -/
def State.slotStart (s : State) (c slot : Nat) : State :=
  let n := s.rf .ROTA c 0 31 6
  let wrap : Bool := slot < s.rf .ROTA c 0 5 0
  let s := { s with m := { s.m with slot := Sparse.set 0 s.m.slot c ((slot + 1) % 34) } }
  (s.wf .ROTA c 0 31 6 (if wrap then n + 1 else n)).wf .ROTA c 0 5 0 slot

/-- The entry a bank slot serves (R221): the oldest, or the oldest write when two or more of the four write. -/
def bankPick (q : List BankReq) : Option Nat :=
  let q4 := q.take 4
  if 2 ≤ (q4.filter fun e => e.write).length then firstIdx (fun (e : BankReq) => e.write) q4
  else if q4.isEmpty then none else some 0

/-- BANK_SLOT (R221): the selected request of the bank's queue is served; a write puts the line in DRAM, a read's data is
on its way. -/
def execBankSlot (c slot : Nat) (s : State) : Host.Outcome State Fault Refusal :=
  .next (if 32 ≤ slot ∨ !(s.slotDue c slot) then s
    else
      let s := s.slotStart c slot
      let k := 32 * c + slot
      let q := Sparse.get [] s.m.bank k
      match bankPick q with
      | none => s
      | some i =>
        match q[i]? with
        | none => s
        | some e =>
          let s := { s with m := { s.m with bank := Sparse.set [] s.m.bank k (dropAt i q) } }
          if e.write then s.bankWrite e.line
          else { s with m := { s.m with arriving := s.m.arriving ++ [e.line] } })

/-- Bytes of the line that a write accepted before the data came has set. -/
def writtenBytes (qs : List Req) (k : Nat) : Bool :=
  match qs with
  | q :: _ => q.kind = .write && q.addr % 128 ≤ k && k < q.addr % 128 + q.data.length
      && q.mask.getD (k - q.addr % 128) true
  | [] => false

/-- A line's data reaches its home (R209, R225, R229, R230): the requests that wait on it are served in the order they came. -/
def State.dataAtHome (s : State) (line : Nat) : State :=
  let qs := ((s.m.miss.find? fun e => e.1 = line).map (·.2)).getD []
  let s := { s with m := { s.m with miss := s.m.miss.filter fun e => e.1 ≠ line } }
  let first : Bool := match qs with
    | q :: _ => q.kind = .write
    | [] => false
  let keep : Bool := match qs with
    | q :: _ => q.kind = .write && q.pois
    | [] => false
  let (d, s) := s.fetchLine line (qs.head?.map (·.flask)) (writtenBytes qs) keep
  let s := match qs with
    | q :: rest =>
      rest.foldl State.serve (if first then s.complete q [] [] [] 0 else s.serve q)
    | [] => s
  let upd := qs.any fun q => q.kind.updates
  if s.noAlloc line then (if upd then s.bankPush line true else s) else s.install line (d || upd)

/-- DRAM_DATA_ARRIVAL (R209). -/
def execDramDataArrival (line : Nat) (s : State) : Host.Outcome State Fault Refusal :=
  .next (if !(s.m.arriving.contains line) then s
    else State.dataAtHome { s with m := { s.m with arriving := s.m.arriving.erase line } } line)

/-- A status read of a channel's packages (R220, R244, R499). -/
def State.statusRead (s : State) (c status : Nat) (shorter : Bool) : State :=
  let n := if shorter then Sparse.get 0 s.m.hot c + 1 else 0
  let s := { s with m := { s.m with hot := Sparse.set 0 s.m.hot c n } }
  let s := s.wn .TEMP c 0 (status % 256 + if shorter then 256 else 0)
  if shorter then s.record 2 0x0020 6 c none (s.rn .TEMP c 0) 0 0 else s

/-- REFRESH_SLOT (R215, R219, R220, R244): the refresh of one bank of each rank; every 4,096 rotas the ZQ latch, every 256 the read of
the packages' status, in the rotas whose number they divide (DESIGN CHOICE, log entry 68). `shorter`: it asks for an interval
shorter than the rota gives. -/
def execRefreshSlot (c status : Nat) (shorter : Bool) (s : State) : Host.Outcome State Fault Refusal :=
  .next (if !(s.slotDue c 32) then s
    else
      let s := s.slotStart c 32
      let n := s.rf .ROTA c 0 31 6
      let s := { s with out := .refresh c (n % 16) :: s.out }
      let s := if n % 4096 = 0 then { s with out := .zqLatch c :: s.out } else s
      if n % 256 = 0 then s.statusRead c status shorter else s)

/-- The patrol moves to the next line (R228, R242). -/
def State.patrolNext (s : State) (c : Nat) : State :=
  let l := s.rf .PATROL c 0 25 0
  let s := s.wf .PATROL c 0 25 0 (l + 1)
  if l + 1 = 2 ^ 26 then s.wf .PATROL c 0 31 27 (s.rf .PATROL c 0 31 27 + 1) else s

/-- The patrol reads a line (R228, R230). A line whose write waits in its bank queue stands as a cached one does (DESIGN CHOICE, log
entry 68). -/
def State.patrol (s : State) (c : Nat) : State :=
  let line := s.lineAt c (s.rf .PATROL c 0 25 0)
  let (r, s) := s.decodeLine line
  let s :=
    if (s.llcFind line).isSome ∨ s.writeQueued line then (if r.bad then s.standLine line none else s)
    else
      let s := s.leftover line fun _ => false
      if r.bad then
        let s := s.poisonLine line none
        if s.noAlloc line then s.scrubPush line true else s.install line true
      else if r.pois then { s with pois := NSet.add line s.pois }
      else { s with pois := NSet.del s.pois line }
  let s := s.patrolNext c
  if r.fixed && !r.bad then
    State.wf { s with m := { s.m with patq := Sparse.set 0 s.m.patq c (line + 1) } } .PATROL c 0 26 26 1
  else s

/-- SCRUB_SLOT (R228, R229, R243): the patrol's correction of the last rota is written, else a queued line, else the
patrol reads its next line. The slot is idle when the correction is cancelled because its line is dirty in the cache; when a bank
slot has cancelled it the slot goes on to the queue or the patrol (DESIGN CHOICE, log entry 68). -/
def execScrubSlot (c : Nat) (s : State) : Host.Outcome State Fault Refusal :=
  .next (if !(s.slotDue c 33) then s
    else
      let s := s.slotStart c 33
      let put (s : State) (line : Nat) : State := (s.dramWrite line).addFld .SCRUB c 0 15 0 1
      match Sparse.get 0 s.m.patq c with
      | p + 1 =>
        let s := State.wf { s with m := { s.m with patq := Sparse.set 0 s.m.patq c 0 } } .PATROL c 0 26 26 0
        if s.m.llc.any fun e => e.line = p && e.dirty then s else put s p
      | 0 =>
        match Sparse.get [] s.m.scrubq c with
        | e :: rest => put { s with m := { s.m with scrubq := Sparse.set [] s.m.scrubq c rest } } e.1
        | [] => s.patrol c)

/-! ### Snapshots and clears -/

/-- DGCTL_SNAP (R233, R237). -/
def execDgctlSnap (m mask : Nat) (s : State) : Host.Outcome State Fault Refusal :=
  .next ((setBits 16 mask).foldl (fun s f => s.snapOne m f) s)

/-- MSD_CLR_REST (R239). -/
def execMsdClrRest (m : Nat) (s : State) : Host.Outcome State Fault Refusal := .next (s.wn .RESTORE m 0 0)
/-- MSD_CLR_POIS (R239): the overflow flag; the list stays. -/
def execMsdClrPois (m : Nat) (s : State) : Host.Outcome State Fault Refusal := .next (s.wf .POIS m 0 11 11 0)
/-- MSD_CLR_LLC (R239). -/
def execMsdClrLlc (m : Nat) (s : State) : Host.Outcome State Fault Refusal :=
  .next ((s.wn .LLCHIT m 0 0).wn .LLCMISS m 0 0)
/-- CHN_CLR_PIN (R245). -/
def execChnClrPin (c : Nat) (s : State) : Host.Outcome State Fault Refusal :=
  .next ((List.range 24).foldl (fun s p => s.wn .PINSYM c p 0) s)
/-- CHN_CLR_SCRUB (R245). -/
def execChnClrScrub (c : Nat) (s : State) : Host.Outcome State Fault Refusal := .next (s.wn .SCRUB c 0 0)
/-- CHN_CLR_RS (R245). -/
def execChnClrRs (c : Nat) (s : State) : Host.Outcome State Fault Refusal :=
  .next (((s.wn .RSCORR c 0 0).wn .RSUNC c 0 0).wn .RSPOIS c 0 0)

/-! ### Accesses of the module's own engines (R246, R249)

An engine's access is one step with the command it belongs to: it is accepted, filled and served at once. -/

/-- A miss on the line that is under way ends first (R250, R264, R278): what waits on the line is served before an engine's access. -/
def State.settleLine (s : State) (line : Nat) : State :=
  if s.m.miss.any fun e => e.1 = line then
    let s := (s.flushBank line).bankTake line false
    State.dataAtHome { s with m := { s.m with arriving := s.m.arriving.erase line } } line
  else s

/-- A line an engine touches, in `n` bytes at `off`, is at the home: a miss is fetched. -/
def State.engLine (s : State) (line : Nat) (flask : Option Nat) (off n : Nat) (write : Bool) : State :=
  let die := s.home line
  let whole : Bool := write && n = 128
  let s := s.settleLine line
  let s := match s.llcFind line with
    | some e => s.sectorCheck e (sectorsOf off n) whole
    | none => s
  match s.llcFind line with
  | some _ =>
    let s := s.addSat .LLCHIT die 0 64 1
    if whole && s.noAlloc line then (s.llcDrop line).bankPush line true else s.install line write
  | none =>
    let s := s.addSat .LLCMISS die 0 64 1
    let (d, s) := if whole then (true, s) else (s.flushBank line).fetchLine line flask (fun _ => false) false
    if s.noAlloc line then (if write then s.bankPush line true else s) else s.install line (d || write)

/-- Pieces of `n` bytes at an offset, cut at line boundaries: first byte and length. -/
def linePieces (off n : Nat) : List (Nat × Nat) :=
  if n = 0 then []
  else (List.range ((off + n - 1) / 128 - off / 128 + 1)).map fun i =>
    let lo := max off ((off / 128 + i) * 128)
    (lo, min (off + n) ((off / 128 + i + 1) * 128) - lo)

/-- An engine reads `n` bytes at a module offset for a flask. -/
def State.engRead (s : State) (f off n : Nat) : List Byte × Bool × State :=
  let ps := linePieces off n
  let s := if off < dramEnd then ps.foldl (fun s p => s.engLine (s.view p.1 / 128) (some f) p.1 p.2 false) s else s
  let s := if n = 0 then s else s.scrub (s.view off) n
  ((ps.map fun p => s.bytes (s.view p.1) p.2).flatten, ps.any (fun p => s.poisoned (s.view p.1) p.2), s)

/-- An engine writes bytes at a module offset for a flask, line by line (R262). -/
def State.engWriteN (s : State) (f : Nat) (pois : Bool) : Nat → Nat → List Byte → State
  | 0, _, _ => s
  | k + 1, off, bs =>
    if bs = [] then s
    else
      let n := min bs.length (128 - off % 128)
      let s := if off < dramEnd then s.engLine (s.view off / 128) (some f) off n true else s
      (s.pocWrite f off [] (bs.take n) pois).engWriteN f pois k (off + n) (bs.drop n)

/-- An engine's write. -/
def State.engWrite (s : State) (f off : Nat) (bs : List Byte) (pois : Bool) : State :=
  s.engWriteN f pois (bs.length / 128 + 2) off bs

/-! ### Restores (R231) -/

/-- BACKING_RESTORE_COMPLETE (R231): unpoisoned data from the backing copy is written unless a store came first; a local backing line
is read at its own home. -/
def execBackingRestoreComplete (line : Nat) (s : State) : Host.Outcome State Fault Refusal :=
  let isIt (p : Resp) : Bool := p.req.src = .eng 0 && p.req.reg = line
  let r := s.lineRegion line
  let write (s : State) (bs : List Byte) : State :=
    let s := s.settleLine line
    let s := (s.put (128 * line) [] bs).clean (128 * line) 128 []
    let s := { s with m := { s.m with restore := s.m.restore.filter (· ≠ line) } }
    let s := if s.noAlloc line then s.bankPush line true else s.install line true
    (s.addSat .RESTORE (s.home line) 0 32 1).record 0 0x0030 5 (s.home line) none (line * 128) 0 0
  let give (s : State) : State := { s with m := { s.m with restore := s.m.restore.filter (· ≠ line) } }
  .next (if bit r 50 = 1 then
      if !(s.m.restore.contains line) then s
      else
        let src := fld r 48 37 * 2 ^ 30 + line * 128 % 2 ^ 30
        let s := s.engLine (src / 128) none src 128 false
        if s.poisoned src 128 then give s else write s (s.bytes src 128)
    else
      match s.resps.find? isIt with
      | none => s
      | some p =>
        let s := { s with resps := s.resps.filter fun p => !(isIt p) }
        if s.m.restore.contains line ∧ p.status = 0 ∧ p.pois = [] then write s p.data else give s)

end Sys2Proof.Machine
end

