-- ==== Sys2Proof/Machine/Sync.lean ====
section
/-! DEFINITION. The synchronisation instructions on objects and the DMA entries (R191, R192, R246, R262, R268, R269, R276,
R280 to R296): BAR, SIGNAL, SWAIT, DMA; polls; the watchdog fault; DMA start, pieces and signal. -/

namespace Sys2Proof.Machine

/-! ### Waiting (R290, R296) -/

/-- A wait entry that has just begun. -/
def newWait (kind : WKind) (addr cond val scp : Nat) : Wait :=
  { kind := kind, addr := addr, cond := cond, val := val, scp := scp, count := 0, ready := false, since := 0 }

/-- Format S: reserved bits 39:32 zero, and the fields a row does not use zero (R163, R174). -/
def formS (n : Nat) (ub scp cond : Bool) (immBits : Nat) : Bool :=
  fld n 39 32 = 0 && (ub || fld n 50 46 = 0) && (scp || fld n 45 43 = 0) && (cond || fld n 42 40 = 0)
    && fld n 31 0 < 2 ^ immBits && fld n 45 43 ≤ 4

/-- BAR (R191, R280, R283, R287): the arrival is sent, held as a release at SCP, and the group waits. -/
def execBar (x : Who) (w : BitVec 56) (s : State) : Host.Outcome State Fault Refusal :=
  let n := w.toNat
  let ua := fld n 55 51
  let scp := fld n 45 43
  .next (presentMem x [256 + ua]
    (fun s gr =>
      let a := (gr.unif ua).toNat
      if !(formS n false true false 16) || fld n 15 0 = 0 || scp = 0
          || (!(gr.blist.contains a) && 8 ≤ gr.blist.length) then some (illegal, 0)
      else if s.addrBad (some x.core) (s.flaskOf x) 2 a 16 || s.addrBad (some x.core) (s.flaskOf x) 0 a 16 then some (addrFault, a) else none)
    (fun s gr =>
      let a := (gr.unif ua).toNat
      let f := s.flaskOf x
      let s := (s.atomicLine x.core a).send fun id =>
        { emptyReq id (.grp x) f .arrive a 16 with
          pc := gr.pc, aop := 0xD, ret := true, ops := [(fld n 15 0, 0)], rel := gr.relWait true scp }
      (s.modGroup x fun h => { h with blist := if h.blist.contains a then h.blist else h.blist ++ [a],
                                      wait := some (newWait .bar a 0 0 scp) }).poisEvent f (gr.unifP ua)) s)

/-- SIGNAL (R191, R282, R292): an addition to the object, held as a release at SCP. -/
def execSignal (x : Who) (w : BitVec 56) (s : State) : Host.Outcome State Fault Refusal :=
  let n := w.toNat
  let ua := fld n 55 51
  let ub := fld n 50 46
  let scp := fld n 45 43
  .next (presentMem x [256 + ua, 256 + ub]
    (fun s gr =>
      let a := (gr.unif ua).toNat
      if !(formS n true true false 0) then some (illegal, 0)
      else if s.addrBad (some x.core) (s.flaskOf x) 2 a 8 then some (addrFault, a) else none)
    (fun s gr =>
      let f := s.flaskOf x
      let p := gr.unifP ua || gr.unifP ub
      let id := s.nextId
      let s := (s.atomicLine x.core (gr.unif ua).toNat).send fun id =>
        { emptyReq id (.grp x) f .signal (gr.unif ua).toNat 8 with
          pc := gr.pc, aop := 0, sz := 8, ops := [((gr.unif ub).toNat, 0)], pois := p, rel := gr.relWait true scp }
      (s.modGroup x fun h => { h with stores := h.stores ++ [id] }).poisEvent f p) s)

/-- SWAIT (R35, R191, R291): the first read is sent, and the group waits until it, or a poll, satisfies COND. The first read is
no poll that groups share (R296): `reg` 1 marks it. -/
def execSwait (x : Who) (w : BitVec 56) (s : State) : Host.Outcome State Fault Refusal :=
  let n := w.toNat
  let ua := fld n 55 51
  let ub := fld n 50 46
  .next (present x (fun s gr => gr.held true [256 + ua, 256 + ub] || s.paramHeld x [(0, (gr.unif ua).toNat)])
    (fun s gr =>
      let a := (gr.unif ua).toNat
      if !(formS n true true true 0) || 2 < fld n 42 40 then some (illegal, 0)
      else if s.addrBad (some x.core) (s.flaskOf x) 0 a 8 then some (addrFault, a) else none)
    (fun s gr =>
      let f := s.flaskOf x
      let a := (gr.unif ua).toNat
      let s := s.send fun id => { emptyReq id (.grp x) f .poll a 8 with pc := gr.pc, reg := 1 }
      (s.modGroup x fun h =>
        { h with wait := some (newWait .swait a (fld n 42 40) (gr.unif ub).toNat (fld n 45 43)) }).poisEvent f
        (gr.unifP ua || gr.unifP ub)) s)

/-! ### Polls (R283, R291, R296, R299) -/

/-- A group leaves its wait and acts as an acquire at its scope (R254, R283, R291). -/
def State.release (s : State) (x : Who) (scp : Nat) : State :=
  (s.acquireAt x scp).modGroup x fun h => { h with wait := none }

/-- The group's wait ends in a fault (R299, R323): its entry is freed and its flask's streams stop. -/
def State.endWait (s : State) (x : Who) (cause pc addr : Nat) : State :=
  (s.modGroup x fun h => { h with wait := none }).raise x cause pc addr

/-- The fault a completion status raises (R323): address fault for REJECT and TFAULT, node-lost for UNAVAIL and
NODELOST, which also sets NODE; link-failed (R32). -/
def State.statusFault (s : State) (x : Who) (status pc addr : Nat) : State :=
  if status = 1 ∨ status = 2 then s.raise x addrFault pc addr
  else if status = 3 ∨ status = 4 then (s.raise x 6 pc 0).stepEvent (s.flaskOf x) 2
  else if status = 5 then s.raise x 9 pc 0
  else s

/-- A request is a poll of an object that the waiting groups of a core share (R296). -/
def Req.pollOf (r : Req) (g a : Nat) : Bool := r.kind = .poll && r.reg = 0 && r.addr = a && r.src.core = some g

/-- Send the next poll of an object for the groups of a core that still wait on it, unless one is in flight (R296); one that
fails a check of R39 ends the wait in an address fault (R280). -/
def State.pollNext (s : State) (g a : Nat) : State :=
  let busy := (s.reqs.any fun r => r.pollOf g a) || (s.resps.any fun p => p.req.pollOf g a)
    || (s.fab.outs.any fun o => o.req.pollOf g a) || (s.m.miss.any fun e => e.2.any fun r => r.pollOf g a)
  if busy then s
  else
    match (s.core g).groups.find? fun gr => (match gr.wait with
        | some w => (w.kind = .bar || w.kind = .swait) && w.addr = a && w.ready
        | none => false) with
    | some gr =>
      let x : Who := { core := g, strm := gr.strm, grp := gr.q }
      let size := (match gr.wait with
        | some w => if w.kind = .bar then 16 else 8
        | none => 8)
      if s.addrBad (some g) (s.flaskOf x) 0 a size then s.endWait x addrFault (gr.pc - 8) a
      else (s.send fun id => { emptyReq id (.grp x) (s.flaskOf x) .poll a size with pc := gr.pc - 8 }).addWrap .SYNCPOLL g 0 1
    | none => s

/-- What a poll that returned `obj` does to one group of its core: released, failed, or made ready for the next. -/
def State.pollGroup (s : State) (q : Req) (obj : Nat) (pois : Bool) (status : Nat) (gr : Group) : State :=
  match q.src.core, gr.wait with
  | some g, some w =>
    let x : Who := { core := g, strm := gr.strm, grp := gr.q }
    let first : Bool := w.kind = .swait && !w.ready && q.reg = 1 && q.src = .grp x
    if !((w.kind = .bar || w.kind = .swait) && w.addr = q.addr && (first || (w.ready && q.reg = 0 && w.since ≤ q.id))) then s
    else if status = 5 ∨ (status = 0 ∧ pois) then
      (s.endWait x 4 (gr.pc - 8) 0).poisEvent q.flask true
    else if status ≠ 0 then (s.modGroup x fun h => { h with wait := none }).statusFault x status (gr.pc - 8) q.addr
    else if (if w.kind = .bar then decide (bit obj 48 ≠ w.val) else condS w.cond (obj % 2 ^ 64) w.val) then
      s.release x w.scp
    else if first then s.modGroup x fun h => { h with wait := some { w with ready := true, since := s.nextId } }
    else s
  | _, _ => s

/-- POLL_RETURN (R296): the poll with this number returns to its core. -/
def execPollReturn (id : Nat) (s : State) : Host.Outcome State Fault Refusal :=
  .next (match s.resps.find? fun p => p.req.id = id && p.req.kind = .poll with
    | none => s
    | some p =>
      let s := { s with resps := s.resps.filter fun r => r.req.id ≠ id }
      match p.req.src.core with
      | none => s
      | some g =>
        let obj := leNat (p.data.take p.req.size)
        let s := (match p.req.src with
          | .grp x => if p.status = 5 then s.statusFault x 5 p.req.pc 0 else s
          | _ => s)
        let s := (s.core g).groups.foldl (fun s gr => s.pollGroup p.req obj (!p.pois.isEmpty) p.status gr) s
        s.pollNext g p.req.addr)

/-- WATCHDOG_FAULT (R290, R304): the group's wait has counted to the limit. -/
def execWatchdogFault (x : Who) (s : State) : Host.Outcome State Fault Refusal :=
  .next (match s.group x with
    | none => s
    | some gr =>
      let f := s.flaskOf x
      if gr.wait.isSome && s.rn .WDOG f 0 ≠ 0 then
        let pc := (match gr.wait with
          | some w => if w.kind = .bar ∨ w.kind = .swait then gr.pc - 8 else gr.pc
          | none => gr.pc)
        let s := if s.rf .WDSTAT f 0 31 31 = 0 then
            s.wn .WDSTAT f 0 (2 ^ 31 + streamNum x.strm * 2 ^ 21 + x.grp % 32 * 2 ^ 16 + x.core % 4096)
          else s
        s.endWait x 3 pc 0
      else s)

/-! ### DMA -/

/-- The pieces of a transfer (R262): source, destination and length of each. -/
def pieces (src dst : Nat) : Nat → Nat → List (Nat × Nat × Nat)
  | 0, _ => []
  | k + 1, len =>
    if len = 0 then []
    else
      let n := min len (min (128 - src % 128) (128 - dst % 128))
      (src, dst, n) :: pieces (src + n) (dst + n) k (len - n)

/-- Fuel for `pieces`: each line yields at most two. -/
def pieceFuel (len : Nat) : Nat := 2 * (len / 128) + 4

/-- An address of a transfer fails a check of R179 or R39 for a piece: no alignment is asked of a byte range. -/
def State.pieceBad (s : State) (me : Option Nat) (f : Nat) (p : Perm) (a n : Nat) : Bool :=
  bit a 62 = 1 || (bit a 63 = 0 && fld a 61 48 ≠ 0)
  || (if bit a 63 = 1 then !(s.jobOk f) else !(s.reach me f p (fld a 47 0) n))

/-- Completion mode of a transfer (R294), chosen as the instruction issues: 0 no signal, 1 LOCAL, 2 FLAG, 3 ACK. -/
def State.dmaMode (s : State) (f dst sig : Nat) : Nat :=
  if sig = 0 then 0
  else if bit dst 63 = 0 ∧ bit sig 63 = 0 then 1
  else if bit dst 63 = 1 ∧ bit sig 63 = 1 ∧ nodeOf dst = nodeOf sig ∧ 16 < s.rf .JACT f 0 30 16 then 2
  else 3

/-- DMA (R191, R192, R348): the transfer takes an entry. Poison of its addresses or length poisons what it moves, and poison of
its increment or signal address the signal's addition (R22). -/
def execDma (x : Who) (w : BitVec 56) (s : State) : Host.Outcome State Fault Refusal :=
  let n := w.toNat
  let ua := fld n 55 51
  let free (s : State) : Option Nat := (List.range 16).find? fun e => (Sparse.get none (s.core x.core).dma e).isNone
  .next (present x (fun s gr => gr.held true [256 + ua, 257 + ua, 258 + ua, 259 + ua] || (free s).isNone)
    (fun s gr =>
      let f := s.flaskOf x
      let src := (gr.unif ua).toNat
      let dst := (gr.unif (ua + 1)).toNat
      let len := fld (gr.unif (ua + 2)).toNat 31 0
      let sig := (gr.unif (ua + 3)).toNat
      if !(formS n false false false 0) || 28 < ua then some (illegal, 0)
      else if bit src 63 = 1 ∧ bit dst 63 = 1 then some (addrFault, dst)
      else if bit src 63 = 1 ∧ !(s.jobOk f) then some (addrFault, src)
      else if bit dst 63 = 1 ∧ !(s.jobOk f) then some (addrFault, dst)
      else if bit src 62 = 1 ∨ (bit src 63 = 0 ∧ fld src 61 48 ≠ 0) then some (addrFault, src)
      else if bit dst 62 = 1 ∨ (bit dst 63 = 0 ∧ fld dst 61 48 ≠ 0) then some (addrFault, dst)
      else
        let ps := pieces src dst (pieceFuel len) len
        match ps.find? fun p => s.pieceBad (some x.core) f 0 p.1 p.2.2 with
        | some p => some (addrFault, p.1)
        | none =>
          match ps.find? fun p => s.pieceBad (some x.core) f 1 p.2.1 p.2.2 with
          | some p => some (addrFault, p.2.1)
          | none => if sig ≠ 0 ∧ s.addrBad (some x.core) f 2 sig 8 then some (addrFault, sig) else none)
    (fun s gr =>
      let d2 := (gr.unif (ua + 2)).toNat
      let d : Dma :=
        { who := x, pc := gr.pc, flask := s.flaskOf x, src := (gr.unif ua).toNat, dst := (gr.unif (ua + 1)).toNat,
          len := fld d2 31 0, sinc := BitVec.ofNat 64 (fld d2 63 32), sig := (gr.unif (ua + 3)).toNat, after := gr.stores,
          started := false, mode := s.dmaMode (s.flaskOf x) (gr.unif (ua + 1)).toNat (gr.unif (ua + 3)).toNat,
          pois := (List.range 3).any fun i => gr.unifP (ua + i), sigP := gr.unifP (ua + 2) || gr.unifP (ua + 3), reads := [], writes := [], npieces := 0, tsl := 0, gen := false, sigSent := false }
      match free s with
      | some e => (s.modCore x.core fun c => { c with dma := Sparse.set none c.dma e (some d) }).poisEvent d.flask
          ((List.range 4).any fun i => gr.unifP (ua + i))
      | none => s) s)

/-- A DMA entry of a core. -/
def State.dmaAt (s : State) (g e : Nat) : Option Dma := Sparse.get none (s.core g).dma e

/-- The entry replaced; freed once nothing of it is left to do. -/
def State.setDma (s : State) (g e : Nat) (d : Dma) : State :=
  let done := d.started && d.reads.isEmpty && d.writes.isEmpty && (d.sig = 0 || d.sigSent)
  s.modCore g fun c => { c with dma := Sparse.set none c.dma e (if done then none else some d) }

/-- DMA_START (R35, R268, R276): once what it follows is acknowledged, the entry sends the reads of its pieces. -/
def execDmaStart (g e : Nat) (s : State) : Host.Outcome State Fault Refusal :=
  .next (match s.dmaAt g e with
    | none => s
    | some d =>
      let mode := d.mode
      let slot := (List.range 4).find? fun t => Sparse.get 0 s.fab.slots (4 * nodeOf d.dst + t) = 0
      let hold := s.paramHeld d.who ((pieces d.src d.dst (pieceFuel d.len) d.len).map fun p => (0, p.1))
      if d.started || !d.after.isEmpty || hold || (mode = 2 && slot.isNone) then s
      else
        let ps := pieces d.src d.dst (pieceFuel d.len) d.len
        let t := slot.getD 0
        let key := 4 * nodeOf d.dst + t
        let gen := if mode = 2 then Sparse.get 0 s.fab.gens key = 0 else false
        let s := if mode = 2 then
            { s with fab := { s.fab with slots := Sparse.set 0 s.fab.slots key 1,
                                         gens := Sparse.set 0 s.fab.gens key (if gen then 1 else 0) } }
          else s
        let ids := (List.range ps.length).map (s.nextId + ·)
        let s := ps.foldl (fun s p => s.send fun id =>
          { emptyReq id (.dma g e) d.flask .read p.1 p.2.2 with pc := d.pc, reg := p.2.1, sz := p.2.2 }) s
        s.setDma g e { d with started := true, reads := ids, npieces := ps.length, tsl := t, gen := gen })

/-- The read of a piece has returned: its write is sent (R262, R268), poisoned where the read or the descriptor is. -/
def State.dmaData (s : State) (g e : Nat) (q : Req) (data : List Byte) (pois : Bool) : State :=
  match s.dmaAt g e with
  | none => s
  | some d =>
    let id := s.nextId
    let pois := pois || d.pois
    let s := (s.send fun id =>
      { emptyReq id (.dma g e) d.flask .write q.reg q.sz with
        pc := d.pc, data := data, pois := pois,
        flag := if d.mode = 2 then some (d.tsl, d.gen, false, 0) else none }).poisEvent d.flask pois
    s.setDma g e { d with reads := d.reads.filter (· ≠ q.id), writes := d.writes ++ [id] }

/-- DMA_SIGNAL_UPDATE (R269, R294, R295): the signal's addition is sent: in FLAG mode behind the data, as the final
write; otherwise once every data write is acknowledged. -/
def execDmaSignalUpdate (g e : Nat) (s : State) : Host.Outcome State Fault Refusal :=
  .next (match s.dmaAt g e with
    | none => s
    | some d =>
      if d.started && d.sig ≠ 0 && !d.sigSent && d.reads.isEmpty && (d.mode = 2 || d.writes.isEmpty) then
        let id := s.nextId
        let s := s.send fun id =>
          { emptyReq id (.dma g e) d.flask .signal d.sig 8 with
            pc := d.pc, pois := d.sigP, aop := 0, sz := 8, ops := [(d.sinc.toNat, 0)],
            flag := if d.mode = 2 then some (d.tsl, d.gen, true, d.npieces) else none }
        s.setDma g e { d with sigSent := true, writes := d.writes ++ [id] }
      else s)

end Sys2Proof.Machine
end

