-- ==== Sys2Proof/Machine/Return.lean ====
section
/-! DEFINITION. What returns to a core: load data, old values, acknowledgements and fills (R150, R151, R181, R254, R256,
R260, R283, R299, R323); the line requests of the prefetch streams (R214); landing notices (R277). -/

namespace Sys2Proof.Machine

/-- A request of the core is over: nothing waits for it any more. -/
def Core.settle (id : Nat) (c : Core) : Core :=
  { c with
    groups := c.groups.map fun gr =>
      { gr with stores := gr.stores.filter (· ≠ id), loads := gr.loads.filter (· ≠ id),
                acq := gr.acq.filter fun a => a.1 ≠ id, busy := gr.busy.filter fun b => b.1 ≠ id }
    dma := c.dma.map fun e => (e.1, e.2.map fun d => { d with after := d.after.filter (· ≠ id) })
    depart := c.depart.filter fun d => d.1 ≠ id }

/-- The acknowledgement of a request reaches its core (R255, R256): the releases that waited on it go on. -/
def State.settle (s : State) (g id : Nat) : State :=
  { s.modCore g (Core.settle id) with reqs := s.reqs.map fun r => { r with rel := r.rel.filter (· ≠ id) } }

/-- What came back for a request, by its number, for a kind given. -/
def State.respOf (s : State) (id : Nat) (ks : List RKind) : Option Resp :=
  s.resps.find? fun p => p.req.id = id && ks.contains p.req.kind

/-- What came back is taken. -/
def State.takeResp (s : State) (id : Nat) : State := { s with resps := s.resps.filter fun p => p.req.id ≠ id }

/-- The request reads a line for a group or a prefetch stream of a core. -/
def Req.fills (q : Req) : Bool :=
  (q.kind = .read || q.kind = .prefetch) && (match q.src with
    | .grp _ | .pf _ _ => true
    | _ => false)

/-- No earlier line of the same core and the same address of this module waits to be taken: what comes back for one core on one line
comes back in the order in which it was served (R251, R252). -/
def State.inOrder (s : State) (q : Req) : Bool :=
  bit q.addr 63 = 1 || !(s.resps.any fun r =>
    r.req.id < q.id && r.req.fills && r.req.src.core = q.src.core && r.req.addr / 128 = q.addr / 128)

/-- The fill of the request may still be kept (R198, R260). -/
def Resp.keeps (p : Resp) : Bool := p.req.alloc && !p.req.taint && p.status = 0

/-- LOAD_RESPONSE (R181, R252, R254): the lanes of a line get their data; a DMA read's data goes on as its write. -/
def execLoadResponse (id : Nat) (s : State) : Host.Outcome State Fault Refusal :=
  .next (match s.respOf id [.read] with
    | none => s
    | some p =>
      match p.req.src with
      | .grp x =>
        if p.req.lanes = [] ∨ !(s.inOrder p.req) then s
        else
          let s := if p.keeps then
              { s with resps := s.resps.map fun r =>
                  if r.req.id = id then { r with req := { r.req with lanes := [] } } else r }
            else s.takeResp id
          let s := s.settle x.core id
          let s := if p.status ≠ 0 then s.statusFault x p.status p.req.pc ((p.req.lanes.headD (0, 0)).2) else s
          if p.status ≠ 0 ∧ p.status ≠ 5 then s
          else
            let hurt := p.req.lanes.any fun e =>
              (List.range ((e.2 % 128 + p.req.sz - 1) / 4 - e.2 % 128 / 4 + 1)).any fun k =>
                p.pois.contains (e.2 % 128 / 4 + k)
            let data := if bit p.req.addr 63 = 1 then List.replicate p.req.span.1 0 ++ p.data else p.data
            (s.modGroup x fun gr => p.req.lanes.foldl (fun h e => h.fromLine p.req data p.pois e) gr).poisEvent
              p.req.flask hurt
      | .dma g e =>
        let s := s.takeResp id
        let s := match s.dmaAt g e with
          | some d => if p.status = 5 then s.statusFault d.who 5 d.pc 0 else s
          | none => s
        if p.status ≠ 0 ∧ p.status ≠ 5 then
          match s.dmaAt g e with
          | some d => (s.setDma g e { d with reads := d.reads.filter (· ≠ id), sig := 0 }).statusFault d.who p.status d.pc
              p.req.addr
          | none => s
        else s.dmaData g e p.req p.data (!p.pois.isEmpty)
      | _ => s)

/-- The return of a barrier arrival (R283, R299). -/
def State.arrived (s : State) (x : Who) (p : Resp) : State :=
  match s.group x with
  | none => s
  | some gr =>
    match gr.wait with
    | none => s
    | some w =>
      if w.kind ≠ .bar ∨ w.ready then s
      else if p.status ≠ 0 ∧ p.status ≠ 5 then
        (s.modGroup x fun h => { h with wait := none }).statusFault x p.status p.req.pc p.req.addr
      else if p.pois ≠ [] then
        ((if p.status = 5 then s.statusFault x 5 p.req.pc 0 else s).endWait x 4 p.req.pc 0).poisEvent p.req.flask true
      else if p.olds.getD 1 0 = 1 then s.release x w.scp
      else
        (s.modGroup x fun h => { h with wait := some { w with val := bit (p.olds.getD 0 0) 48, ready := true,
                                                              since := s.nextId } }).pollNext x.core w.addr

/-- ATOM_RESPONSE (R150, R151, R283): the lanes' old values, formed in the core from the home's for a combined request;
or what a barrier arrival returned. -/
def execAtomResponse (id : Nat) (s : State) : Host.Outcome State Fault Refusal :=
  .next (match s.respOf id [.atom, .arrive] with
    | none => s
    | some p =>
      match p.req.src with
      | .grp x =>
        if !p.req.ret then s
        else
          let s := (s.takeResp id).settle x.core id
          if p.req.kind = .arrive then s.arrived x p
          else if p.status ≠ 0 ∧ p.status ≠ 5 then s.statusFault x p.status p.req.pc p.req.addr
          else
            let s := if p.status = 5 then s.statusFault x 5 p.req.pc 0 else s
            let olds := if p.status = 5 then p.req.ops.map fun _ => 0
              else if combines p.req.aop then laneOlds p.req.aop p.req.sz (p.olds.headD 0) p.req.ops else p.olds
            let hurt := p.req.pois || !p.pois.isEmpty
            (s.modGroup x fun gr => gr.putOlds p.req olds hurt).poisEvent p.req.flask hurt
      | _ => s)

/-- A slot of flagged transfers is free once its final write has completed (R276). -/
def State.slotFree (s : State) (q : Req) : State :=
  match q.flag with
  | some (tsl, _, true, _) =>
    { s with fab := { s.fab with slots := Sparse.set 0 s.fab.slots (4 * nodeOf q.addr + tsl) 0 } }
  | _ => s

/-- A SIGNAL update or a DMA signal addition found its object poisoned (R299). -/
def Resp.syncPoison (p : Resp) : Bool := p.req.kind = .signal && p.status = 0 && p.pois ≠ []

/-- An acknowledgement reaches a group or a DMA entry (R256, R323): of a store, an atomic without return, an update, a
departure, a DMA write. One that ended link-failed counts as acknowledged (R32); an update that returns poison faults (R299). -/
def State.ackCore (s : State) (p : Resp) : State :=
  match p.req.src with
  | .grp x =>
    if p.req.ret then s
    else
      let s := (s.takeResp p.req.id).settle x.core p.req.id
      if p.status ≠ 0 then s.statusFault x p.status p.req.pc p.req.addr
      else if p.syncPoison then (s.raise x 4 p.req.pc 0).poisEvent p.req.flask true
      else s
  | .dma g e =>
    let s := (s.takeResp p.req.id).slotFree p.req
    match s.dmaAt g e with
    | none => s
    | some d =>
      let d := { d with writes := d.writes.filter (· ≠ p.req.id) }
      if p.status ≠ 0 ∧ p.status ≠ 5 then (s.setDma g e { d with sig := 0 }).statusFault d.who p.status d.pc p.req.addr
      else if p.status = 5 then (s.setDma g e d).statusFault d.who 5 d.pc 0
      else if p.syncPoison then ((s.setDma g e d).raise d.who 4 d.pc 0).poisEvent d.flask true
      else s.setDma g e d
  | _ => s

/-- The words of a cache way have been written: their errors are gone (R201). -/
def State.cerrClear (s : State) (g set way : Nat) : State :=
  if s.m.cerr = [] then s
  else { s with m := { s.m with cerr := s.m.cerr.filter fun e => e.1 / 32 ≠ (g * 2 ^ 17 + (set * 8 + way) * 32) / 32 } }

/-- A line fills the core cache. -/
def State.fillCore (s : State) (g line : Nat) (data : List Byte) (pois : List Nat) : State :=
  let size := s.ccSize g
  (s.cerrClear g (ccSet size line) ((s.core g).fillWay (ccSet size line))).modCore g fun c => c.fill size line data pois

/-- CACHE_FILL (R252, R260): the line is kept only if nothing has forbidden it since its request left. -/
def execCacheFill (id : Nat) (s : State) : Host.Outcome State Fault Refusal :=
  .next (match s.respOf id [.read, .prefetch] with
    | none => s
    | some p =>
      match p.req.src.core with
      | none => s
      | some g =>
        if (p.req.kind = .read ∧ !p.req.alloc) ∨ !(s.inOrder p.req) then s
        else
          let s := if p.keeps ∧ s.ccSize g ≠ 0 then s.fillCore g (p.req.addr / 128) p.data p.pois else s
          if p.req.kind = .prefetch then (s.takeResp id).pfDone p.req
          else if p.req.lanes = [] then s.takeResp id
          else { s with resps := s.resps.map fun r =>
                   if r.req.id = id then { r with req := { r.req with alloc := false } } else r })

/-! ### Prefetch streams (R214) -/

/-- The stream can send a line request. -/
def State.pfCan (s : State) (g : Nat) (k : Nat) : Bool :=
  match Sparse.get none (s.core g).pf k with
  | some p => p.nlines ≠ 0 && p.inflight.length < 16
      && !((s.core g).phold && bit p.addr 63 = 0 && s.isParam (fld p.addr 47 0))
  | none => false

/-- PREFETCH_LINE_REQUEST (R214): the next stream after the last served sends its next line request; one that fails a
check of R39 is dropped. -/
def execPrefetchLineRequest (g : Nat) (s : State) : Host.Outcome State Fault Refusal :=
  let c := s.core g
  .next (match ((List.range 16).map fun i => (c.pfLast + 1 + i) % 16).find? (s.pfCan g) with
    | none => s
    | some k =>
      match Sparse.get none c.pf k with
      | none => s
      | some p =>
        let f := c.hflask
        let id := s.nextId
        let bad := s.addrBad (some g) f 0 p.addr 128
        let p' := { p with addr := wrap 64 ((p.addr : Int) + 128 * p.stride), nlines := p.nlines - 1,
                           inflight := if bad then p.inflight else p.inflight ++ [id] }
        let s := if bad then s
          else s.send fun id =>
            { emptyReq id (.pf g k) f .prefetch p.addr 128 with
              alloc := p.tgt = 0 && s.ccSize g ≠ 0 && cacheable p.addr, taint := (s.core g).acquiring }
        s.modCore g fun c =>
          { c with pf := Sparse.set none c.pf k (if p'.nlines = 0 ∧ p'.inflight = [] then none else some p'), pfLast := k })

/-! ### Flagged final writes at the receiver (R277) -/

/-- Landing entry of a source and slot. -/
def State.landEnt (s : State) (key : Nat) : LandEnt := Sparse.get LandEnt.init s.fab.land key

/-- The entry replaced; a held final write whose count is reached goes to its home. -/
def State.setLand (s : State) (key : Nat) (e : LandEnt) : State :=
  let put (s : State) (e : LandEnt) : State :=
    { s with fab := { s.fab with land := Sparse.set LandEnt.init s.fab.land key e } }
  match e.fin with
  | some (cnt, q) =>
    if e.count = cnt then (put s { e with fin := none }).send fun id => { q with id := id } else put s e
  | none => put s e

/-- LANDING_NOTICE (R277). -/
def execLandingNotice (src tsl : Nat) (gen : Bool) (s : State) : Host.Outcome State Fault Refusal :=
  .next (if !(s.notices.contains (.landing src tsl gen)) then s
    else
      let s := { s with notices := s.notices.erase (.landing src tsl gen) }
      let e := s.landEnt (4 * src + tsl)
      s.setLand (4 * src + tsl) (if e.gen ≠ gen then { e with gen := gen, count := 1 } else { e with count := e.count + 1 }))

end Sys2Proof.Machine
end

