-- ==== Sys2Proof/Machine/Fabric.lean ====
section
/-! DEFINITION. Requests between nodes: the source's numbering and tracking (R271, R318, R319, R326), the receiver's filter,
checks and translation (R272, R327 to R330, R338), completions (R323), FLOOR (R330), node loss (R336); the node, route and
job registers (R328, R346, R348). -/

namespace Sys2Proof.Machine

/-! ### The filter at the receiver (R272, R329, R330) -/

/-- How far number `n` lies above `b`, numbers being 32 bits; below it by half the range or more counts as below. -/
def seqAbove (n b : Nat) : Nat := (n + 2 ^ 32 - b % 2 ^ 32) % 2 ^ 32

/-- `n` lies below `b`. -/
def seqBelow (n b : Nat) : Bool := 2 ^ 31 ≤ seqAbove n b

/-- The base moves over the numbers that have filled in. -/
def fillBase : Nat → Nat → List Nat → Nat × List Nat
  | 0, b, l => (b, l)
  | k + 1, b, l => if l.contains ((b + 1) % 2 ^ 32) then fillBase k ((b + 1) % 2 ^ 32) (l.filter (· ≠ (b + 1) % 2 ^ 32)) else (b, l)

/-- The map takes a number. -/
def State.accept (s : State) (src seq : Nat) : State :=
  let r := fillBase 1024 (Sparse.get 0 s.fab.base src) (NSet.add seq (Sparse.get [] s.fab.seen src))
  { s with fab := { s.fab with base := Sparse.set 0 s.fab.base src r.1, seen := Sparse.set [] s.fab.seen src r.2 } }

/-- A message's FLOOR frees the stored completions below it (R330). -/
def State.floorIn (s : State) (src fl : Nat) : State :=
  let cur := Sparse.get 0 s.fab.floorIn src
  if fl = 0 ∨ seqBelow fl cur then s
  else
    { s with fab := { s.fab with floorIn := Sparse.set 0 s.fab.floorIn src fl,
                                 store := s.fab.store.filter fun e => !(e.node = src && seqBelow e.seq fl) } }

/-! ### Checks and translation (R327) -/

/-- A flask is stopped by a fault or being shaken out. -/
def State.stopped (s : State) (f : Nat) : Bool := s.rf .QSTAT f 0 2 1 ≠ 0

/-- Active job window `w` of a flask (R328, R348): valid, base, bytes, permissions R, W, A in bits 0 to 2, target. The active
copies stand in entries 32 to 63 of the staged registers. -/
def State.jobWin (s : State) (f w : Nat) : Bool × Nat × Nat × Nat × Nat :=
  let z := s.rn .JWSIZE f (32 + w)
  (bit z 63 = 1, fld (s.rn .JWBASE f (32 + w)) 47 12 * 4096, fld z 35 0 * 4096, fld z 62 60,
   fld (s.rn .JWTGT f (32 + w)) 47 12 * 4096)

/-- The module is in standby or on its way there (R338, R495). -/
def State.inStandby (s : State) : Bool := s.stby

/-- The request a message spells, for a flask and a translated address: kind, size, operands; `reg` keeps its OFFSET. -/
def reqOf (m : Msg) (f addr : Nat) : Req :=
  let q := emptyReq 0 (.node (mSrc m) (mSeq m)) f .read addr (mLen m)
  let flag := if mFt m then some (mTsl m, mGen m, mFin m, mCnt m) else none
  let q := { q with pois := mPoi m, flag := flag, reg := mOffset m, cnt := mJob m }
  if mOp m = 1 then q
  else if mOp m = 2 then { q with kind := .write, data := m.data.take (mLen m) }
  else if mOp m = 3 then
    { q with kind := .write, size := 128, data := slice m.data 16 128,
             mask := (List.range 128).map fun i => bit (leAt m.data 0 16) i = 1 }
  else
    let sz := mAsz m
    let val (i : Nat) : Nat := leAt m.data (sz * i) sz
    let ops := (List.range (mNops m)).map fun i =>
      if mAop m = 0xC then (val (2 * i + 1), val (2 * i)) else (val i, 0)
    if mAop m = 0xD then { q with kind := .arrive, size := 16, aop := 0xD, ret := true, ops := [(leAt m.data 0 8, 0)] }
    else if mAop m = 0xE then { q with kind := .depart, size := 16, aop := 0xE, ops := [(0, 0)] }
    else { q with kind := .atom, size := sz, sz := sz, aop := mAop m, ret := mRet m, ops := ops }

/-- Permission a request needs: R 0, W 1, A 2. -/
def permOf (m : Msg) : Perm := if mOp m = 1 then 0 else if mOp m = 4 then 2 else 1

/-- The flask whose active job entry holds a message's JOB (R327, step 1). -/
def State.jobFlask (s : State) (m : Msg) : Option Nat := (List.range 16).find? fun f => s.jobOk f && s.jobId f = mJob m

/-- Steps 2 to 5 of R327 for flask `f`: the translated offset, or the status. -/
def State.winAt (s : State) (f : Nat) (perm : Perm) (off n : Nat) (bad : Bool) : Nat ⊕ Nat :=
  match (List.range 32).find? fun w =>
      let v := s.jobWin f w
      v.1 && v.2.1 ≤ off && off + n ≤ v.2.1 + v.2.2.1 with
  | none => .inl 1
  | some w =>
    let v := s.jobWin f w
    let a := v.2.2.2.2 + (off - v.2.1)
    if 128 < off % 128 + n ∨ bit v.2.2.2.1 perm = 0 ∨ bad then .inl 1
    else if !(s.reach none f perm a n) then .inl 2
    else .inr a

/-- Steps 1 to 5 of R327: the flask and translated offset, or the status. -/
def State.translate (s : State) (m : Msg) : Nat ⊕ (Nat × Nat) :=
  if s.inStandby then .inl 3
  else if !s.nodeValid then .inl 1
  else
    match s.jobFlask m with
    | none => .inl 1
    | some f =>
      if s.stopped f then .inl 3
      else
        match s.winAt f (permOf m) (mOffset m) (reqOf m f 0).size (mOp m = 4 && mAop m = 0xF) with
        | .inl st => .inl st
        | .inr a => .inr (f, a)

/-- A request that has passed the checks goes to its point of coherence; the final write of a flagged transfer is held in
its landing entry (R277). -/
def State.inject (s : State) (q : Req) : State :=
  match q.src, q.flag with
  | .node src _, some (tsl, gen, true, cnt) =>
    let key := 4 * src + tsl
    let e := s.landEnt key
    let e := if e.gen ≠ gen then { e with gen := gen, count := 0 } else e
    s.setLand key { e with fin := some (cnt, q) }
  | _, _ => s.send fun id => { q with id := id }

/-- A message's number is a duplicate (R272). -/
def State.isDup (s : State) (m : Msg) : Bool :=
  let d := seqAbove (mSeq m) (Sparse.get 0 s.fab.base (mSrc m))
  d = 0 || 2 ^ 31 ≤ d || (Sparse.get [] s.fab.seen (mSrc m)).contains (mSeq m)

/-- The stored completion of a message's number. -/
def State.storedOf (s : State) (m : Msg) : Option Stored := s.fab.store.find? fun e => e.node = mSrc m && e.seq = mSeq m

/-- The message waits in its port's buffer: for room in the completion store (R330), or as a duplicate for the completion of the
copy that was accepted (R272, R329; DEDUCED, log entry 69). -/
def State.rxHeld (s : State) (m : Msg) : Bool :=
  if s.isDup m then !(seqBelow (mSeq m) (Sparse.get 0 s.fab.floorIn (mSrc m))) && !(seqBelow (mSeq m) (mFloor m) && mFloor m ≠ 0)
    && (s.storedOf m).isNone
  else !(s.storeRoom (mSrc m % 2) (reqOf m 0 0).storeNeed)

/-- Receive a request: filter, check, apply. `p` is the port, 16 for the module itself (R318). -/
def State.receive (s : State) (p : Nat) (m : Msg) : State :=
  let src := mSrc m
  let seq := mSeq m
  let drop (s : State) : State := if p < 16 then s.dropMsg p else s
  let d := seqAbove seq (Sparse.get 0 s.fab.base src)
  let dup := s.isDup m
  let s := s.floorIn src (mFloor m)
  if dup then
    if seqBelow seq (Sparse.get 0 s.fab.floorIn src) then drop s
    else
      match s.storedOf m with
      | some e => if src = s.ownNode then s else s.sendBack 0 (mOffset m) e.msg
      | none => s
  else if 1024 < d then drop s
  else
    let s := s.accept src seq
    match s.translate m with
    | .inl st =>
      let s := if p < 16 ∧ st ≤ 2 then s.addSat .REJECT p 0 32 1 else s
      s.complete (reqOf m 0 (mOffset m)) [] [] [] st
    | .inr (f, a) => s.inject (reqOf m f a)

/-- A message leaves its port's buffer: its credits go back (R324). -/
def State.leaveBuf (s : State) (p : Nat) (m : Msg) : State :=
  s.modPort p fun q =>
    if q.rx.contains m then { q with rx := q.rx.erase m, ret := modAt (· + msgCredits m) (mVc m) q.ret } else q

/-- A request row: a message with one of the opcodes, received on a port, unless it waits there. -/
def State.requestRow (s : State) (p : Nat) (m : Msg) (op : Nat) : State :=
  if 16 ≤ p ∨ mOp m ≠ op ∨ s.rxHeld m then s else (s.leaveBuf p m).receive p m

/-- RD (R327). -/
def execRd (p : Nat) (m : Msg) (s : State) : Host.Outcome State Fault Refusal := .next (s.requestRow p m 1)
/-- WR (R327). -/
def execWr (p : Nat) (m : Msg) (s : State) : Host.Outcome State Fault Refusal := .next (s.requestRow p m 2)
/-- WRM (R263, R322, R327). -/
def execWrm (p : Nat) (m : Msg) (s : State) : Host.Outcome State Fault Refusal := .next (s.requestRow p m 3)
/-- ATOM_MESSAGE (R322, R327, R562). -/
def execAtomMessage (p : Nat) (m : Msg) (s : State) : Host.Outcome State Fault Refusal := .next (s.requestRow p m 4)

/-- FLOOR (R330). -/
def execFloor (p : Nat) (m : Msg) (s : State) : Host.Outcome State Fault Refusal :=
  .next (if 16 ≤ p ∨ mOp m ≠ 5 then s else (s.leaveBuf p m).floorIn (mSrc m) (mFloor m))

/-! ### The source (R271, R318, R319, R326, R330) -/

/-- LDL_RBUD.PORTS as the riser copy of a vote binding under way holds it (R421). -/
def State.riserPorts (s : State) (v : Nat) : Nat :=
  match Sparse.get none s.vote v with
  | some b => b.ports
  | none => s.rf .RBUD 0 v 29 14

/-- The port of a request: R319's, among LDL_RBUD.PORTS for a riser write (R412). -/
def State.portFor (s : State) (q : Req) (d off : Nat) : Option Nat :=
  let riser : Bool := q.src = .eng 3 || q.src = .eng 4
  if riser then s.pickAmong ((s.upPorts d).filter fun p => bit (s.riserPorts q.reg) p = 1) d off else s.pickPort d off

/-- A request waits at the owning die's intake (R271, R326, R330): held as a release, its number 1,024 or more above the lowest one
outstanding to the node (so that R272's map can hold it; DEDUCED, log entry 69), 16,384 outstanding at the die, or, to the module's
own node, no room in the completion store. -/
def State.intakeHeld (s : State) (q : Req) (d seq : Nat) : Bool :=
  bit q.addr 63 = 0 || q.rel ≠ [] || 1024 ≤ seqAbove seq (s.floorOf d)
    || 16384 ≤ (s.fab.outs.filter fun o => o.dst % 2 = d % 2).length
    || (d = s.ownNode && s.nodeValid && !(s.storeRoom (d % 2) q.storeNeed))

/-- REMOTE_REQUEST_INTAKE (R271, R318, R319, R326): the owning die numbers the request and sends it, or answers it when
there is no number to send under, no node of the module's own, no port; one whose way to the die has failed ends there (R32). -/
def execRemoteRequestIntake (id : Nat) (s : State) : Host.Outcome State Fault Refusal :=
  .next (match s.reqs.find? fun r => r.id = id with
    | none => s
    | some q =>
      let d := nodeOf q.addr
      let seq := (s.lastSeq d + 1) % 2 ^ 32
      if s.intakeHeld q d seq then s
      else
        let cut := s.cutRoute q
        let s := { s with reqs := s.reqs.filter fun r => r.id ≠ id }
        if cut then s.linkLost q false
        else if !s.nodeValid then s.complete q [] [] [] 3
        else
          let off := fld q.addr 47 0
          let m := s.reqMsg q d seq
          let s := { s with fab := { s.fab with seq := Sparse.set 0 s.fab.seq d seq } }
          let out (s : State) (p : Nat) : State :=
            let o : Outst := { dst := d, seq := seq, req := q, port := p, msg := m }
            { s with fab := { s.fab with outs := s.fab.outs ++ [o], floorDue := s.fab.floorDue.filter (· ≠ d) } }
          if d = s.ownNode then (out s 16).receive 16 m
          else
            match s.portFor q d off with
            | none => s.complete q [] [] [] 4
            | some p => (out s p).txPush p q.flask m)

/-- A completion arrives (R273, R323): the request is over; a number already counted, or never used, is discarded. -/
def State.cmpArrives (s : State) (m : Msg) (data : List Byte) (olds : List Nat) : State :=
  let is (o : Outst) : Bool := o.dst = mSrc m && o.seq = mSeq m
  let s := s.floorIn (mSrc m) (mFloor m)
  match s.fab.outs.find? is with
  | none => s
  | some o =>
    let pw := if mPoi m then List.range 32 else []
    { s with
      fab := { s.fab with outs := s.fab.outs.filter fun o => !(is o), floorDue := NSet.add (mSrc m) s.fab.floorDue }
      resps := s.resps ++ [{ req := o.req, data := data, pois := pw, olds := olds, status := mStatus m }] }

/-- CMP (R323). -/
def execCmp (p : Nat) (m : Msg) (s : State) : Host.Outcome State Fault Refusal :=
  .next (if 16 ≤ p ∨ mOp m ≠ 0x10 then s else (s.leaveBuf p m).cmpArrives m [] [])

/-- RDRSP (R322). -/
def execRdrsp (p : Nat) (m : Msg) (s : State) : Host.Outcome State Fault Refusal :=
  .next (if 16 ≤ p ∨ mOp m ≠ 0x11 then s else (s.leaveBuf p m).cmpArrives m (m.data.take (mLen m)) [])

/-- ATRSP (R322, R562). -/
def execAtrsp (p : Nat) (m : Msg) (s : State) : Host.Outcome State Fault Refusal :=
  .next (if 16 ≤ p ∨ mOp m ≠ 0x12 then s
    else
      let is (o : Outst) : Bool := o.dst = mSrc m && o.seq = mSeq m
      let olds := if (s.fab.outs.any fun o => is o && o.req.kind = .arrive) then [leAt m.data 0 16, leAt m.data 16 8 % 2]
        else (List.range (mNops m)).map fun i => leAt m.data (mAsz m * i) (mAsz m)
      (s.leaveBuf p m).cmpArrives m [] olds)

/-- Opcodes a port knows (R322, R356). -/
def opKnown (op : Nat) : Bool :=
  (1 ≤ op && op ≤ 5) || (0x10 ≤ op && op ≤ 0x12) || op = 0x20 || (0x30 ≤ op && op ≤ 0x39)

/-- UNKNOWN_OPCODE_MESSAGE (R322). -/
def execUnknownOpcodeMessage (p : Nat) (m : Msg) (s : State) : Host.Outcome State Fault Refusal :=
  .next (if 16 ≤ p ∨ opKnown (mOp m) then s
    else ((s.leaveBuf p m).dropMsg p).record 3 0x001B 7 p none m.w0.toNat 0 0)

/-- FLOOR_SEND (R330): a stand-alone FLOOR, on the port R319 gives for offset 0. -/
def execFloorSend (d : Nat) (s : State) : Host.Outcome State Fault Refusal :=
  .next (if !(s.fab.floorDue.contains d) then s
    else
      let m : Msg := { w0 := head0 5 3 d s.ownNode 0 0 false, w1 := 0, w2 := 0, w3 := head3 0 (s.floorOf d), data := [] }
      let s := { s with fab := { s.fab with floorDue := s.fab.floorDue.filter (· ≠ d) } }
      match s.pickPort d 0 with
      | some p => s.txPush p 0 m
      | none => s)

/-- Sent flits after number `a`, oldest first. -/
def dropUpTo (a : Nat) (l : List (Nat × List Byte)) : List (Nat × List Byte) :=
  match firstIdx (fun (e : Nat × List Byte) => decide (e.1 = a)) l with
  | some i => l.drop (i + 1)
  | none => l

/-- A port lets go of the copy of a message it holds (R331), wherever it holds it: the receive buffer apart, a transmit queue, the
message that is leaving, or the replay buffer, with the flits up to its last, which are as old. -/
def Port.forget (q : Port) (m : Msg) : Option Port :=
  match firstIdx (fun (e : Nat × Nat × Msg) => decide (e.2.2 = m)) q.tx with
  | some i => some { q with tx := dropAt i q.tx }
  | none =>
    if q.cur.any fun e => decide (e.2.2 = m) then some { q with cur := none, left := [] }
    else
      match firstIdx (fun (e : Nat × Nat × Msg) => decide (e.2.2 = m)) q.coll with
      | none => none
      | some i =>
        let a := (q.coll.getD i (0, 0, m)).1
        some { q with coll := dropAt i q.coll, unack := dropUpTo a q.unack, replay := dropUpTo a q.replay }

/-- COPY_AGE_DISCARD (R331): a copy a port has held 2,500 ac is discarded. -/
def execCopyAgeDiscard (p : Nat) (m : Msg) (s : State) : Host.Outcome State Fault Refusal :=
  .next (
    if (s.port p).rx.contains m then (s.leaveBuf p m).dropMsg p
    else
      match (s.port p).forget m with
      | some q => (s.modPort p fun _ => q).dropMsg p
      | none => s)

/-- A node is lost (R274, R336): its requests complete with NODELOST, its queued re-sends are dropped, one record. -/
def State.loseNode (s : State) (d : Nat) : State :=
  let mine := s.fab.outs.filter fun o => o.dst = d
  let unq (q : Port) : Port := { q with tx := q.tx.filter fun e => !(e.1 = 0 && mDst e.2.2 = d) }
  let s := { s with fab := { s.fab with outs := s.fab.outs.filter fun o => o.dst ≠ d,
                                        ports := s.fab.ports.map unq } }
  let s := mine.foldl (fun s o => s.complete o.req [] [] [] 4) s
  s.record 3 0x001C 7 (d % 2) none d mine.length 0

/-! ### Node, route and job registers -/

/-- A register's offset for an error record: block base and offset. -/
def lnkOff (p o : Nat) : Nat := 0x0200_0000 + p * 0x1_0000 + o
/-- Offset of a flask register. -/
def flkOff (f o : Nat) : Nat := 0x0100_0000 + f * 0x1_0000 + o

/-- LNK_NODE_WRITE (R318, R346): refused while any active job entry is valid. -/
def execLnkNodeWrite (v : BitVec 32) (s : State) : Host.Outcome State Fault Refusal :=
  .next (if (List.range 16).any s.jobOk then s.refuse (lnkOff 0 0x7000) v.toNat
    else s.wn .NODE 0 0 (fld v.toNat 13 0 + bit v.toNat 31 * 2 ^ 31))

/-- A staged window may be installed (R40, R328). -/
def State.winOk (s : State) (f w : Nat) : Bool :=
  let z := s.rn .JWSIZE f w
  let n := fld z 35 0 * 4096
  let t := fld (s.rn .JWTGT f w) 47 12 * 4096
  bit z 63 = 0 || (n ≠ 0 && (t + n ≤ dramEnd || (apBase ≤ t && t + n ≤ apBase + 0x1_0000_0000)))

/-- JOB_COMMIT (R328): the staged job entry and windows become active, unless refused. -/
def execJobCommit (f : Nat) (s : State) : Host.Outcome State Fault Refusal :=
  let id := s.rf .JOB f 0 15 0
  .next (if 16 ≤ f then s
    else if ((List.range 16).any fun g => g ≠ f && s.jobOk g && s.jobId g = id)
        || !((List.range 32).all (s.winOk f)) || !s.nodeValid then s.refuse (flkOff f 0x5010) 1
    else
      (List.range 32).foldl (fun s w =>
        ((s.wr .JWBASE f (32 + w) (s.rd .JWBASE f w)).wr .JWSIZE f (32 + w) (s.rd .JWSIZE f w)).wr .JWTGT f (32 + w)
          (s.rd .JWTGT f w)) (s.wr .JACT f 0 (s.rd .JOB f 0)))

end Sys2Proof.Machine
end

