-- ==== Sys2Proof/Machine/Ladle.lean ====
section
/-! DEFINITION. Ladle reduction and the tundish (R349 to R371): marks, the canonical tree, stripe credits, checks, late and
stale arrivals, the broadcast, the group registers (R380), and the input journal (R410). -/

namespace Sys2Proof.Machine

/-! ### The canonical tree (R351, R352) -/

/-- Place of node (l, i) for owner `o` among `n` ranks (R352). -/
def place' : Nat → Nat → Nat → Nat → Nat
  | 0, i, _, _ => i
  | l + 1, i, o, n =>
    let p := i * 2 ^ (l + 1) + o % 2 ^ (l + 1)
    if p < n then p else place' l (2 * i) o n

/-- Where rank `r`'s stripe leaves it, from level `l` on: the level, index and place of the node that takes it. -/
def sendTo (r o n : Nat) : Nat → Nat → Option (Nat × Nat × Nat)
  | 0, _ => none
  | k + 1, l =>
    let i := r / 2 ^ (l + 1)
    let p := place' (l + 1) i o n
    if p = r then sendTo r o n k (l + 1) else some (l + 1, i, p)

/-- Levels of the tree. -/
def treeDepth (n : Nat) : Nat := clog2 n

/-- Children that reach rank `r`'s places over the fabric, for owner `o`: level of the receiving node, sending rank. -/
def edgesIn (r o n : Nat) : List (Nat × Nat) :=
  ((List.range (treeDepth n)).map fun l =>
    let i := r / 2 ^ (l + 1)
    if place' (l + 1) i o n ≠ r then []
    else
      let c (k : Nat) : List (Nat × Nat) :=
        if k * 2 ^ l < n ∧ place' l k o n ≠ r then [(l + 1, place' l k o n)] else []
      c (2 * i) ++ c (2 * i + 1)).flatten

/-! ### Groups (R349, R380) -/

/-- Group `g` is valid. -/
def State.gOk (s : State) (g : Nat) : Bool := s.rf .GCFG 0 g 63 63 = 1
/-- WIN. -/
def State.gWin (s : State) (g : Nat) : Nat := s.rf .GCFG 0 g 49 43
/-- RANK. -/
def State.gRank (s : State) (g : Nat) : Nat := s.rf .GCFG 0 g 42 29
/-- NRANK. -/
def State.gN (s : State) (g : Nat) : Nat := s.rf .GCFG 0 g 28 14
/-- FLASK. -/
def State.gFlask (s : State) (g : Nat) : Nat := s.rf .GCFG 0 g 3 0
/-- The group's current step. -/
def State.gStep (s : State) (g : Nat) : Nat := s.rn .GSTEP 0 g
/-- Node of rank `r`. -/
def State.rankNode (s : State) (g r : Nat) : Nat := s.rf .RANKNODE 0 (g * 16384 + r) 13 0
/-- NLAYER in force: the layer table in force stands in entry 4 + g of LDL_LTAB. -/
def State.nLayer (s : State) (g : Nat) : Nat := s.rf .LTAB 0 (4 + g) 63 48

/-- Nothing known of a layer yet. -/
def LayerSt.init : LayerSt :=
  { ent := [], gm := 0, um := 0, started := [], fin := [], parts := [], late := false, blate := false, lines := 0,
    lim := 0, blim := 0 }

/-- A layer of the current step. -/
def State.layer (s : State) (g l : Nat) : LayerSt := (Sparse.get none s.ladle.layers (4096 * g + l)).getD LayerSt.init

/-- The layer changed. -/
def State.modLayer (s : State) (g l : Nat) (f : LayerSt → LayerSt) : State :=
  { s with ladle := { s.ladle with layers := Sparse.set none s.ladle.layers (4096 * g + l) (some (f (s.layer g l))) } }

/-- Words of a layer entry (R360). -/
def LayerSt.w (l : LayerSt) (k : Nat) : Nat := l.ent.getD k 0
/-- Stripes per shard. -/
def LayerSt.shs (l : LayerSt) : Nat := max 1 (fld (l.w 4) 55 32)
/-- Stripes. -/
def LayerSt.nstr (l : LayerSt) : Nat := fld (l.w 4) 31 0
/-- Shards. -/
def LayerSt.shards (l : LayerSt) : Nat := (l.nstr + l.shs - 1) / l.shs

/-- Owner of a stripe. -/
def State.owner (s : State) (g : Nat) (l : LayerSt) (x : Nat) : Nat := x / l.shs % s.gN g

/-- A flag of LDL_GSTAT (0 LATE, 1 CHK, 2 NF, 3 POIS, 4 XMARK) is set by ladle `i`: both instances show the group's flags
(log entry 46). -/
def State.gFlag (s : State) (i g b : Nat) : State := (s.wf .GSTAT i g b b 1).wf .GSTAT (1 - i) g b b 1

/-- RDONE, TDONE and CLEAN follow their inputs (R367, R370, R371). -/
def State.gUpdate (s : State) (g : Nat) : State :=
  let ls := (List.range (s.nLayer g)).map (s.layer g)
  let r := ls.all fun l => l.parts.contains 0 && l.parts.contains 1
  let t := ls.all fun l => l.ent ≠ [] && fld (l.w 7) 31 0 ≤ l.lines
  let bad := fld (s.rn .GSTAT 0 g) 4 0 ≠ 0 || fld (s.rn .GSTAT 1 g) 4 0 ≠ 0
  let v := (if r then 1 else 0) + (if t then 2 else 0) + (if r && t && !bad then 4 else 0)
  (s.wf .GSTAT 0 g 7 5 v).wf .GSTAT 1 g 7 5 v

/-- A fault of an engine that acts for a flask (R448, R457): no core, stream, group, place. -/
def State.engFault (s : State) (f cause : Nat) : State := s.notify (.fault f cause 0 .f 0 0 0)

/-- An engine may access bytes for a flask (R39). -/
def State.engOk (s : State) (f : Nat) (p : Perm) (off n : Nat) : Bool := s.reach none f p off n

/-! ### Collective messages (R356 to R358) -/

/-- Word `k` of a collective header. -/
def cw (m : Msg) (k : Nat) : Nat := leAt m.data (8 * k) 8
/-- LAYER. -/
def cLayer (m : Msg) : Nat := fld (cw m 0) 15 0
/-- STEP. -/
def cStep (m : Msg) : Nat := fld (cw m 0) 47 16
/-- GRP. -/
def cGrp (m : Msg) : Nat := fld (cw m 0) 49 48
/-- STRIPE, or the line index. -/
def cStripe (m : Msg) : Nat := fld (cw m 1) 31 0
/-- PBLK. -/
def cPblk (m : Msg) : Nat := fld (cw m 1) 35 32
/-- LEVEL. -/
def cLevel (m : Msg) : Nat := fld (cw m 1) 40 36
/-- NODE. -/
def cNode (m : Msg) : Nat := fld (cw m 1) 54 41

/-- A collective header. -/
def collHead (w0 w1 w2 w3 : Nat) : List Byte := leBytes 8 w0 ++ leBytes 8 w1 ++ leBytes 8 w2 ++ leBytes 8 w3

/-- Word 0: LAYER, STEP, GRP. -/
def collW0 (layer step grp : Nat) : Nat := layer % 2 ^ 16 + step % 2 ^ 32 * 2 ^ 16 + grp % 4 * 2 ^ 48

/-- Port of a collective message (R358). -/
def State.collPort (s : State) (d key i : Nat) : Option Nat :=
  let up := s.upPorts d
  let mine := up.filter fun p => p / 8 = i
  let l := if mine = [] then up else mine
  if l = [] then none
  else l[(mix (BitVec.ofNat 64 (d * 2 ^ 48) ^^^ BitVec.ofNat 64 key)).toNat / 2 ^ 32 % l.length]?

/-- A collective message of a flask toward a node. -/
def State.collMsg (s : State) (f op d : Nat) (poi : Bool) (w2 : Word64) (data : List Byte) : Msg :=
  { w0 := head0 op 2 d s.ownNode (s.jobId f) (data.length / 4) poi, w1 := 0, w2 := w2, w3 := 0, data := data }

/-- Send a collective message of the engine on die `i`; with no port it is not sent. -/
def State.sendColl (s : State) (f i key : Nat) (m : Msg) : State :=
  match s.collPort (mDst m) key i with
  | some p => s.txPush p (f + 16 * i) m
  | none => s

/-! ### The input journal (R410) -/

/-- The step a flask's engines work in: that of its vote binding, else of its group. -/
def State.stepOf (s : State) (f : Nat) : Nat :=
  match (List.range 4).find? fun v => s.rf .VCFG 0 v 63 63 = 1 && s.rf .VCFG 0 v 3 0 = f with
  | some v => ((Sparse.get none s.vote v).map (·.step)).getD 0
  | none =>
    match (List.range 4).find? fun g => s.gOk g && s.gFlask g = f with
    | some g => s.gStep g
    | none => 0

/-- Append a journal record: KIND, key, the window-relative offset written, the data, poisoned where it is (R22).
One that does not fit sets JFULL, and later ones of the step are dropped. -/
def State.journal (s : State) (f kind key off : Nat) (data : List Byte) (pois : Bool) : State :=
  let half := s.rf .JRNL f 0 63 48 * 2 ^ 20
  if half = 0 then s
  else
    let step := s.stepOf f
    let pos := Sparse.get 0 s.ladle.jpos f
    let bs := leBytes 8 (kind + data.length % 2 ^ 24 * 2 ^ 8 + step % 2 ^ 32 * 2 ^ 32) ++ leBytes 8 key
      ++ leBytes 8 off ++ leBytes 8 0 ++ data ++ List.replicate (roundUp data.length 32 - data.length) 0
    let setp (n : Nat) : State := { s with ladle := { s.ladle with jpos := Sparse.set 0 s.ladle.jpos f n } }
    if half < pos + bs.length then
      if pos ≤ half then (setp (half + 1)).stepEvent f 5 else s
    else (setp (pos + bs.length)).engWrite f (s.rf .JRNL f 0 47 12 * 4096 + step % 2 * half + pos) bs pois

/-- Offset of a byte from the base of the flask's window that holds it. -/
def State.winRel (s : State) (f off : Nat) : Nat := ((s.winOf f off).map (·.2)).getD 0

/-! ### Stripes (R353 to R355) -/

/-- Elements of a BS16 block. -/
def leafVals (field scale : Nat) : List Val := (List.range 32).map (blockVal 16 scale field)

/-- Checksum lanes of a block (R353): the exact sums, rounded once. -/
def checksum (xs : List Val) : Word32 × Word32 :=
  (toF32 (xs.foldl vAdd (.fin false 0 0)), toF32 ((xs.map vAbs).foldl vAdd (.fin false 0 0)))

/-- A leaf from its mantissa fields and scale bytes. -/
def leafOf (mant scales : List Byte) (pblk : Nat) : Stripe :=
  let bs := (List.range 4).map fun b => leafVals (leAt mant (64 * b) 64) (leAt scales b 1)
  { vals := (bs.map fun xs => xs.map toF32).flatten, chk := bs.map checksum, pblk := pblk, raw := mant ++ scales }

/-- A node's sum (R351). -/
def Stripe.add (a b : Stripe) : Stripe :=
  { vals := List.zipWith fAdd a.vals b.vals,
    chk := List.zipWith (fun x y => (fAdd x.1 y.1, fAdd x.2 y.2)) a.chk b.chk, pblk := a.pblk ||| b.pblk, raw := [] }

/-- Checksum pairs of a message. -/
def chkBytes (v : Stripe) : List Byte := (v.chk.map fun c => leBytes 4 c.1.toNat ++ leBytes 4 c.2.toNat).flatten

/-- Checksum pairs from a message. -/
def chkOf (bs : List Byte) (o : Nat) : List (Word32 × Word32) :=
  (List.range 4).map fun b => (BitVec.ofNat 32 (leAt bs (o + 8 * b) 4), BitVec.ofNat 32 (leAt bs (o + 8 * b + 4) 4))

/-- The block passes the owner's check (R354). -/
def checkBlock (d : Nat) (ys : List Word32) (c : Word32 × Word32) : Bool :=
  let sum := (treeFold fAdd 5 ys).headD 0
  let k := fMul (toF32 (.fin false (d + 4) 0)) (toF32 (.fin false 1 (-22)))
  let b := fAdd (fMul k c.2) (toF32 (.fin false 1 (-140)))
  let diff := vAbs (f32 (fSub sum c.1))
  !vNaN diff && !vNaN (f32 b) && (vLt diff (f32 b) || vEq diff (f32 b))

/-! ### Edges and their credits (R364) -/

/-- Key of an edge's credits. -/
def edgeKey (i g r l : Nat) : Nat := ((4 * i + g) * 2 ^ 14 + r) * 16 + l

/-- A node's result has left it: the credits of its edges are to be returned. -/
def State.returnEdges (s : State) (i g : Nat) (es : List (Nat × Nat)) : State :=
  es.foldl (fun s e =>
    let k := (4 * i + g) * 2 ^ 14 + e.1
    { s with ladle := { s.ladle with pend := Sparse.set 0 s.ladle.pend k (Sparse.get 0 s.ladle.pend k + 1) } }) s

/-- Credits owed to a rank go with the next message toward it (R364). The spec does not say how the flit credit fields carry them
beside the link's own: they show as an output of their own (DESIGN CHOICE, log entry 69). -/
def State.clearPend (s : State) (i g r : Nat) : State :=
  let k := (4 * i + g) * 2 ^ 14 + r
  let n := Sparse.get 0 s.ladle.pend k
  if n = 0 then s
  else { s with ladle := { s.ladle with pend := Sparse.set 0 s.ladle.pend k 0 }, out := .credits i g (s.rankNode g r) n :: s.out }

/-! ### Completion of a ladle's part (R367) -/

/-- Raise an object by one for a flask, as a release of ladle `i` (R269, R367). -/
def State.raiseObject (s : State) (i f a : Nat) : State :=
  if a = 0 then s
  else if s.addrBad none f 2 a 8 then s.engFault f addrFault
  else s.send fun id => { emptyReq id (.eng 1) f .signal a 8 with aop := 0, sz := 8, ops := [(1, 0)], reg := i }

/-- The ladle's part of a started layer may have become complete. -/
def State.partCheck (s : State) (i g layer : Nat) : State :=
  let l := s.layer g layer
  if !(l.started.contains i) || l.parts.contains i || l.late then s
  else
    let xs := (List.range l.nstr).filter fun x => x % 2 = i
    let mine := xs.filter fun x => s.owner g l x = s.gRank g
    if (if mine = [] then xs else mine).all l.fin.contains then
      ((s.modLayer g layer fun l => { l with parts := l.parts ++ [i] }).raiseObject i (s.gFlask g) (l.w 6)).gUpdate g
    else s

/-- A stripe is finished here. -/
def State.finStripe (s : State) (g layer x : Nat) : State :=
  (s.modLayer g layer fun l => { l with fin := l.fin ++ [x] }).partCheck (x % 2) g layer

/-! ### Node results -/

/-- The owner's work on a stripe's root (R354, R355, R363): check, count, write, journal. -/
def State.ownerStripe (s : State) (g layer x : Nat) (v : Stripe) : State :=
  let l := s.layer g layer
  let n := s.gN g
  let f := s.gFlask g
  let i := x % 2
  let k := x / l.shs
  let a := fld (l.w 2) 47 0 + 512 * (l.shs * (k / n) + x % l.shs)
  let s := (List.range 4).foldl (fun s b =>
    let ys := (v.vals.drop (32 * b)).take 32
    let bad := (ys.filter fun y => vNonfin (f32 y)).length
    let s := if checkBlock (treeDepth n) ys (v.chk.getD b (0, 0)) then s else (s.addSat .CHK i 0 32 1).gFlag i g 1
    let s := if bad = 0 then s else (s.addSat .NF i 0 32 bad).gFlag i g 2
    let p : Bool := bit v.pblk b = 1
    let s := if p then (s.gFlag i g 3).stepEvent f 0 else s
    let bs := (ys.map fun y => leBytes 4 y.toNat).flatten
    if s.engOk f 1 (a + 128 * b) 128 then s.engWrite f (a + 128 * b) bs p else s.engFault f addrFault) s
  let s := s.journal f 3 (layer + x * 2 ^ 16) (s.winRel f a) (v.vals.map fun y => leBytes 4 y.toNat).flatten
    (v.pblk ≠ 0)
  (s.finStripe g layer x).gUpdate g

/-- The message that carries a child to rank `d`'s node (level, node): LEAF for a level-0 child, else PART (R356). -/
def State.childMsg (s : State) (g layer x level node d : Nat) (v : Stripe) : Msg :=
  let h := collHead (collW0 layer (s.gStep g) g)
    (x % 2 ^ 32 + v.pblk % 16 * 2 ^ 32 + level % 32 * 2 ^ 36 + node % 2 ^ 14 * 2 ^ 41) 0 0
  let body := if level ≠ 1 then (v.vals.map fun y => leBytes 4 y.toNat).flatten ++ chkBytes v
    else v.raw ++ leBytes 4 0 ++ chkBytes v
  s.collMsg (s.gFlask g) (if level ≠ 1 then 0x31 else 0x30) (s.rankNode g d) (v.pblk ≠ 0) 0 (h ++ body)

/-- A child leaves for its parent's place when the edge has a credit (R364); else it waits. -/
def State.sendChild (s : State) (h : Hold) : State :=
  let i := h.stripe % 2
  let o := s.owner h.g (s.layer h.g h.layer) h.stripe
  let d := place' h.level h.node o (s.gN h.g)
  let k := edgeKey i h.g d h.level
  if s.gWin h.g ≤ Sparse.get 0 s.ladle.used k then { s with ladle := { s.ladle with outq := s.ladle.outq ++ [h] } }
  else
    let s := { s with ladle := { s.ladle with used := Sparse.set 0 s.ladle.used k (Sparse.get 0 s.ladle.used k + 1) } }
    let s := (s.returnEdges i h.g h.edges).clearPend i h.g d
    (s.sendColl (s.gFlask h.g) i h.stripe (s.childMsg h.g h.layer h.stripe h.level h.node d h.v)).finStripe h.g h.layer
      h.stripe

/-- A child is present at node (level, node), placed here: held for its sibling, added to it, or passed on (R351, R363). -/
def State.nodeIn (g layer x : Nat) : Nat → Nat → Nat → Stripe → List (Nat × Nat) → State → State
  | 0, _, _, _, _, s => s
  | k + 1, level, node, v, es, s =>
    let n := s.gN g
    let o := s.owner g (s.layer g layer) x
    let leave (s : State) (v : Stripe) (es : List (Nat × Nat)) : State :=
      if level = treeDepth n then (s.returnEdges (x % 2) g es).ownerStripe g layer x v
      else if place' (level + 1) (node / 2) o n = s.gRank g then
        State.nodeIn g layer x k (level + 1) (node / 2) v [] (s.returnEdges (x % 2) g es)
      else s.sendChild { g := g, layer := layer, level := level + 1, node := node / 2, stripe := x, v := v, edges := es }
    let is (h : Hold) : Bool := h.g = g && h.layer = layer && h.level = level && h.node = node && h.stripe = x
    if n ≤ (2 * node + 1) * 2 ^ (level - 1) then leave s v es
    else
      match s.ladle.hold.find? is with
      | some h =>
        leave { s with ladle := { s.ladle with hold := s.ladle.hold.filter fun h => !(is h) } } (v.add h.v) (es ++ h.edges)
      | none =>
        let h : Hold := { g := g, layer := layer, level := level, node := node, stripe := x, v := v, edges := es }
        { s with ladle := { s.ladle with hold := s.ladle.hold ++ [h] } }

/-- This module's leaf of a stripe. -/
def State.leafIn (s : State) (g layer x : Nat) (v : Stripe) : State :=
  let n := s.gN g
  let r := s.gRank g
  let o := s.owner g (s.layer g layer) x
  if treeDepth n = 0 then s.ownerStripe g layer x v
  else if place' 1 (r / 2) o n = r then State.nodeIn g layer x 20 1 (r / 2) v [] s
  else s.sendChild { g := g, layer := layer, level := 1, node := r / 2, stripe := x, v := v, edges := [] }

/-! ### Marks (R361, R362) -/

/-- Read a layer's entry at the first mark that names it (R360). -/
def State.readEntry (s : State) (g l : Nat) : State :=
  if (s.layer g l).ent ≠ [] then s
  else
    let f := s.gFlask g
    let a := s.rf .LTAB 0 (4 + g) 47 0 + 64 * l
    if !(s.engOk f 0 a 64) then s.engFault f addrFault
    else
      let r := s.engRead f a 64
      (r.2.2.poisEvent f r.2.1).modLayer g l fun e => { e with ent := (List.range 8).map fun k => leAt r.1 (8 * k) 8 }

/-- A mark reaches the ladles: one that names no group or layer of its flask raises the fault of R361. -/
def State.mark (s : State) (m : Mark) (f : Nat → Nat → State → State) : State :=
  let g := fld m.val 13 12
  let l := fld m.val 11 0
  let s := { s with ladle := { s.ladle with marks := s.ladle.marks.erase m } }
  if !(s.gOk g) || s.gFlask g ≠ m.flask || s.nLayer g ≤ l || bit m.val 14 = 1 then s.raise m.who illegal m.pc 0
  else (f g l (s.readEntry g l)).gUpdate g

/-- GRADIENT_MARK (R361, R362). -/
def execGradientMark (m : Mark) (s : State) : Host.Outcome State Fault Refusal :=
  .next (if !(s.ladle.marks.contains m) || bit m.val 15 = 1 then s
    else s.mark m fun g l s =>
      if (s.layer g l).gm < fld ((s.layer g l).w 5) 35 24 then s.modLayer g l fun e => { e with gm := e.gm + 1 }
      else (s.gFlag 0 g 4).gFlag 1 g 4)

/-- LAYER_REDUCTION_START (R353, R362): once every gradient mark has come, the ladle reads its stripes in ascending order
and forms their leaves. -/
def execLayerReductionStart (i g layer : Nat) (s : State) : Host.Outcome State Fault Refusal :=
  let l := s.layer g layer
  .next (if 2 ≤ i || !(s.gOk g) || l.ent = [] || l.gm ≠ fld (l.w 5) 35 24 || l.started.contains i || l.late then s
    else
      let f := s.gFlask g
      let s := s.modLayer g layer fun l =>
        { l with started := l.started ++ [i], lim := if l.started = [] then s.rn .LWAIT 0 0 else l.lim }
      let xs := (List.range l.nstr).filter fun x => x % 2 = i
      let s := xs.foldl (fun s x =>
        let ma := fld (l.w 0) 47 0 + 256 * x
        let sa := fld (l.w 1) 47 0 + 4 * x
        if !(s.engOk f 0 ma 256) || !(s.engOk f 0 sa 4) then s.engFault f addrFault
        else
          let m := s.engRead f ma 256
          let c := m.2.2.engRead f sa 4
          let s := c.2.2
          let pb (b : Nat) : Bool := s.poisoned (s.view (ma + 64 * b)) 64 || s.poisoned (s.view (sa + b)) 1
          let pblk := (List.range 4).foldl (fun a b => a + if pb b then 2 ^ b else 0) 0
          (s.poisEvent f (pblk ≠ 0)).leafIn g layer x (leafOf m.1 c.1 pblk)) s
      (s.partCheck i g layer).gUpdate g)

/-! ### Arrivals (R356, R359, R364 to R366) -/

/-- Credits come back for the edges toward a rank, lowest level first; results that waited may go. -/
def State.creditsBack (s : State) (i g r cr : Nat) : State :=
  let s := ((List.range 16).foldl (fun (p : Nat × State) l =>
    let k := edgeKey i g r l
    let u := Sparse.get 0 p.2.ladle.used k
    let n := min u p.1
    (p.1 - n, { p.2 with ladle := { p.2.ladle with used := Sparse.set 0 p.2.ladle.used k (u - n) } })) (cr, s)).2
  let q := s.ladle.outq
  q.foldl State.sendChild { s with ladle := { s.ladle with outq := [] } }

/-- Rank of a node in a group. -/
def State.nodeRank (s : State) (g node : Nat) : Option Nat := (List.range (s.gN g)).find? fun r => s.rankNode g r = node

/-- Credits of ladle `i` that came with a message from a node. -/
def State.takeCredits (s : State) (i g node cr : Nat) : State :=
  if cr = 0 then s
  else
    match s.nodeRank g node with
    | some r => s.creditsBack i g r cr
    | none => s

/-- The ladle a message on port `p` belongs to: that of its stripe or line; for a LATE, that of the port's die (R358; DEDUCED, log
entry 69). -/
def ladleOf (p : Nat) (m : Msg) : Nat := if mOp m = 0x33 then p / 8 % 2 else if mOp m = 0x39 then 0 else cStripe m % 2

/-- LAYER of a LATE that returns credits and abandons nothing: no table has such a layer (DESIGN CHOICE, log entry 69). -/
def creditLayer : Nat := 0xFFFF

/-- The layer is abandoned here (R365): LATE goes to the place each of its stripes would go to, from the ladle of the
stripe (R358; log entry 46). -/
def State.abandon (s : State) (i g layer : Nat) : State :=
  if (s.layer g layer).late then s
  else
    let l := s.layer g layer
    let n := s.gN g
    let r := s.gRank g
    let os := (if l.ent = [] then (List.range n).map fun o => (o, i)
      else (List.range l.nstr).map fun x => (s.owner g l x, x % 2)).eraseDups
    let ds := (os.filterMap fun o => (sendTo r o.1 n (treeDepth n) 0).map fun e => (e.2.2, o.2)).eraseDups
    let drop (h : Hold) : Bool := !(h.g = g && h.layer = layer)
    let s := { s with ladle := { s.ladle with hold := s.ladle.hold.filter drop, outq := s.ladle.outq.filter drop } }
    let s := ((s.modLayer g layer fun l => { l with late := true }).gFlag i g 0).addSat .LATE i 0 32 1
    (ds.foldl (fun s d => s.sendColl (s.gFlask g) d.2 0
      (s.collMsg (s.gFlask g) 0x33 (s.rankNode g d.1) false 0 (collHead (collW0 layer (s.gStep g) g) 0 0 0))) s).gUpdate g

/-- Bytes of ladle `i`'s early buffer in use. -/
def State.earlyUsed (s : State) (i : Nat) : Nat :=
  (s.ladle.early.filter fun e => ladleOf e.1 e.2.1 = i).foldl (fun a e => a + (msgBytes e.2.1).length) 0

/-- A message for the group's next step waits in its ladle's early buffer (R366). -/
def State.putEarly (s : State) (i p : Nat) (m : Msg) (cr : Nat) : State :=
  if s.earlyUsed i + (msgBytes m).length ≤ 512 * 1024 then
    { s with ladle := { s.ladle with early := s.ladle.early ++ [(p, m, cr)] } }
  else s.addSat .STALE i 0 32 1

/-- The group and flask of a collective message, or none: it is discarded and counted. -/
def State.collGroup (s : State) (m : Msg) : Option Nat :=
  match s.jobFlask m with
  | some f => if s.gOk (cGrp m) && s.gFlask (cGrp m) = f then some f else none
  | none => none

/-- Record a key of R359; false when it was there. -/
def State.firstCopy (s : State) (key : List Nat) : Bool × State :=
  if s.ladle.seen.contains key then (false, s) else (true, { s with ladle := { s.ladle with seen := s.ladle.seen ++ [key] } })

/-- A LEAF or PART of the current step. -/
def State.takeChild (s : State) (m : Msg) : State :=
  let g := cGrp m
  let i := cStripe m % 2
  let (new, s) := s.firstCopy [g, cStep m, cLayer m, cLevel m, cNode m, cStripe m]
  if (s.layer g (cLayer m)).late then s.addSat .STALE i 0 32 1
  else if !new then s.addSat .DUP i 0 32 1
  else
    let v : Stripe := if mOp m = 0x30 then
        { leafOf (slice m.data 32 256) (slice m.data 288 4) (cPblk m) with chk := chkOf m.data 296, raw := [] }
      else { vals := (List.range 128).map fun k => BitVec.ofNat 32 (leAt m.data (32 + 4 * k) 4), chk := chkOf m.data 544,
             pblk := cPblk m, raw := [] }
    let es := match s.nodeRank g (mSrc m) with
      | some r => [(r, cLevel m)]
      | none => []
    State.nodeIn g (cLayer m) (cStripe m) 20 (cLevel m) (cNode m) v es s

/-- The die whose tundish handles a line of a layer (R369): that of the line's place in its shard. -/
def State.tundDie (s : State) (g layer y : Nat) : Nat := y % max 1 (fld ((s.layer g layer).w 5) 23 0) % 2

/-- A TUND of the current step (R369, R370). -/
def State.takeTund (s : State) (p : Nat) (m : Msg) (f : Nat) : State :=
  let g := cGrp m
  let layer := cLayer m
  let y := cStripe m
  let i := s.tundDie g layer y
  let (new, s) := s.firstCopy [g, cStep m, layer, y]
  let l := s.layer g layer
  if l.late || l.blate then s.addSat .STALE i 0 32 1
  else if !new then s.addSat .DUP i 0 32 1
  else
    match s.winAt f 1 (mOffset m) 128 false with
    | .inl _ => ((s.addSat .REJECT p 0 32 1).gFlag i g 0).gUpdate g
    | .inr a =>
      let bs := slice m.data 32 128
      let s := s.engWrite f a bs (mPoi m)
      let s := if layer < s.nLayer g then s.readEntry g layer else s
      let l := s.layer g layer
      let s := if mPoi m then (s.gFlag i g 3).stepEvent f 0 else s
      let s := s.journal f 4 (layer + y * 2 ^ 16) (s.winRel f a) bs (mPoi m)
      let s := s.modLayer g layer fun l => { l with lines := l.lines + 1 }
      let k := y / max 1 (fld (l.w 5) 23 0)
      let n := s.gN g
      (((edgesIn (s.gRank g) (k % n) n).map (·.2)).foldl (fun s d =>
        s.sendColl f (s.tundDie g layer y) y { m with w0 := head0 0x32 2 (s.rankNode g d) s.ownNode (s.jobId f) (mDlen m) (mPoi m) }) s).gUpdate g

/-- Process a message of the ladle, and the credits that came with it, by its step (R364, R366). -/
def State.ladleMsg (s : State) (p : Nat) (m : Msg) (cr : Nat) : State :=
  match s.collGroup m with
  | none => s.dropMsg p
  | some f =>
    let g := cGrp m
    let i := ladleOf p m
    if cStep m = s.gStep g then
      let s := s.takeCredits i g (mSrc m) cr
      if mOp m = 0x32 then s.takeTund p m f
      else if mOp m = 0x33 then (if cLayer m = creditLayer then s else s.abandon i g (cLayer m))
      else s.takeChild m
    else if cStep m = (s.gStep g + 1) % 2 ^ 32 then s.putEarly i p m cr
    else s.addSat .STALE i 0 32 1

/-- A collective message arrives on a port. -/
def State.collRow (s : State) (p : Nat) (m : Msg) (op : Nat) (f : State → State) : State :=
  if 16 ≤ p ∨ mOp m ≠ op then s else f (s.leaveBuf p m)

/-- LEAF (R356, R363). -/
def execLeaf (p : Nat) (m : Msg) (cr : Nat) (s : State) : Host.Outcome State Fault Refusal :=
  .next (s.collRow p m 0x30 fun s => s.ladleMsg p m cr)
/-- PART (R356, R363). -/
def execPart (p : Nat) (m : Msg) (cr : Nat) (s : State) : Host.Outcome State Fault Refusal :=
  .next (s.collRow p m 0x31 fun s => s.ladleMsg p m cr)
/-- LATE (R364, R365). -/
def execLate (p : Nat) (m : Msg) (cr : Nat) (s : State) : Host.Outcome State Fault Refusal :=
  .next (s.collRow p m 0x33 fun s => s.ladleMsg p m cr)
/-- TUND (R369). -/
def execTund (p : Nat) (m : Msg) (s : State) : Host.Outcome State Fault Refusal :=
  .next (s.collRow p m 0x32 fun s => s.ladleMsg p m 0)

/-- LATE_CREDIT_RETURN (R364): pending credits of a ladle's group leave in LATE messages. -/
def execLateCreditReturn (i g : Nat) (s : State) : Host.Outcome State Fault Refusal :=
  .next (if 2 ≤ i || !(s.gOk g) then s
    else ((List.range (s.gN g)).filter fun r => Sparse.get 0 s.ladle.pend ((4 * i + g) * 2 ^ 14 + r) ≠ 0).foldl
      (fun s r => (s.clearPend i g r).sendColl (s.gFlask g) i 0
        (s.collMsg (s.gFlask g) 0x33 (s.rankNode g r) false 0 (collHead (collW0 creditLayer (s.gStep g) g) 0 0 0))) s)

/-- LAYER_ABANDON (R365): the wait bound has passed with a stripe of the ladle unfinished here for want of a child. -/
def execLayerAbandon (i g layer : Nat) (s : State) : Host.Outcome State Fault Refusal :=
  let l := s.layer g layer
  let open' (x : Nat) : Bool := !(l.fin.contains x)
    && !(s.ladle.outq.any fun h => h.g = g && h.layer = layer && h.stripe = x)
  .next (if 2 ≤ i || !(s.gOk g) || l.lim = 0 || !(l.started.contains i) || l.late
      || !(((List.range l.nstr).filter fun x => x % 2 = i).any open') then s
    else s.abandon i g layer)

/-! ### The tundish (R369, R370) -/

/-- The owner sends the lines of its shards (R369), reading each where its job window maps PBASE. -/
def State.broadcast (s : State) (g layer : Nat) : State :=
  let l := s.layer g layer
  let f := s.gFlask g
  let n := s.gN g
  let r := s.gRank g
  let pls := fld (l.w 5) 23 0
  let ks := (List.range l.shards).filter fun k => k % n = r
  ks.foldl (fun s k => (List.range pls).foldl (fun s y =>
    let off := fld (l.w 3) 47 0 + 128 * (pls * k + y)
    let a := match s.winAt f 0 off 128 false with
      | .inr a => a
      | .inl _ => off
    if !(s.engOk f 0 a 128) then s.engFault f addrFault
    else
      let d := s.engRead f a 128
      let s := d.2.2.poisEvent f d.2.1
      let data := collHead (collW0 layer (s.gStep g) g) ((pls * k + y) % 2 ^ 32) 0 0 ++ d.1
      ((edgesIn r (k % n) n).map (·.2)).foldl (fun s c =>
        s.sendColl f (s.tundDie g layer (pls * k + y)) (pls * k + y) (s.collMsg f 0x32 (s.rankNode g c) d.2.1 (head2 off 128) data)) s) s) s

/-- UPDATE_MARK (R361, R369): counted; the last starts the layer's broadcast. -/
def execUpdateMark (m : Mark) (s : State) : Host.Outcome State Fault Refusal :=
  .next (if !(s.ladle.marks.contains m) || bit m.val 15 = 0 then s
    else s.mark m fun g l s =>
      let nmu := fld ((s.layer g l).w 5) 47 36
      if (s.layer g l).um < nmu then
        let s := s.modLayer g l fun e => { e with um := e.um + 1, blim := if e.um = 0 then s.rn .LWAIT 0 0 else e.blim }
        if (s.layer g l).um = nmu then s.broadcast g l else s
      else (s.gFlag 0 g 4).gFlag 1 g 4)

/-- BROADCAST_WAIT_EXPIRY (R370). -/
def execBroadcastWaitExpiry (i g layer : Nat) (s : State) : Host.Outcome State Fault Refusal :=
  let l := s.layer g layer
  .next (if 2 ≤ i || !(s.gOk g) || l.blim = 0 || l.um = 0 || fld (l.w 7) 31 0 ≤ l.lines || l.blate then s
    else ((s.modLayer g layer fun l => { l with blate := true }).gFlag i g 0).gUpdate g)

/-! ### Group registers -/

/-- LDL_CLR_CHK (R380). -/
def execLdlClrChk (i : Nat) (s : State) : Host.Outcome State Fault Refusal := .next (s.wn .CHK i 0 0)
/-- LDL_CLR_NF (R380). -/
def execLdlClrNf (i : Nat) (s : State) : Host.Outcome State Fault Refusal := .next (s.wn .NF i 0 0)
/-- LDL_CLR_LATE (R380). -/
def execLdlClrLate (i : Nat) (s : State) : Host.Outcome State Fault Refusal := .next (s.wn .LATE i 0 0)
/-- LDL_CLR_DUP (R380). -/
def execLdlClrDup (i : Nat) (s : State) : Host.Outcome State Fault Refusal := .next (s.wn .DUP i 0 0)
/-- LDL_CLR_STALE (R380). -/
def execLdlClrStale (i : Nat) (s : State) : Host.Outcome State Fault Refusal := .next (s.wn .STALE i 0 0)

/-- Everything a group holds of a step is gone (R366): marks, flags, holds, filters, credits used. -/
def State.clearGroup (s : State) (g : Nat) : State :=
  let keep (h : Hold) : Bool := h.g ≠ g
  let lad := { s.ladle with
    layers := s.ladle.layers.filter fun e => e.1 / 4096 ≠ g
    hold := s.ladle.hold.filter keep
    outq := s.ladle.outq.filter keep
    used := s.ladle.used.filter fun e => e.1 / 2 ^ 18 % 4 ≠ g
    pend := s.ladle.pend.filter fun e => e.1 / 2 ^ 14 % 4 ≠ g
    seen := s.ladle.seen.filter fun k => k.headD 0 ≠ g }
  (State.wn { s with ladle := lad } .GSTAT 0 g 0).wn .GSTAT 1 g 0

/-- The staged layer table comes into force. -/
def State.loadTab (s : State) (g : Nat) : State := s.wr .LTAB 0 (4 + g) (s.rd .LTAB 0 g)

/-- A group becomes valid: its layer table is in force, and its step is that of its flask's binding (R380, R384). -/
def State.joinStep (s : State) (g f : Nat) : State :=
  let s := s.loadTab g
  if (List.range 4).any fun v => s.rf .VCFG 0 v 63 63 = 1 && s.rf .VCFG 0 v 3 0 = f then s.wn .GSTEP 0 g (s.stepOf f) else s

/-- Hold entries a configuration needs (R364): WIN for each distinct edge into the module over all owners. -/
def holdNeed (win r n : Nat) : Nat := win * ((List.range n).map fun o => edgesIn r o n).flatten.eraseDups.length

/-- Offset of a ladle register, for a record. -/
def ldlOff (i o : Nat) : Nat := 0x0300_0000 + i * 0x10_0000 + o

/-- A flask of the image that is a host flask. -/
def State.isHost (s : State) (f : Nat) : Bool := f < s.nf && !(s.isGuest f)

/-- LDL_GCFG_WRITE (R364, R380): refused on the grounds the field table gives. -/
def execLdlGcfgWrite (g : Nat) (v : BitVec 64) (s : State) : Host.Outcome State Fault Refusal :=
  let n := v.toNat
  let win := fld n 49 43
  let rank := fld n 42 29
  let nrank := fld n 28 14
  let f := fld n 3 0
  let others := ((List.range 4).filter fun h => h ≠ g && s.gOk h).foldl
    (fun a h => a + holdNeed (s.gWin h) (s.gRank h) (s.gN h)) 0
  let bad := bit n 63 = 1 && (s.jobOk f || nrank = 0 || 16384 < nrank || nrank ≤ rank || win = 0 || 64 < win
    || !(s.isHost f) || 7168 < others + holdNeed win rank nrank)
  .next (if 4 ≤ g then s
    else if bad then s.refuse (ldlOff 0 (g * 0x20)) n
    else if f < s.nf && s.isGuest f then s.refuseCmd (ldlOff 0 (g * 0x20)) 1
    else
      let keep := bit n 63 * 2 ^ 63 + win * 2 ^ 43 + rank * 2 ^ 29 + nrank * 2 ^ 14 + f
      let s := (s.wn .GCFG 0 g keep).clearGroup g
      if bit n 63 = 1 then (s.joinStep g f).gUpdate g else s)

end Sys2Proof.Machine
end

