-- ==== Sys2Proof/Machine/Runner.lean ====
section
/-! DEFINITION. The layer-complete mark as an instruction (R148, R193), the runner ring (R372 to R375) and the inter-stage
activation queues (R376 to R378). -/

namespace Sys2Proof.Machine

/-! ### Instructions that are held for an engine (R191, R290) -/

/-- Present an instruction that is held for an engine: while it is not ready its group waits, the program counter on the
instruction; once ready it issues. -/
def presentWait (x : Who) (kind : WKind) (obj : Nat) (regs : List Nat) (chk : Check) (rdy : State → Group → Bool)
    (eff : State → Group → State) (s : State) : State :=
  let other (gr : Group) : Bool := match gr.wait with
    | some w => w.kind ≠ kind
    | none => false
  match s.group x with
  | none => s
  | some gr =>
    if !(s.core x.core).runs x.strm || other gr then s
    else if !(s.fetchOk x gr.pc) then s.raise x addrFault gr.pc gr.pc
    else if gr.waits regs || !gr.acq.isEmpty then s
    else
      match chk s gr with
      | some e => ((s.fetched x gr.pc).countIssue x).raise x e.1 gr.pc e.2
      | none =>
        if rdy s gr then eff (((s.fetched x gr.pc).retire x).modGroup x fun h => { h with wait := none }) gr
        else if gr.wait.isSome then s
        else (s.fetched x gr.pc).modGroup x fun h => { h with wait := some (newWait kind obj 0 0 0) }

/-- A request in flight, wherever it is, or its answer, satisfies a test. -/
def State.inFlight (s : State) (t : Req → Bool) : Bool :=
  s.reqs.any t || s.resps.any (fun p => t p.req) || s.fab.outs.any (fun o => t o.req)
    || s.m.miss.any fun e => e.2.any t

/-- Every MDRAIN, store and atomic of the core's U stream has completed (R148). -/
def State.uQuiet (s : State) (g : Nat) : Bool :=
  let isU (q : Req) : Bool := match q.src with
    | .grp y => y.core = g && y.strm = .u
        && (q.kind = .write || q.kind = .atom || q.kind = .signal || q.kind = .arrive || q.kind = .depart)
    | _ => false
  let isDrain (m : MQ) : Bool := m.who.strm = .u && (match m.op with
    | .drain .. => true
    | _ => false)
  !(s.inFlight isU) && !((s.core g).mq.any isDrain) && (s.core g).groups.all fun gr => gr.strm ≠ .u || gr.stores.isEmpty

/-- LCMK (R148, R193, R361): the mark leaves for both ladles. -/
def execLcmk (x : Who) (w : BitVec 56) (s : State) : Host.Outcome State Fault Refusal :=
  let n := w.toNat
  .next (present x (fun s gr => gr.held true [] || (x.strm = .u && !(s.uQuiet x.core)))
    (fun _ _ => need (x.strm = .u && fld n 55 51 = 0 && formS n false false false 16))
    (fun s gr => { s with ladle := { s.ladle with marks := s.ladle.marks ++
      [{ who := x, pc := gr.pc, flask := s.flaskOf x, val := fld n 15 0 }] } }) s)

/-! ### Sequence contexts (R372) -/

/-- A context that has run no round. -/
def RingSt.init : RingSt :=
  { run := false, round := 0, flask := 0, ent := [], sent := 0, cred := 0, got := [], frees := [], freed := [], rcrd := [] }

/-- A context's ring state. -/
def State.ring (s : State) (c : Nat) : RingSt := (Sparse.get none s.runner.ctx c).getD RingSt.init

/-- The ring state replaced. -/
def State.setRing (s : State) (c : Nat) (r : RingSt) : State :=
  { s with runner := { s.runner with ctx := Sparse.set none s.runner.ctx c (some r) } }

/-- The context is assigned to the flask. -/
def State.ctxOf (s : State) (c f : Nat) : Bool :=
  c < 32 && bit (s.rn .CTXEN 0 0) c = 1 && fld (s.rn .CTXOWN 0 (c / 8)) (4 * (c % 8) + 3) (4 * (c % 8)) = f

/-- Words of the context entry. -/
def RingSt.w (r : RingSt) (k : Nat) : Nat := r.ent.getD k 0
/-- BSZ. -/
def RingSt.bsz (r : RingSt) : Nat := fld (r.w 2) 15 0
/-- MODE is ACCUM. -/
def RingSt.accum (r : RingSt) : Bool := bit (r.w 2) 16 = 1
/-- Q. -/
def RingSt.size (r : RingSt) : Nat := fld (r.w 2) 23 17 + 1
/-- CBASE. -/
def RingSt.cbase (r : RingSt) : Nat := fld (r.w 4) 11 0
/-- NCORE. -/
def RingSt.ncore (r : RingSt) : Nat := fld (r.w 4) 24 12
/-- NFREE. -/
def RingSt.nfree (r : RingSt) : Nat := fld (r.w 4) 30 25
/-- Lines of the block on each core. -/
def RingSt.slice (r : RingSt) : Nat := r.bsz / r.ncore
/-- Offset of the buffer that holds block `t`. -/
def RingSt.buf (r : RingSt) (t : Nat) : Nat := if t % 2 = 0 then fld (r.w 3) 19 0 else fld (r.w 3) 39 20
/-- Blocks this member sends: Q − 1, and in ACCUM mode its last as well. -/
def RingSt.sends (r : RingSt) : Nat := if r.accum then r.size else r.size - 1
/-- The core is an attention core. -/
def RingSt.has (r : RingSt) (g : Nat) : Bool := r.cbase ≤ g && g < r.cbase + r.ncore

/-- Module offset of line λ of block `t` in the local buffers (R372). -/
def RingSt.at (r : RingSt) (t lam : Nat) : Nat :=
  lsAt (r.cbase + lam / r.slice) (r.buf t + 128 * (lam % r.slice))

/-- Lines `[lo, hi)` of block `t` are present: block 0 from the start, a later one as received. -/
def RingSt.present (r : RingSt) (t lo hi : Nat) : Bool :=
  t = 0 || (List.range (hi - lo)).all fun i => r.got.contains (t - 1, lo + i)

/-- Every attention core has issued its RFREEs for block `t`. -/
def RingSt.released (r : RingSt) (t : Nat) : Bool :=
  (List.range r.ncore).all fun i => r.nfree ≤ Sparse.get 0 r.frees (4096 * t + r.cbase + i)

/-- The context entry of a flask, or none where the engine may not read it. -/
def State.ctxEntry (s : State) (f c : Nat) : Option (List Nat) × State :=
  let a := s.rf .CTAB f 0 47 6 * 64 + 64 * c
  if s.engOk f 0 a 64 then
    let r := s.engRead f a 64
    (some ((List.range 8).map fun k => leAt r.1 (8 * k) 8), r.2.2.poisEvent f r.2.1)
  else (none, s)

/-- An engine copies a line for a flask; poison goes with it. -/
def State.engLineTo (s : State) (f src dst : Nat) : State :=
  if !(s.engOk f 0 src 128) || !(s.engOk f 1 dst 128) then s.engFault f addrFault
  else
    let d := s.engRead f src 128
    (d.2.2.poisEvent f d.2.1).engWrite f dst d.1 d.2.1

/-- A round starts (R373): the entry as read, ROUND one higher, the origin block in buffer 0, every t_g zero. -/
def State.startRound (s : State) (f c : Nat) (ent : List Nat) : State :=
  let r : RingSt := { RingSt.init with run := true, round := ((s.ring c).round + 1) % 2 ^ 32, flask := f, ent := ent, cred := 1 }
  let s := (List.range r.bsz).foldl (fun s lam => s.engLineTo f (fld (r.w 0) 47 0 + 128 * lam) (r.at 0 lam)) s
  let clear (e : Nat × Core) : Nat × Core :=
    (e.1, { e.2 with groups := e.2.groups.map fun gr => { gr with ring := Sparse.set 0 gr.ring c 0 } })
  State.setRing { s with cores := s.cores.map clear } c r

/-- A runner-ring message of a context: RBLK or RCRD, for block `t`, line `lam`. -/
def State.ringMsg (s : State) (c : Nat) (r : RingSt) (op d t lam : Nat) (poi : Bool) (data : List Byte) : Msg :=
  s.collMsg r.flask op d poi 0
    (collHead 0 0 (c % 32 + r.round * 2 ^ 5 + t % 128 * 2 ^ 37 + lam % 2 ^ 16 * 2 ^ 44) 0 ++ data)

/-- Buffers that have become free send their credits to PREV (R374); the round ends when its condition holds. -/
def State.ringSettle (s : State) (c : Nat) : State :=
  let r := s.ring c
  if !r.run then s
  else
    let free (t : Nat) : Bool := !(r.freed.contains t) && r.released t && (r.accum || r.size ≤ t + 1 || t < r.sent)
    let ts := (List.range r.size).filter free
    let prev := fld (r.w 5) 27 14
    let s := ts.foldl (fun s t => s.sendColl r.flask (c % 2) 0 (s.ringMsg c r 0x36 prev t 0 false [])) s
    let r := { r with freed := r.freed ++ ts }
    let back := (List.range r.bsz).all fun i => r.got.contains (r.size - 1, i)
    let done := if r.accum then back && r.sent = r.size else r.freed.contains (r.size - 1)
    s.setRing c (if done then { r with run := false, got := [], frees := [], freed := [], rcrd := [] } else r)

/-! ### RNEXT and RFREE (R375) -/

/-- Form and ownership of a ring instruction: its context is the flask's, its stream is not G. -/
def ringForm (s : State) (x : Who) (n : Nat) : Bool :=
  !(isG x.strm) && formS n false false false 5 && s.ctxOf (fld n 4 0) (s.flaskOf x)

/-- The context's round as the instruction finds it: the running one, or that of the entry it would start. -/
def State.ringSeen (s : State) (x : Who) (c : Nat) : RingSt :=
  let r := s.ring c
  if r.run then r
  else
    match (s.ctxEntry (s.flaskOf x) c).1 with
    | some e => { RingSt.init with ent := e }
    | none => { RingSt.init with ent := [] }

/-- RNEXT (R191, R373, R375): starts a round where none runs; held until the core's slice of block t_g is present, and
then writes the record. -/
def execRnext (x : Who) (w : BitVec 56) (s : State) : Host.Outcome State Fault Refusal :=
  let n := w.toNat
  let ua := fld n 55 51
  let c := fld n 4 0
  let pre (gr : Group) : Nat := fld (gr.unif ua).toNat 19 0
  let tg (s : State) (gr : Group) : Nat := if (s.ring c).run then Sparse.get 0 gr.ring c else 0
  let chk (s : State) (gr : Group) : Option (Nat × Nat) :=
    if !(ringForm s x n) then some (illegal, 0)
    else if !(s.ring c).run && (s.ctxEntry (s.flaskOf x) c).1.isNone then some (addrFault, s.rf .CTAB (s.flaskOf x) 0 47 6 * 64 + 64 * c)
    else if !((s.ringSeen x c).has x.core) || (s.ringSeen x c).size ≤ tg s gr then some (illegal, 0)
    else if pre gr % 16 ≠ 0 || !(s.lsOk x.core false (pre gr) 16) then some (addrFault, pre gr)
    else none
  let here (r : RingSt) (t : Nat) : Bool := r.present t ((x.core - r.cbase) * r.slice) ((x.core - r.cbase + 1) * r.slice)
  -- the first RNEXT after a round has ended starts the next one
  let begin' (s : State) : State :=
    match s.group x with
    | none => s
    | some gr =>
      if !(s.core x.core).runs x.strm || !(s.fetchOk x gr.pc) || gr.waits [256 + ua] || !gr.acq.isEmpty
          || gr.wait.isSome || (s.ring c).run || (chk s gr).isSome then s
      else
        match s.ctxEntry (s.flaskOf x) c with
        | (some e, s) => s.startRound (s.flaskOf x) c e
        | (none, s) => s
  .next (presentWait x .rnext c [256 + ua] chk (fun s gr => here (s.ring c) (tg s gr))
    (fun s gr =>
      let r := s.ring c
      let t := tg s gr
      let q := r.size
      let rec' := leBytes 4 t ++ leBytes 2 ((fld (r.w 2) 30 24 + q - t % q) % q) ++ leBytes 2 0 ++ leBytes 4 (r.buf t) ++ leBytes 4 0
      ((s.lsWrite (lsAt x.core (pre gr)) [] rec' (gr.unifP ua)).poisEvent (s.flaskOf x) (gr.unifP ua))) (begin' s))

/-- RFREE (R191, R375): one release of buffer t_g mod 2; t_g moves on. The group's earlier stores to local store have been
applied (R182). -/
def execRfree (x : Who) (w : BitVec 56) (s : State) : Host.Outcome State Fault Refusal :=
  let n := w.toNat
  let ua := fld n 55 51
  let c := fld n 4 0
  let mine (s : State) : Bool := s.inFlight fun q =>
    q.src = .grp x && q.kind ≠ .read && bit q.addr 63 = 0 && aperOf (fld q.addr 47 0) = some x.core
  .next (presentWait x .rfree c [256 + ua]
    (fun s gr =>
      let r := s.ring c
      let t := Sparse.get 0 gr.ring c
      need (ringForm s x n && r.run && r.has x.core && t < r.size && bit (gr.unif ua).toNat 0 = t % 2))
    (fun s _ => !(mine s))
    (fun s gr =>
      let t := Sparse.get 0 gr.ring c
      let r := s.ring c
      let k := 4096 * t + x.core
      let s := s.setRing c { r with frees := Sparse.set 0 r.frees k (Sparse.get 0 r.frees k + 1) }
      let s := s.modGroup x fun h => { h with ring := Sparse.set 0 h.ring c (t + 1) }
      (s.poisEvent (s.flaskOf x) (gr.unifP ua)).ringSettle c) s)

/-! ### Blocks and ring credits (R373, R374) -/

/-- RBLK_SEND (R373): the next block leaves, line by line, once a credit is held and the block is ready. -/
def execRblkSend (ctx : Nat) (s : State) : Host.Outcome State Fault Refusal :=
  let r := s.ring ctx
  let t := r.sent
  .next (if 32 ≤ ctx || !r.run || r.sends ≤ t || r.cred = 0
      || !(if r.accum then r.released t else r.present t 0 r.bsz) then s
    else
      let next := fld (r.w 5) 13 0
      let s := (List.range r.bsz).foldl (fun s lam =>
        if !(s.engOk r.flask 0 (r.at t lam) 128) then s.engFault r.flask addrFault
        else
          let d := s.engRead r.flask (r.at t lam) 128
          (d.2.2.poisEvent r.flask d.2.1).sendColl r.flask (ctx % 2) lam (s.ringMsg ctx r 0x35 next t lam d.2.1 d.1)) s
      (s.setRing ctx { r with sent := t + 1, cred := r.cred - 1 }).ringSettle ctx)

/-- CTX, ROUND, T and LINE of a runner-ring message. -/
def mCtx (m : Msg) : Nat := fld (cw m 2) 4 0
/-- ROUND. -/
def mRound (m : Msg) : Nat := fld (cw m 2) 36 5
/-- T. -/
def mT (m : Msg) : Nat := fld (cw m 2) 43 37
/-- LINE. -/
def mLine (m : Msg) : Nat := fld (cw m 2) 59 44

/-- A runner-ring message is taken when its context is bound to the flask of its JOB; one for another round is discarded
(R356, R374). -/
def State.ringTake (s : State) (p : Nat) (m : Msg) (f : State → RingSt → State) : State :=
  match s.jobFlask m with
  | none => s.dropMsg p
  | some fl =>
    if !(s.ctxOf (mCtx m) fl) then s.dropMsg p
    else
      let r := s.ring (mCtx m)
      if !r.run || r.round ≠ mRound m || r.flask ≠ fl then s else f s r

/-- RBLK (R373, R374, R359): the line goes to its buffer, or to RETB; a second copy is dropped and counted. -/
def execRblk (p : Nat) (m : Msg) (s : State) : Host.Outcome State Fault Refusal :=
  .next (s.collRow p m 0x35 fun s => s.ringTake p m fun s r =>
    let c := mCtx m
    let t := mT m
    let lam := mLine m
    if r.got.contains (t, lam) then s.addSat .RUNDUP (c % 2) 0 32 1
    else
      let ret : Bool := r.accum && t + 1 = r.size
      let a := if ret then fld (r.w 1) 47 0 + 128 * lam else r.at (t + 1) lam
      let bs := slice m.data 32 128
      let s := if s.engOk r.flask 1 a 128 then
          (s.engWrite r.flask a bs (mPoi m)).journal r.flask 2 (c + mRound m * 2 ^ 5 + t * 2 ^ 37 + lam * 2 ^ 44)
            (if ret then s.winRel r.flask a else (a - apBase) % 0x10_0000) bs (mPoi m)
        else s.engFault r.flask addrFault
      ((s.poisEvent r.flask (mPoi m)).setRing c { r with got := r.got ++ [(t, lam)] }).ringSettle c)

/-- RCRD (R374): a credit toward NEXT; a second copy of one adds nothing. -/
def execRcrd (p : Nat) (m : Msg) (s : State) : Host.Outcome State Fault Refusal :=
  .next (s.collRow p m 0x36 fun s => s.ringTake p m fun s r =>
    if r.rcrd.contains (mT m) then s
    else s.setRing (mCtx m) { r with cred := r.cred + 1, rcrd := r.rcrd ++ [mT m] })

/-! ### Queues (R376 to R378) -/

/-- Queue `q` exists. -/
def State.qOk (s : State) (q : Nat) : Bool := q < 256 && s.rf .RQCFG 0 q 63 63 = 1
/-- The queue receives. -/
def State.qRecv (s : State) (q : Nat) : Bool := s.rf .RQCFG 0 q 62 62 = 1
/-- The queue carries gradients. -/
def State.qGrad (s : State) (q : Nat) : Bool := s.rf .RQCFG 0 q 61 61 = 1
/-- Owner. -/
def State.qFlask (s : State) (q : Nat) : Nat := s.rf .RQCFG 0 q 60 57
/-- SLOTS. -/
def State.qSlots (s : State) (q : Nat) : Nat := s.rf .RQCFG 0 q 56 51 + 1
/-- NPART. -/
def State.qParts (s : State) (q : Nat) : Nat := s.rf .RQCFG 0 q 50 39
/-- PARTSZ in bytes. -/
def State.qPartSz (s : State) (q : Nat) : Nat := s.rf .RQCFG 0 q 38 26 * 128
/-- PAIRQ. -/
def State.qPair (s : State) (q : Nat) : Nat := s.rf .RQCFG 0 q 25 18

/-- Offset of slot `k` mod SLOTS, part `p`, in a slot region. -/
def State.qAt (s : State) (q k p : Nat) : Nat := (k % s.qSlots q * s.qParts q + p) * s.qPartSz q

/-- QPUTs made of a part. -/
def State.qPuts (s : State) (q p : Nat) : Nat := Sparse.get 0 s.runner.puts (4096 * q + p)
/-- QTAKEs made of a part. -/
def State.qTakes (s : State) (q p : Nat) : Nat := Sparse.get 0 s.runner.takes (4096 * q + p)

/-- Slots of a receiving queue taken in full, in order. -/
def State.qTaken (s : State) (q : Nat) : Nat :=
  match (List.range (s.qParts q)).map (s.qTakes q) with
  | [] => 0
  | a :: l => l.foldl min a

/-- The part holds a credit for its next slot: SLOTS to begin with; an ACT queue's come back as its paired gradients are
taken, a GRAD queue's by QCRD. -/
def State.qCredit (s : State) (q p : Nat) : Bool :=
  s.qPuts q p < s.qSlots q
    + (if s.qGrad q then Sparse.get 0 s.runner.back (4096 * q + p) else s.qTaken (s.qPair q))

/-- Descriptor in u(UA): offset, LEN, part. -/
def qDesc (v : Word64) : Nat × Nat × Nat := (rfld v 19 0, rfld v 39 20, rfld v 51 40)

/-- Faults of QPUT and QTAKE (R193, R377); a QPUT, which writes to its peer, takes an address fault while the flask's active job
entry is not valid (R348; DEDUCED, log entry 69). -/
def qCheck (recv : Bool) (x : Who) (n : Nat) : Check := fun s gr =>
  let q := fld n 7 0
  let d := qDesc (gr.unif (fld n 55 51))
  if !(formS n false false false 8) || !(s.qOk q) || s.qRecv q ≠ recv || x.strm ≠ (if s.qGrad q then .b else .f)
      || s.qFlask q ≠ s.flaskOf x || s.qParts q ≤ d.2.2 || d.2.1 = 0 || s.qPartSz q < d.2.1 then some (illegal, 0)
  else if d.1 % 128 ≠ 0 || !(s.lsOk x.core false d.1 d.2.1) then some (addrFault, d.1)
  else if !recv && !(s.jobOk (s.flaskOf x)) then some (addrFault, 0)
  else none

/-- A queue message to the peer. -/
def State.qMsg (s : State) (q op p k : Nat) : State :=
  let m := s.collMsg (s.qFlask q) op (s.rf .RQPEER 0 q 57 44) false 0
    (collHead 0 0 0 (s.rf .RQPEER 0 q 43 36 + p % 4096 * 2 ^ 8 + k % 2 ^ 32 * 2 ^ 20))
  s.sendColl (s.qFlask q) (q % 2) (s.rf .RQPEER 0 q 43 36) m

/-- Writes of a byte string toward an address of R179, one per line (R262): kind of engine, its tag. -/
def State.engSend (s : State) (eng f tag a : Nat) (pois : Bool) : Nat → List Byte → State
  | 0, _ => s
  | k + 1, bs =>
    if bs = [] then s
    else
      let n := min bs.length (128 - a % 128)
      (s.send fun id => { emptyReq id (.eng eng) f .write a n with data := bs.take n, pois := pois, reg := tag }).engSend
        eng f tag (a + n) pois k (bs.drop n)

/-- QPUT (R191, R377, R378): held until the part has a credit; the engine reads the bytes and writes them to the peer's
slot. -/
def execQput (x : Who) (w : BitVec 56) (s : State) : Host.Outcome State Fault Refusal :=
  let n := w.toNat
  let ua := fld n 55 51
  let q := fld n 7 0
  .next (presentWait x .qput q [256 + ua] (qCheck false x n)
    (fun s gr => s.qCredit q (qDesc (gr.unif ua)).2.2)
    (fun s gr =>
      let d := qDesc (gr.unif ua)
      let p := d.2.2
      let f := s.flaskOf x
      let k := s.qPuts q p
      let v := s.engRead f (lsAt x.core d.1) d.2.1
      let hurt := v.2.1 || gr.unifP ua
      let s := v.2.2.poisEvent f hurt
      let lo := s.nextId
      let a := 2 ^ 63 + s.rf .RQPEER 0 q 57 44 * 2 ^ 48 + (s.rf .RQPEER 0 q 35 0 * 4096 + s.qAt q k p) % 2 ^ 48
      let s := s.engSend 2 f lo a hurt (d.2.1 / 128 + 2) v.1
      let e : QSend := { q := q, part := p, seqn := k, ids := (List.range (s.nextId - lo)).map (lo + ·) }
      { s with runner := { s.runner with puts := Sparse.set 0 s.runner.puts (4096 * q + p) (k + 1),
                                         sends := s.runner.sends ++ [e] } }) s)

/-- A write of a QPUT has come back: after the last, all good, QRDY is sent (R378). -/
def State.qputAck (s : State) (id : Nat) (ok : Bool) : State :=
  match s.runner.sends.find? fun e => e.ids.contains id with
  | none => s
  | some e =>
    let rest := s.runner.sends.filter fun d => !(d.ids.contains id)
    if !ok then { s with runner := { s.runner with sends := rest } }
    else if e.ids = [id] then State.qMsg { s with runner := { s.runner with sends := rest } } e.q 0x37 e.part e.seqn
    else
      let less (d : QSend) : QSend := { d with ids := d.ids.filter (· ≠ id) }
      { s with runner := { s.runner with sends := s.runner.sends.map less } }

/-- The slot's bytes may be read for the flask: else an address fault. -/
def State.qtakeSrc (s : State) (x : Who) (q : Nat) (v : Word64) : Option (Nat × Nat) :=
  let d := qDesc v
  let a := s.rf .RQBASE 0 q 47 7 * 128 + s.qAt q (s.qTakes q d.2.2) d.2.2
  if s.engOk (s.flaskOf x) 0 a d.2.1 then none else some (addrFault, a)

/-- One more QTAKE of a part: a GRAD slot now taken in full gives its credits back. -/
def State.qtakeCount (s : State) (q p : Nat) : State :=
  let t : State := { s with runner := { s.runner with takes := Sparse.set 0 s.runner.takes (4096 * q + p) (s.qTakes q p + 1) } }
  if s.qGrad q && Nat.blt (s.qTaken q) (t.qTaken q) then
    (List.range (s.qParts q)).foldl (fun t p => t.qMsg q 0x38 p (s.qTaken q)) t
  else t

/-- The engine copies the part into local store, and journals it. -/
def State.qtakePart (s : State) (x : Who) (q : Nat) (v : Word64) (vp : Bool) : State :=
  let d := qDesc v
  let f := s.flaskOf x
  let k := s.qTakes q d.2.2
  let r := s.engRead f (s.rf .RQBASE 0 q 47 7 * 128 + s.qAt q k d.2.2) d.2.1
  let hurt := r.2.1 || vp
  (((r.2.2.poisEvent f hurt).engWrite f (lsAt x.core d.1) r.1 hurt).journal f 1
    (q + d.2.2 * 2 ^ 8 + k % 2 ^ 32 * 2 ^ 20) d.1 r.1 hurt).qtakeCount q d.2.2

/-- QTAKE (R191, R377, R378): held until the slot is ready; the engine copies the part into local store; a slot taken in
full is free, and a GRAD queue's credits go back. -/
def execQtake (x : Who) (w : BitVec 56) (s : State) : Host.Outcome State Fault Refusal :=
  let n := w.toNat
  let ua := fld n 55 51
  let q := fld n 7 0
  .next (presentWait x .qtake q [256 + ua]
    (fun s gr => (qCheck true x n s gr).or (s.qtakeSrc x q (gr.unif ua)))
    (fun s gr =>
      let k := s.qTakes q (qDesc (gr.unif ua)).2.2
      (List.range (s.qParts q)).all fun p => s.runner.ready.contains (q, p, k))
    (fun s gr => s.qtakePart x q (gr.unif ua) (gr.unifP ua)) s)

/-- Q, PART, SEQN of a queue message. -/
def mQueue (m : Msg) : Nat × Nat × Nat := (fld (cw m 3) 7 0, fld (cw m 3) 19 8, fld (cw m 3) 51 20)

/-- A queue message is taken when its queue is bound to the flask of its JOB, and receives as it should. -/
def State.queueTake (s : State) (p : Nat) (m : Msg) (recv : Bool) (f : State → Nat → State) : State :=
  match s.jobFlask m with
  | none => s.dropMsg p
  | some fl =>
    let q := (mQueue m).1
    if !(s.qOk q) || s.qFlask q ≠ fl || s.qRecv q ≠ recv || s.qParts q ≤ (mQueue m).2.1 then s.dropMsg p else f s fl

/-- QRDY (R359, R378): the part of the slot has come; with no free slot for it the flask takes a queue fault. -/
def execQrdy (p : Nat) (m : Msg) (s : State) : Host.Outcome State Fault Refusal :=
  .next (s.collRow p m 0x37 fun s => s.queueTake p m true fun s f =>
    let e := mQueue m
    let q := e.1
    let k := e.2.2
    let n := s.qSlots q
    let same (d : Nat × Nat × Nat) : Bool := d.1 = q && d.2.2 % n = k % n && d.2.2 ≠ k
    if s.runner.ready.contains e then s.addSat .RUNDUP (q % 2) 0 32 1
    else if s.runner.ready.any (fun d => same d && s.qTaken q ≤ d.2.2) || s.qTaken q + n ≤ k then s.engFault f 5
    else { s with runner := { s.runner with ready := (s.runner.ready.filter fun d => !(same d)) ++ [e] } })

/-- QCRD (R359, R378): the credit of a GRAD queue's slot comes back. -/
def execQcrd (p : Nat) (m : Msg) (s : State) : Host.Outcome State Fault Refusal :=
  .next (s.collRow p m 0x38 fun s => s.queueTake p m false fun s _ =>
    let e := mQueue m
    let q := e.1
    let n := s.qSlots q
    let same (d : Nat × Nat × Nat) : Bool := d.1 = q && d.2.1 = e.2.1 && d.2.2 % n = e.2.2 % n && d.2.2 ≠ e.2.2
    if s.runner.creds.contains e then s.addSat .RUNDUP (q % 2) 0 32 1
    else
      let b := 4096 * q + e.2.1
      { s with runner := { s.runner with creds := (s.runner.creds.filter fun d => !(same d)) ++ [e],
                                         back := Sparse.set 0 s.runner.back b (Sparse.get 0 s.runner.back b + 1) } })

/-- RUN_CLR_DUP (R382). -/
def execRunClrDup (i : Nat) (s : State) : Host.Outcome State Fault Refusal := .next (s.wn .RUNDUP i 0 0)

end Sys2Proof.Machine
end

