-- ==== Sys2Proof/Machine/Stop.lean ====
section
/-! DEFINITION. What stops a flask (R447 to R449), its work queue's completions (R445, R446), host windows (R428), step events
(R388), a job abort (R399, R401, R449) and the quarantine of a core (R143, R409). -/

namespace Sys2Proof.Machine

/-! ### Host windows (R428, R466) -/

/-- Host window `w` of a flask: module offset and size in bytes. -/
def State.hostWin (s : State) (f w : Nat) : Nat × Nat :=
  (s.flk f (0x300 + w * 16) 8 * 2 ^ 28, s.flk f (0x308 + w * 16) 8 * 2 ^ 28)

/-- Number of host windows. -/
def State.nhwin (s : State) (f : Nat) : Nat := fld (s.flk f 0 8) 43 40

/-- Walk of the host windows: the module offset of `n` bytes at a DPA, when they lie in one window. -/
def State.dpaGo (s : State) (f dpa n : Nat) : Nat → Nat → Nat → Option Nat
  | 0, _, _ => none
  | k + 1, w, db =>
    let h := s.hostWin f w
    if db ≤ dpa ∧ dpa + n ≤ db + h.2 then some (h.1 + (dpa - db)) else s.dpaGo f dpa n k (w + 1) (db + h.2)

/-- Module offset of `n` bytes at a DPA of LD `f` (R428). -/
def State.dpaOff (s : State) (f dpa n : Nat) : Option Nat := s.dpaGo f dpa n (min 8 (s.nhwin f)) 0 0

/-- Module offsets of `n` bytes at a DPA, cut where a window ends: none where a byte lies in no window (R441). -/
def State.dpaCut (s : State) (f dpa n : Nat) : Option (List (Nat × Nat)) :=
  match s.dpaOff f dpa n with
  | some a => some [(a, n)]
  | none =>
    (List.range n).findSome? fun k =>
      match s.dpaOff f dpa k, s.dpaOff f (dpa + k) (n - k) with
      | some a, some b => if k = 0 then none else some [(a, k), (b, n - k)]
      | _, _ => none

/-- Capacity of LD `f`. -/
def State.ldCap (s : State) (f : Nat) : Nat :=
  (List.range (min 8 (s.nhwin f))).foldl (fun a w => a + (s.hostWin f w).2) 0

/-! ### Completion records (R445) -/

/-- The flask's queue. -/
def State.q (s : State) (f : Nat) : QueueSt := Sparse.get QueueSt.init s.queue f
/-- The queue replaced. -/
def State.setQ (s : State) (f : Nat) (q : QueueSt) : State := { s with queue := Sparse.set QueueSt.init s.queue f q }

/-- A ring of 2^log entries of `n` bytes at a base DPA meets R437. -/
def State.ringOk (s : State) (f log base n : Nat) : Bool :=
  4 ≤ log && log ≤ 16 && (s.dpaOff f base (n * 2 ^ log)).isSome

/-- CQLOG. -/
def State.cqLog (s : State) (f : Nat) : Nat := s.rf .QCTL f 0 14 10
/-- SQLOG. -/
def State.sqLog (s : State) (f : Nat) : Nat := s.rf .QCTL f 0 9 5
/-- CQ base DPA. -/
def State.cqBase (s : State) (f : Nat) : Nat := s.rf .CQBASE f 0 47 12 * 4096
/-- SQ base DPA. -/
def State.sqBase (s : State) (f : Nat) : Nat := s.rf .SQBASE f 0 47 12 * 4096

/-- A record can be written now: the completion ring is good and not full. -/
def State.cqRoom (s : State) (f : Nat) : Bool :=
  s.ringOk f (s.cqLog f) (s.cqBase f) 32
    && (s.rn .CQTAIL f 0 + 2 ^ 32 - s.rn .CQHEAD f 0) % 2 ^ 32 ≠ 2 ^ s.cqLog f

/-- Write a record at CQTAIL, advance it, and raise vector 1 as R446 says. -/
def State.putRec (s : State) (f : Nat) (r : QRec) : State :=
  let i := s.rn .CQTAIL f 0
  let n := s.cqLog f
  let w0 := r.w0 + (i / 2 ^ n + 1) % 2 * 2 ^ 28
  let bs := leBytes 8 w0 ++ leBytes 8 r.w1 ++ leBytes 8 r.w2 ++ leBytes 8 r.w3
  match s.dpaOff f (s.cqBase f + 32 * (i % 2 ^ n)) 32 with
  | none => s
  | some a =>
    let s := (s.engWrite f a bs false).wn .CQTAIL f 0 ((i + 1) % 2 ^ 32)
    let q := s.q f
    let lim := s.rf .IMOD f 0 15 0
    if r.irq || (lim ≠ 0 && lim ≤ q.since + 1) then (s.setQ f { q with since := 0 }).raiseVec f 1
    else s.setQ f { q with since := q.since + 1 }

/-- Records of the store go to the ring while it has room. -/
def State.flushRecs (s : State) (f : Nat) : Nat → State
  | 0 => s
  | k + 1 =>
    match (s.q f).held with
    | [] => s
    | r :: rest => if s.cqRoom f then ((s.setQ f { s.q f with held := rest }).putRec f r).flushRecs f k else s

/-- A record is written, behind those the store holds (R445). -/
def State.postRec (s : State) (f : Nat) (r : QRec) : State :=
  (s.setQ f { s.q f with held := (s.q f).held ++ [r] }).flushRecs f ((s.q f).held.length + 1)

/-- Word `k` of a descriptor. -/
def Desc.w (d : Desc) (k : Nat) : Nat := d.words.getD k 0
/-- OP. -/
def Desc.op (d : Desc) : Nat := fld (d.w 0) 23 16
/-- TAG. -/
def Desc.tag (d : Desc) : Nat := fld (d.w 0) 63 32

/-- Status values of R445. -/
def stOk : Nat := 0
/-- Status of a descriptor whose flask stops on a fault. -/
def stFaulted : Nat := 4
/-- Status of a descriptor whose job is aborted. -/
def stAborted : Nat := 5

/-- A descriptor completes with a status (R439, R445). -/
def State.complDesc (s : State) (f : Nat) (d : Desc) (status : Nat) : State :=
  if status = 0 ∧ bit (d.w 0) 26 = 1 then s
  else
    let low := match d.rej with
      | [] => 0
      | a :: l => l.foldl min a
    s.postRec f { w0 := d.idx % 2 ^ 16 + d.op * 2 ^ 16 + status * 2 ^ 24 + d.tag * 2 ^ 32,
                  w1 := d.acc.length + d.rej.length * 2 ^ 13 + low * 2 ^ 26, w2 := 0, w3 := 0,
                  irq := bit (d.w 0) 24 = 1 }

/-! ### The stop of a flask (R447) -/

/-- Streams of the flask stop on every core that holds a group of it, and its groups' waits end (R299); DMA entries not started are
discarded. -/
def State.stopCores (s : State) (f : Nat) : State :=
  let gst := s.isGuest f
  let mine (g : Nat) (c : Core) : Bool := if gst then s.guestOf g = f else c.hflask = f
  let one (e : Nat × Core) : Nat × Core :=
    let c := e.2
    if mine e.1 c then
      let c := if c.groups.any fun gr => isG gr.strm = gst then c.stopAll gst 3 else c
      let gs := c.groups.map fun (gr : Group) => if isG gr.strm = gst then { gr with wait := none } else gr
      let c : Core := { c with groups := gs }
      (e.1, { c with dma := c.dma.filter fun d => match d.2 with
        | some d => d.started || isG d.who.strm ≠ gst || d.flask ≠ f
        | none => true })
    else e
  { s with cores := s.cores.map one }

/-- Descriptors in progress complete with a status, in the order they were taken. -/
def State.endDescs (s : State) (f status : Nat) : State :=
  let q := s.q f
  let ds := q.prog ++ q.hand.toList
  ds.foldl (fun s d => s.complDesc f d status) (s.setQ f { q with hand := none, prog := [] })

/-- The flask stops (R447): on cores and queue; `quiet`: as a shake-out does, without records or vector. -/
def State.stopFlask (s : State) (f cause : Nat) (quiet : Bool) : State :=
  let s := (s.stopCores f).wf .QSTAT f 0 1 1 1
  if quiet then s
  else
    let st := if cause = 8 then stAborted else stFaulted
    let s := s.endDescs f st
    let s := s.postRec f { w0 := 0xFF * 2 ^ 16 + st * 2 ^ 24, w1 := 0, w2 := s.rn .FAULT0 f 0, w3 := s.rn .FAULT1 f 0,
                           irq := false }
    (s.raiseVec f 2).wf .STEP f 0 1 1 1

/-- FAULT_NOTICE (R447, R448): the k-th fault notice in flight reaches I/O die 0; the first since the flask's shake-out
latches the fault and stops the flask, a later one is counted, one during a shake-out is discarded. -/
def execFaultNotice (k : Nat) (s : State) : Host.Outcome State Fault Refusal :=
  .next (match s.notices[k]? with
    | some (.fault f cause g st q pc a) =>
      let s := { s with notices := dropAt k s.notices }
      if s.rf .QSTAT f 0 2 2 = 1 then s
      else if s.rf .QSTAT f 0 1 1 = 1 then s.addFld .FAULT0 f 0 63 56 1
      else
        let f0 := cause % 256 * 2 ^ 48 + streamNum st * 2 ^ 46 + q % 32 * 2 ^ 41 + g % 4096 * 2 ^ 29
        ((s.wn .FAULT0 f 0 f0).wn .FAULT1 f 0 (pc % 2 ^ 20 * 2 ^ 44 + a % 2 ^ 44)).stopFlask f cause false
    | _ => s)

/-- STEP_EVENT_NOTICE (R388): the k-th notice in flight, a step event, reaches I/O die 0. -/
def execStepEventNotice (k : Nat) (s : State) : Host.Outcome State Fault Refusal :=
  .next (match s.notices[k]? with
    | some (.stepEv f flag) => State.wf { s with notices := dropAt k s.notices } .STEP f 0 flag flag 1
    | _ => s)

/-! ### Bindings and job aborts -/

/-- Binding `v` is valid. -/
def State.vOk (s : State) (v : Nat) : Bool := v < 4 && s.rf .VCFG 0 v 63 63 = 1
/-- Its flask. -/
def State.vFlask (s : State) (v : Nat) : Nat := s.rf .VCFG 0 v 3 0
/-- The valid binding of a flask. -/
def State.bindingOf (s : State) (f : Nat) : Option Nat := (List.range 4).find? fun v => s.vOk v && s.vFlask v = f

/-- Everything of a flask that its ladles, runner ring, queues and vote hold in flight is gone (R504): its groups' and its
binding's state of the step, its rounds, its queue counters, its marks, its early messages. -/
def State.clearFlight (s : State) (f : Nat) : State :=
  let gs := (List.range 4).filter fun g => s.gOk g && s.gFlask g = f
  let vs := (List.range 4).filter fun v => s.vOk v && s.vFlask v = f
  let myQ (q : Nat) : Bool := s.qOk q && s.qFlask q = f
  let s := gs.foldl State.clearGroup s
  let early (e : Nat × Msg × Nat) : Bool := if mOp e.2.1 = 0x39 then vs.contains (cGrp e.2.1) else gs.contains (cGrp e.2.1)
  let r := s.runner
  let keep (m : Sparse Nat) : Sparse Nat := m.filter fun e => !(myQ (e.1 / 4096))
  { s with
    ladle := { s.ladle with marks := s.ladle.marks.filter fun m => m.flask ≠ f,
                            early := s.ladle.early.filter fun e => !(early e),
                            jpos := Sparse.set 0 s.ladle.jpos f 0 },
    runner := { ctx := r.ctx.filter fun e => match e.2 with
                  | some c => c.flask ≠ f
                  | none => true,
                puts := keep r.puts, takes := keep r.takes, back := keep r.back,
                ready := r.ready.filter fun e => !(myQ e.1), creds := r.creds.filter fun e => !(myQ e.1),
                sends := r.sends.filter fun e => !(myQ e.q) },
    vote := vs.foldl (fun m v => Sparse.set none m v none) s.vote }

/-- No step of the flask is sealed, and the hold of R35 ends on its cores: it has no valid binding (R383), or its binding starts
(R384). -/
def State.unhold (s : State) (f : Nat) : State :=
  State.wf { s with cores := s.cores.map fun e => (e.1, if e.2.hflask = f then { e.2 with phold := false } else e.2) } .SHADOW f 0 1 1 0

/-- The job of a flask ends (R414, R449): its active entry and its binding end, and a record is made. -/
def State.jobEndAt (s : State) (f step : Nat) : State :=
  let id := s.jobId f
  let b := s.bindingOf f
  let s := (s.wf .JACT f 0 31 31 0).clearFlight f
  let s := match b with
    | some v => (s.wf .VCFG 0 v 63 63 0).unhold f
    | none => s
  s.record 3 0x0018 8 0 (some f) id step 0

/-- The job of a flask ends at its current step. -/
def State.jobEnd (s : State) (f : Nat) : State := s.jobEndAt f (s.stepOf f)

/-- The job of a flask is aborted (R414, R449), and a notice stops the flask. -/
def State.jobAbort (s : State) (f : Nat) : State := (s.jobEnd f).notify (.fault f 8 0 .f 0 0 0)

/-- The job is aborted after the decision of a step (R401): the record names that step (log entry 41). -/
def State.jobAbortAt (s : State) (f step : Nat) : State := (s.jobEndAt f step).notify (.fault f 8 0 .f 0 0 0)

/-- Every job of the module is aborted (R32). -/
def State.abortAll (s : State) : State := ((List.range 16).filter s.jobOk).foldl State.jobAbort s

/-! ### Quarantine -/

/-- Flasks with a resident group on a core. -/
def State.residents (s : State) (g : Nat) : List Nat :=
  let c := s.core g
  (if c.groups.any fun gr => !(isG gr.strm) then [c.hflask] else [])
    ++ (if c.groups.any fun gr => isG gr.strm then [s.guestOf g] else [])

/-- What the quarantine of core `g` sends for a flask with a resident group: QUAR, and a guest's fault, with the place of
its first group there (R143, R409, R449; log entry 64). -/
def State.quarNotices (s : State) (g f : Nat) : List Notice :=
  let at' := match (s.core g).groups.find? fun gr => isG gr.strm with
    | some gr => (gr.q, gr.pc)
    | none => (0, 0)
  .stepEv f 3 :: (if s.isGuest f then [.fault f 7 g .g at'.1 at'.2 0] else [])

/-- Core `g` is quarantined (R143, R409): no stream issues; its QMAP bit clears; its flasks take QUAR, a guest a fault too.
Its zeroing (R115) follows once what it issued is complete; a shake-out in progress goes on without it (R502). -/
def State.quarantine (s : State) (g : Nat) : State :=
  let ns := (s.residents g).flatMap (s.quarNotices g)
  let s := s.modCore g fun c => { (c.stopAll false 4).stopAll true 4 with quar := true }
  let s := s.wn .QMAP 0 (g / 64) (setFld (s.rn .QMAP 0 (g / 64)) (g % 64) (g % 64) 0)
  let s := ((List.range 16).filter fun f => s.rf .QSTAT f 0 2 2 = 1).foldl (fun s f =>
    s.setQ f { s.q f with away := NSet.add g (s.q f).away }) s
  { s with notices := s.notices ++ ns }

/-- Core `g` is in service. -/
def State.inSvc (s : State) (g : Nat) : Bool := bit (s.rn .QMAP 0 (g / 64)) (g % 64) = 1

end Sys2Proof.Machine
end

