-- ==== Sys2Proof/Machine/Vote.lean ====
section
/-! DEFINITION. The decision of a training step (R383 to R424): bindings, the seal and the report, the module's term, the vote
tree, completion, scale history, test bars, strikes and quarantine, riser, replay, rollback, evaluation. -/

namespace Sys2Proof.Machine

/-! ### Bindings -/

/-- State of a valid binding. -/
def State.vs (s : State) (v : Nat) : Option VoteSt := Sparse.get none s.vote v

/-- The binding's state replaced. -/
def State.setVs (s : State) (v : Nat) (t : VoteSt) : State := { s with vote := Sparse.set none s.vote v (some t) }

/-- A step not yet sealed. -/
def VoteSt.start (step : Nat) : VoteSt :=
  { step := step, sealed := false, rep := [], repP := false, wait := 0, base := 0, ports := 0, riser := 0, ids := [], replay := 0, late := false,
    term := none, kids := [], expired := [], nodes := [], seen := [], dec := none }

/-- Groups bound to a flask. -/
def State.groupsOf (s : State) (f : Nat) : List Nat := (List.range 4).filter fun g => s.gOk g && s.gFlask g = f

/-- Base of a flask's report area (R389). -/
def State.repBase (s : State) (f : Nat) : Nat := s.rf .SREP f 0 47 12 * 4096

/-- The ladle writes bytes of the report area. -/
def State.repWrite (s : State) (f o : Nat) (bs : List Byte) : State :=
  if s.engOk f 1 (s.repBase f + o) bs.length then s.engWrite f (s.repBase f + o) bs false else s.engFault f addrFault

/-- Cores that hold a resident host group of a flask. -/
def State.hostCores (s : State) (f : Nat) : List Nat :=
  (s.cores.filter fun e => e.2.hflask = f && e.2.groups.any fun gr => !(isG gr.strm)).map (·.1)

/-! ### Test bars (R404, R405) -/

/-- The bar list: cores of the flask's core map in service, ascending. -/
def State.barList (s : State) (f : Nat) : List Nat := (List.range 4096).filter fun g => s.inMap f g && s.inSvc g

/-- DEN of FLK_TBAR.FRAC; codes 5 to 7 bar nothing. -/
def barDen (frac : Nat) : Nat := if frac = 1 then 256 else if frac = 2 then 64 else if frac = 3 then 16 else if frac = 4 then 4 else 0

/-- Write the bar plan of a step (R405): header and entries; a plan formed with N < 128 under a fraction bars nothing, with
a warning record (R404). -/
def State.barPlan (s : State) (f step : Nat) : State :=
  let l := s.barList f
  let n := l.length
  let frac := s.rf .TBAR f 0 2 0
  let den := if n < 128 then 0 else barDen frac
  let seed := s.rd .TBSEED f 0
  let st := BitVec.ofNat 64 step
  let d := if den = 0 then 0 else 64 + srNoise seed st 0xFFFF_FFFF 0 % (n - 127)
  let s := s.repWrite f 0x2000 (leBytes 8 (den + n * 2 ^ 9 + d * 2 ^ 22))
  let s := if barDen frac ≠ 0 ∧ n < 128 then s.record 2 0x0023 8 0 (some f) n frac 0 else s
  if den = 0 then s
  else
    let ent (i : Nat) : Nat :=
      let off (x : Nat) : Nat := srNoise seed st (BitVec.ofNat 64 i) (BitVec.ofNat 64 x) % den
      let arb := if 2 * d = n then (i + d + 1) % n else (i + n - d) % n
      off 0 + off 1 * 2 ^ 8 + off 2 * 2 ^ 16 + l.getD i 0 * 2 ^ 24 + l.getD ((i + d) % n) 0 * 2 ^ 36 + l.getD arb 0 * 2 ^ 48
    s.repWrite f 0x2008 ((List.range n).map fun i => leBytes 8 (ent i)).flatten

/-- Content offset of class `c`'s policy in the SCALE section. -/
def State.scaleRec (s : State) (f c : Nat) : Nat :=
  if f < s.nf then s.patLe ((s.sec 7).1 + f * 512 + 8 * c) 8 else 0

/-- Class policy c of a binding: VALID, GRAD, HM1, MARGIN, DROPM1, RAISE, BIAS0. -/
def State.spol (s : State) (v c : Nat) : Nat := s.rn .SPOL 0 (64 * v + c)

/-- The binding becomes valid (R380, R383, R384, R405, R421): no earlier step of it exists to be sealed. -/
def State.bind (s : State) (v : Nat) : State :=
  let f := s.vFlask v
  let start := s.rn .VSTART 0 v
  let s := if s.rf .VCFG 0 v 41 41 = 1 then s
    else
      let s := s.wn .POUR 0 v ((start + 2 ^ 32 - 1) % 2 ^ 32)
      (List.range 64).foldl (fun s c => s.wn .SCALE 0 (64 * v + c) (254 + fld (s.spol v c) 43 36 * 2 ^ 8)) s
  let s := s.setVs v (VoteSt.start start)
  let s := ((s.groupsOf f).foldl (fun s g => ((State.wn s .GSTEP 0 g start).loadTab g).gUpdate g) s).unhold f
  let s := { s with ladle := { s.ladle with jpos := Sparse.set 0 s.ladle.jpos f 0 } }
  (s.hostCores f).foldl (fun s g => s.notify (.binding f g)) (s.barPlan f start)

/-- LDL_VCFG_WRITE (R383, R421, R454, R478). -/
def execLdlVcfgWrite (v : Nat) (val : BitVec 64) (s : State) : Host.Outcome State Fault Refusal :=
  let n := val.toNat
  let off := ldlOff 0 (0x200 + v * 0x40)
  let keep := n % 2 ^ 42 + bit n 63 * 2 ^ 63
  let f := fld n 3 0
  let nr := fld n 32 18
  .next (if 4 ≤ v then s
    else if s.vOk v then
      let s := if keep % 2 ^ 63 ≠ s.rn .VCFG 0 v % 2 ^ 63 ∨ bit n 63 = 1 then s.refuse off n else s
      if bit n 63 = 1 then s
      else (State.wf { s with vote := Sparse.set none s.vote v none } .VCFG 0 v 63 63 0).unhold (s.vFlask v)
    else if bit n 63 = 1 && (s.jobOk f || nr = 0 || 16384 < nr || nr ≤ fld n 17 4 || !(s.isHost f)) then s.refuse off n
    else if f < s.nf && s.isGuest f then s.refuseCmd off 1
    else
      let s := (List.range 64).foldl (fun s c => s.wn .SPOL 0 (64 * v + c) (s.scaleRec f c)) (s.wn .VCFG 0 v keep)
      if bit n 63 = 1 then s.bind v else s)

/-- A notice of the list is taken. -/
def State.takeNotice (s : State) (n : Notice) : State := { s with notices := s.notices.erase n }

/-- The core's cache is invalidated by a notice; fills on their way find themselves forbidden (R260). -/
def State.flushCore (s : State) (f g : Nat) : State :=
  if (s.core g).hflask = f && (s.core g).groups.any (fun gr => !(isG gr.strm)) then (s.modCore g Core.invalidate).taint g none
  else s

/-- BINDING_NOTICE (R384). -/
def execBindingNotice (f g : Nat) (s : State) : Host.Outcome State Fault Refusal :=
  .next (if s.notices.contains (.binding f g) then (s.takeNotice (.binding f g)).flushCore f g else s)

/-! ### The report (R389, R390, R406 to R408) -/

/-- Class c's word `k` of a report. -/
def repClass (rep : List Byte) (c k : Nat) : Nat := leAt rep (0x40 + 16 * c + 8 * k) 8
/-- Bar records of a report, word 0. -/
def repBars (rep : List Byte) : List Nat := (List.range (fld (leAt rep 8 8) 8 0)).map fun n => leAt rep (0x440 + 16 * n) 8
/-- KIND of a bar record. -/
def barKind (w : Nat) : Nat := fld w 3 0

/-- The report was read, and is not one that R390 or R406 calls invalid. -/
def VoteSt.repOk (t : VoteSt) : Bool :=
  t.rep ≠ [] && fld (leAt t.rep 0 8) 31 0 = t.step && fld (leAt t.rep 8 8) 8 0 ≤ 256
    && (repBars t.rep).all fun w => [1, 2, 4, 5, 8].contains (barKind w)

/-- A strike against core `g` in step `st` (R408). -/
def State.strike (s : State) (st g : Nat) : State :=
  let r := s.rn .STRIKE 0 g
  let due : Bool := bit r 32 = 1 && (st + 2 ^ 32 - fld r 31 0) % 2 ^ 32 < 1000
  let s := s.wn .STRIKE 0 g (st % 2 ^ 32 + 2 ^ 32 + min 255 (fld r 40 33 + 1) * 2 ^ 33)
  if due then
    ((s.residents g).filter fun f => !(s.isGuest f)).foldl (fun s f => State.wf s .STEP f 0 3 3 1)
      { s with quarDue := NSet.add g s.quarDue }
  else s

/-! ### The riser copy and the replay request (R410 to R413) -/

/-- Pairs of the flask in pattern-image order: the index of each update region. -/
def State.updateRegions (s : State) (f : Nat) : List Nat :=
  ((List.range 3072).filter fun r =>
    let a := s.region r
    bit a 10 = 1 && fld a 3 0 = f && r < fld a 22 11).map fun r => fld (s.region r) 22 11

/-- Lines of a flask's update views, as module offsets, in order. -/
def State.updateLines (s : State) (f : Nat) : List Nat :=
  ((s.updateRegions f).map fun r => (List.range (2 ^ 23)).map fun i => r * 2 ^ 30 + 128 * i).flatten

/-- Bytes of a riser slot. -/
def State.slotSize (s : State) (f : Nat) : Nat := (s.updateRegions f).length * 2 ^ 30

/-- An address on the buddy of a binding: an offset of its riser area. -/
def State.buddy (s : State) (v o : Nat) : Nat :=
  2 ^ 63 + s.rf .RBUD 0 v 13 0 * 2 ^ 48 + (s.rf .RBASE 0 v 47 12 * 4096 + o) % 2 ^ 48

/-- A line of update views is read and sent as a write of an engine. -/
def State.copyLine (s : State) (eng f tag src dst : Nat) : State :=
  let d := s.engRead f src 128
  (d.2.2.poisEvent f d.2.1).engSend eng f tag dst d.2.1 3 d.1

/-- Riser states of `VoteSt.riser` beside 0 none, 2 complete, 3 failed: data writes out, header write out, header write
acknowledged, a write failed. -/
def riserData : Nat := 1
/-- The header's write is out. -/
def riserHead : Nat := 5
/-- The header's write has completed. -/
def riserDone : Nat := 6
/-- A write failed. -/
def riserBad : Nat := 7

/-- The slot's header is written once every data write has completed (R412). -/
def State.riserHeader (s : State) (v : Nat) (t : VoteSt) : State :=
  let f := s.vFlask v
  let slot := (s.rf .POUR 0 v 31 0 + 1) % 2
  let lines := (s.updateRegions f).length * 2 ^ 23
  let lo := s.nextId
  let s := s.engSend 4 f v (s.buddy v (0x40 * slot)) false 3 (leBytes 8 t.step ++ leBytes 8 (lines + 2 ^ 63))
  s.setVs v { t with riser := riserHead, ids := (List.range (s.nextId - lo)).map (lo + ·) }

/-- The riser copy starts (R392, R412), on the ports LDL_RBUD names now (R421). -/
def State.riserStart (s : State) (v : Nat) (t : VoteSt) : State :=
  if s.rf .RBUD 0 v 30 30 = 0 then s.setVs v t
  else
    let f := s.vFlask v
    let base := 0x1000 + (s.rf .POUR 0 v 31 0 + 1) % 2 * s.slotSize f
    let s := s.setVs v { t with ports := s.rf .RBUD 0 v 29 14 }
    let lo := s.nextId
    let ls := s.updateLines f
    let s := (List.range ls.length).foldl (fun s i => s.copyLine 3 f v (ls.getD i 0) (s.buddy v (base + 128 * i))) s
    let t : VoteSt := { (s.vs v).getD t with riser := riserData, ids := (List.range (s.nextId - lo)).map (lo + ·) }
    if t.ids = [] then s.riserHeader v t else s.setVs v t

/-- A write of the riser copy has come back. -/
def State.riserAck (s : State) (v id : Nat) (ok : Bool) : State :=
  match s.vs v with
  | none => s
  | some t =>
    if !(t.ids.contains id) then s
    else if !ok then s.setVs v { t with riser := riserBad, ids := [] }
    else
      let t := { t with ids := t.ids.filter (· ≠ id) }
      if t.ids ≠ [] then s.setVs v t
      else if t.riser = riserData then s.riserHeader v t
      else s.setVs v { t with riser := riserDone }

/-- RISER_COPY_COMPLETE (R412). -/
def execRiserCopyComplete (v : Nat) (s : State) : Host.Outcome State Fault Refusal :=
  .next (match s.vs v with
    | some t =>
      if t.riser = riserDone then s.setVs v { t with riser := 2 }
      else if t.riser = riserBad then s.setVs v { t with riser := 3 } else s
    | none => s)

/-- The replay of a step's ALL3 records is asked of the buddy (R413): the request is written, and then its signal
raised; with JFULL set, or no buddy in use, there is none. -/
def State.replayStart (s : State) (v : Nat) (t : VoteSt) : State :=
  let f := s.vFlask v
  if !((repBars t.rep).any fun w => barKind w = 4) then s.setVs v t
  else if s.rf .STEP f 0 5 5 = 1 || s.rf .RBUD 0 v 30 30 = 0 then s.setVs v { t with replay := 4 }
  else
    let half := s.rf .JRNL f 0 47 12 * 4096 + t.step % 2 * (s.rf .JRNL f 0 63 48 * 2 ^ 20)
    let id := s.nextId
    let s := s.engSend 5 f v (s.buddy v 0x80) false 2
      (leBytes 8 t.step ++ leBytes 8 (s.ownNode + f * 2 ^ 14) ++ leBytes 8 half)
    let s := s.send fun i =>
      { emptyReq i (.eng 6) f .signal (s.buddy v 0xC0) 8 with aop := 0, sz := 8, ops := [(1, 0)], rel := [id] }
    s.setVs v { t with replay := 1 }

/-! ### The step's end and the seal (R391 to R393) -/

/-- Every bound group is done, or late (R392, condition 2). -/
def State.groupsDone (s : State) (f : Nat) : Bool :=
  (s.groupsOf f).all fun g =>
    (s.rf .GSTAT 0 g 6 5 = 3) || s.rf .GSTAT 0 g 0 0 = 1 || s.rf .GSTAT 1 g 0 0 = 1

/-- The seal (R35, R392, R408): SEALED, the digest snapshot, the riser copy, the report with its strikes and HEALTH counts,
the replay; the cores hold their parameter reads. -/
def State.seal (s : State) (v : Nat) (t : VoteSt) : State :=
  let f := s.vFlask v
  let s := s.wf .SHADOW f 0 1 1 1
  let s := (List.range 8).foldl (fun s m => s.snapOne m f) s
  let s := (s.hostCores f).foldl (fun s g => s.modCore g fun c => { c with phold := true }) s
  let ok := s.engOk f 0 (s.repBase f) 0x1440
  let r := if ok then s.engRead f (s.repBase f) 0x1440 else ([], false, s.engFault f addrFault)
  let s := if r.2.1 then r.2.2.wf .STEP f 0 0 0 1 else r.2.2
  let t := { t with sealed := true, rep := r.1, repP := r.2.1, base := s.repBase f }
  let s := (repBars t.rep).foldl (fun s w =>
    if barKind w = 1 then s.strike t.step (fld w 15 4)
    else if barKind w = 2 then s.strike t.step (fld w 27 16)
    else if barKind w = 8 then s.addSat .HEALTH 0 v 32 1 else s) s
  let s := s.riserStart v t
  match s.vs v with
  | some t => s.replayStart v t
  | none => s

/-- STEP_END_POLL (R391, R392): the ladle reads the step-end object; at the target, with every group done, it seals. -/
def execStepEndPoll (v : Nat) (s : State) : Host.Outcome State Fault Refusal :=
  .next (match s.vs v with
    | none => s
    | some t =>
      if !(s.vOk v) || t.sealed || t.dec.isSome then s
      else
        let f := s.vFlask v
        let a := s.rf .VEND 0 v 47 0
        if !(s.engOk f 0 a 8) then s.engFault f addrFault
        else
          let r := s.engRead f a 8
          let s := r.2.2.poisEvent f r.2.1
          let k := (t.step + 2 ^ 32 - s.rn .VSTART 0 v) % 2 ^ 32 + 1
          if r.2.1 || leNat r.1 < s.rf .VEND 0 v 63 48 * k || !(s.groupsDone f) then s else s.seal v t)

/-! ### The term and the tree (R394 to R398) -/

/-- Flag bits of a vote record. -/
def vFlag (b : Bool) (i : Nat) : Nat := if b then 2 ^ i else 0

/-- The module's term (R394). -/
def State.moduleTerm (s : State) (v : Nat) (t : VoteSt) : VRec :=
  let f := s.vFlask v
  let gs := s.groupsOf f
  let gst (b : Nat) : Bool := gs.any fun g => s.rf .GSTAT 0 g b b = 1 || s.rf .GSTAT 1 g b b = 1
  let fl (b : Nat) : Bool := s.rf .STEP f 0 b b = 1
  let have' := t.sealed && t.rep ≠ []
  let cs := (List.range 64).filter fun c => have' && bit (s.spol v c) 63 = 1
  let ovf (c : Nat) : Bool := fld (repClass t.rep c 0) 31 0 ≠ 0
  let nf (c : Nat) : Bool := fld (repClass t.rep c 1) 31 0 ≠ 0
  let seen (c : Nat) : Bool := bit (repClass t.rep c 1) 40 = 1
  let set' (p : Nat → Bool) : Nat := (cs.filter p).foldl (fun a c => a + 2 ^ c) 0
  let kind (k : Nat) : Bool := (repBars t.rep).any fun w => barKind w = k
  let pois := fl 0 || gst 3
  let fault := fl 1 || fl 2 || fl 4 || gst 4 || (t.sealed && !t.repOk)
  let quar := fl 3
  let chk := gst 1 || gst 2
  let late := gst 0 || t.late || t.replay = 4
  let riser := t.riser = 3 || t.riser = riserBad
  let range := cs.any fun c => bit (s.spol v c) 62 = 1 && (ovf c || nf c)
  let tbar := kind 1 || kind 5 || (kind 4 && (t.replay = 3 || t.replay = 4))
  let clean := t.sealed && !(pois || range || tbar || chk || quar || late || fault || riser)
  { flags := vFlag clean 0 + vFlag pois 1 + vFlag range 2 + vFlag tbar 3 + vFlag chk 4 + vFlag quar 5 + vFlag late 6
      + vFlag fault 7 + vFlag riser 8,
    count := 1, ovf := set' ovf, nf := set' nf, seen := set' seen,
    max := (List.range 64).map fun c => if cs.contains c && seen c then fld (repClass t.rep c 1) 39 32 else 0 }

/-- Two children's records combined (R396). -/
def VRec.join (a b : VRec) : VRec :=
  let pick (c : Nat) : Nat :=
    Nat.max (if bit a.seen c = 1 then a.max.getD c 0 else 0) (if bit b.seen c = 1 then b.max.getD c 0 else 0)
  { flags := (a.flags &&& b.flags) % 2 + (a.flags ||| b.flags) / 2 * 2, count := a.count + b.count, ovf := a.ovf ||| b.ovf,
    nf := a.nf ||| b.nf, seen := a.seen ||| b.seen, max := (List.range 64).map pick }

/-- A vote record's bytes. -/
def VRec.bytes (a : VRec) : List Byte :=
  leBytes 8 (a.flags % 2 ^ 32 + a.count % 2 ^ 16 * 2 ^ 32) ++ leBytes 8 a.ovf ++ leBytes 8 a.nf ++ leBytes 8 a.seen
    ++ a.max.map (BitVec.ofNat 8)

/-- A vote record from bytes. -/
def recOf (bs : List Byte) (o : Nat) : VRec :=
  { flags := fld (leAt bs o 8) 8 0, count := fld (leAt bs o 8) 47 32, ovf := leAt bs (o + 8) 8, nf := leAt bs (o + 16) 8,
    seen := leAt bs (o + 24) 8, max := (slice bs (o + 32) 64).map (·.toNat) }

/-- Vote rank of this module. -/
def State.vRank (s : State) (v : Nat) : Nat := s.rf .VCFG 0 v 17 4
/-- Vote ranks. -/
def State.vN (s : State) (v : Nat) : Nat := s.rf .VCFG 0 v 32 18
/-- Node of vote rank `r`. -/
def State.vNode (s : State) (v r : Nat) : Nat := s.rf .VNODE 0 (16384 * v + r) 13 0

/-- A VOTE message: up to node (level, node), or the decision. -/
def State.sendVote (s : State) (v : Nat) (step : Nat) (down : Bool) (level node rank : Nat) (a : VRec) : State :=
  let f := s.vFlask v
  s.sendColl f 0 0 (s.collMsg f 0x39 (s.vNode v rank) false 0
    (collHead (collW0 0 step v) (level % 32 * 2 ^ 36 + node % 2 ^ 14 * 2 ^ 41) 0 (if down then 2 ^ 63 else 0) ++ a.bytes))

/-- The module knows the decision (R398, R400, R421): recorded, and passed along the module's reverse edges. -/
def State.decide' (s : State) (v : Nat) (t : VoteSt) (a : VRec) : State :=
  let s := s.setVs v { t with dec := some a }
  let s := (s.wf .VSTAT 0 v 8 0 a.flags).wf .VSTAT 0 v 18 18 0
  (edgesIn (s.vRank v) 0 (s.vN v)).foldl (fun s e => s.sendVote v t.step true 0 0 e.2 a) s

/-- A record is present at node (level, node) placed here: it waits for its sibling, or is combined and goes on (R395); one that comes
after the node has sent its result is stale (R397). -/
def State.voteIn (v : Nat) : Nat → Nat → Nat → VRec → State → State
  | 0, _, _, _, s => s
  | k + 1, level, node, a, s =>
    match s.vs v with
    | none => s
    | some t =>
      if t.nodes.contains level then s.addSat .STALE 0 0 32 1
      else
      let n := s.vN v
      let kid := t.kids.find? fun e => e.1 = level && e.2.1 = node
      let alone : Bool := n ≤ (2 * node + 1) * 2 ^ (level - 1) || t.expired.contains level
      if kid.isNone && !alone then s.setVs v { t with kids := t.kids ++ [(level, node, a)] }
      else
        let a := match kid with
          | some e => a.join e.2.2
          | none => a
        let a := if t.expired.contains level then { a with flags := a.flags / 2 * 2 ||| 64 } else a
        let t := { t with kids := t.kids.filter fun e => !(e.1 = level && e.2.1 = node), nodes := t.nodes ++ [level] }
        let s := s.setVs v t
        if level = treeDepth n then s.decide' v t { a with flags := if a.flags % 2 = 1 ∧ a.count = n then a.flags else a.flags / 2 * 2 }
        else if place' (level + 1) (node / 2) 0 n = s.vRank v then State.voteIn v k (level + 1) (node / 2) a s
        else s.sendVote v t.step false (level + 1) (node / 2) (place' (level + 1) (node / 2) 0 n) a

/-- The module's own leaf enters the tree. -/
def State.voteLeaf (s : State) (v : Nat) (a : VRec) : State :=
  let n := s.vN v
  let r := s.vRank v
  match s.vs v with
  | none => s
  | some t =>
    if treeDepth n = 0 then s.decide' v t { a with flags := if a.flags % 2 = 1 ∧ a.count = n then a.flags else a.flags / 2 * 2 }
    else if place' 1 (r / 2) 0 n = r then State.voteIn v 20 1 (r / 2) a s
    else s.sendVote v t.step false 1 (r / 2) (place' 1 (r / 2) 0 n) a

/-- MODULE_TERM (R392, R394): the term is formed once every condition holds, or at once when FAULT, NODE or QUAR is set, but
not before the quarantines of the strikes applied have taken effect (R408), nor while a notice of poison is on its way (R22). -/
def execModuleTerm (v : Nat) (s : State) : Host.Outcome State Fault Refusal :=
  .next (match s.vs v with
    | none => s
    | some t =>
      let f := s.vFlask v
      let now : Bool := s.rf .STEP f 0 3 1 ≠ 0
      let ready : Bool := t.sealed && (s.rf .RBUD 0 v 30 30 = 0 || t.riser = 0 || t.riser = 2 || t.riser = 3) && t.replay ≠ 1
        && s.rf .EVAL f 0 0 0 = 0 && !(s.notices.contains (.stepEv f 0))
      if !(s.vOk v) || t.term.isSome || !(now || ready) || !s.quarDue.isEmpty then s
      else
        let a := s.moduleTerm v t
        let s := s.wn .VSTAT 0 v (t.step % 2 ^ 32 * 2 ^ 32 + (if t.dec.isNone then 2 ^ 18 else 0) + a.flags % 2 ^ 9 * 2 ^ 9 + s.rf .VSTAT 0 v 8 0)
        (s.setVs v { t with term := some a, wait := s.rf .VLIM 0 v 15 0 }).voteLeaf v a)

/-- A VOTE message is processed by its step (R366, R395, R398). -/
def State.voteMsg (s : State) (p : Nat) (m : Msg) : State :=
  let v := cGrp m
  match s.jobFlask m, s.vs v with
  | some f, some t =>
    if !(s.vOk v) || s.vFlask v ≠ f then s.dropMsg p
    else if cStep m = t.step then
      let down : Bool := bit (cw m 3) 63 = 1
      let key := [if down then 1 else 0, cLevel m, cNode m]
      if t.seen.contains key then s.addSat .DUP 0 0 32 1
      else
        let s := s.setVs v { t with seen := t.seen ++ [key] }
        let t := { t with seen := t.seen ++ [key] }
        let a := recOf m.data 32
        if down then (if t.dec.isSome then s else s.decide' v t a)
        else if place' (cLevel m) (cNode m) 0 (s.vN v) ≠ s.vRank v || t.nodes.contains (cLevel m) then s.addSat .STALE 0 0 32 1
        else State.voteIn v 20 (cLevel m) (cNode m) a s
    else if cStep m = (t.step + 1) % 2 ^ 32 then s.putEarly 0 p m 0
    else s.addSat .STALE 0 0 32 1
  | _, _ => s.dropMsg p

/-- VOTE_UP (R395). -/
def execVoteUp (p : Nat) (m : Msg) (s : State) : Host.Outcome State Fault Refusal :=
  .next (if bit (cw m 3) 63 = 1 then s else s.collRow p m 0x39 fun s => s.voteMsg p m)

/-- VOTE_DECISION (R398). -/
def execVoteDecision (p : Nat) (m : Msg) (s : State) : Host.Outcome State Fault Refusal :=
  .next (if bit (cw m 3) 63 = 0 then s else s.collRow p m 0x39 fun s => s.voteMsg p m)

/-- VOTE_WAIT_EXPIRY (R397): the node's bound passes with a child absent. -/
def execVoteWaitExpiry (v level : Nat) (s : State) : Host.Outcome State Fault Refusal :=
  .next (match s.vs v with
    | none => s
    | some t =>
      match t.kids.find? fun e => e.1 = level with
      | none => s
      | some e =>
        if t.wait = 0 || t.term.isNone || t.dec.isSome then s
        else
          let ks := t.kids.filter fun d => d.1 ≠ level
          State.voteIn v 20 level e.2.1 e.2.2 (s.setVs v { t with expired := t.expired ++ [level], kids := ks }))

/-! ### Probes and aborts (R399) -/

/-- Vote ranks at the other end of the edges that touch this module: its parent's place and its children's. -/
def State.voteEdges (s : State) (v : Nat) : List Nat :=
  let r := s.vRank v
  let n := s.vN v
  ((sendTo r 0 n (treeDepth n) 0).map fun e => e.2.2).toList ++ (edgesIn r 0 n).map (·.2)

/-- A JOBCTL toward a node. -/
def State.sendJobctl (s : State) (v kind node : Nat) : State :=
  let f := s.vFlask v
  let step := ((s.vs v).map (·.step)).getD 0
  s.sendColl f 0 0 (s.collMsg f 0x34 node false 0 (collHead (collW0 0 step v) kind 0 0))

/-- PROBE_TIMER (R399): toward each absent child of a node that waits, or toward the parent's place while the module waits
for the decision. -/
def execProbeTimer (v : Nat) (s : State) : Host.Outcome State Fault Refusal :=
  .next (match s.vs v with
    | none => s
    | some t =>
      if !(s.vOk v) || t.term.isNone || t.dec.isSome then s
      else
        let absent := (edgesIn (s.vRank v) 0 (s.vN v)).filter fun e =>
          !(t.nodes.contains e.1) && !(t.seen.contains [0, e.1, s.vRank v / 2 ^ e.1])
        let up := (sendTo (s.vRank v) 0 (s.vN v) (treeDepth (s.vN v)) 0).map fun e => e.2.2
        (if absent ≠ [] then absent.map (·.2) else up.toList).foldl (fun s r => s.sendJobctl v 0 (s.vNode v r)) s)

/-- JOBCTL_PROBE (R399): discarded. -/
def execJobctlProbe (p : Nat) (m : Msg) (s : State) : Host.Outcome State Fault Refusal :=
  .next (if fld (cw m 1) 1 0 ≠ 0 then s else s.collRow p m 0x34 fun s => s)

/-- JOBCTL_ABORT (R399): the job is aborted and the message goes on along the other edges of the vote tree. -/
def execJobctlAbort (p : Nat) (m : Msg) (s : State) : Host.Outcome State Fault Refusal :=
  .next (if fld (cw m 1) 1 0 ≠ 1 then s
    else s.collRow p m 0x34 fun s =>
      let v := cGrp m
      match s.jobFlask m with
      | none => s.dropMsg p
      | some f =>
        if !(s.vOk v) || s.vFlask v ≠ f then s.dropMsg p
        else
          let tt := ((s.voteEdges v).map (s.vNode v)).filter (· ≠ mSrc m)
          let s := tt.foldl (fun s d => s.sendColl f 0 0
            { m with w0 := head0 0x34 2 d s.ownNode (mJob m) (mDlen m) false }) s
          s.jobAbort f)

/-- A node of the flask's tables (R399). -/
def State.names (s : State) (f d : Nat) : Bool :=
  ((List.range 4).any fun v => s.vOk v && s.vFlask v = f
      && (s.rf .RBUD 0 v 13 0 = d || (List.range (s.vN v)).any fun r => s.vNode v r = d))
    || ((s.groupsOf f).any fun g => (List.range (s.gN g)).any fun r => s.rankNode g r = d)
    || (List.range 256).any fun q => s.qOk q && s.qFlask q = f && s.rf .RQPEER 0 q 57 44 = d

/-- A node is lost (R274, R336, R399): its requests end, and the jobs whose tables name it are aborted and the abort
spread. -/
def State.nodeLost (s : State) (d : Nat) : State :=
  let s := s.loseNode d
  ((List.range 16).filter fun f => s.jobOk f && s.names f d).foldl (fun s f =>
    let s := match s.bindingOf f with
      | some v => (((s.voteEdges v).map (s.vNode v)).filter (· ≠ d)).foldl (fun (s : State) n => s.sendJobctl v 1 n) s
      | none => s
    s.jobAbort f) s

/-! ### Completion (R400 to R402) -/

/-- History entry `e` of a class. -/
def State.hist (s : State) (i e : Nat) : Nat :=
  if e < 8 then fld (s.rn .SHIST0 0 i) (8 * e + 7) (8 * e) else fld (s.rn .SHIST1 0 i) (8 * (e - 8) + 7) (8 * (e - 8))

/-- The scale state of a class after a step (R402). -/
def State.scaleComplete (s : State) (v c : Nat) (clean : Bool) (d : VRec) : State :=
  let p := s.spol v c
  let i := 64 * v + c
  let st := s.rn .SCALE 0 i
  let ovf : Bool := bit d.ovf c = 1
  let bias0 := sgn 8 (fld st 15 8)
  let bias1 := if ovf then max (bias0 - ((fld p 54 52 : Nat) + 1)) (-128) else bias0
  let run1 := if ovf then 0 else fld st 23 16
  let push := clean && bit d.seen c = 1
  let hs := (List.range 16).map (s.hist i)
  let hs := if push then d.max.getD c 0 :: hs.dropLast else hs
  let hv := if push then (fld st 39 24 * 2 + 1) % 2 ^ 16 else fld st 39 24
  let run2 := if clean && !ovf then min (run1 + 1) 255 else run1
  let up : Bool := clean && !ovf && fld p 51 44 ≠ 0 && fld p 51 44 ≤ run2
  let bias2 := if up then min (bias1 + 1) 127 else bias1
  let run3 := if up then 0 else run2
  let es := (List.range 16).filter fun e => bit hv e = 1 && e ≤ fld p 61 58
  let m := es.foldl (fun a e => max a (hs.getD e 0)) 0
  let ceil := if es = [] then 254 else min (m + fld p 57 55) 254
  let pack (l : List Nat) : Nat := leNat (l.map (BitVec.ofNat 8))
  ((s.wn .SCALE 0 i (ceil + wrap 8 bias2 * 2 ^ 8 + run3 * 2 ^ 16 + hv * 2 ^ 24)).wn .SHIST0 0 i (pack (hs.take 8))).wn
    .SHIST1 0 i (pack (hs.drop 8))

/-- SEL of the flask toggles at every home (R387): a request that a home has accepted keeps the line it was accepted for. -/
def State.flip (s : State) (f : Nat) : State :=
  let swap (q : Req) : Req :=
    let off := fld q.addr 47 0
    let r := s.region (regionOf off)
    if off < dramEnd ∧ bit r 10 = 1 ∧ fld r 3 0 = f then
      { q with addr := q.addr - off + (fld r 22 11 * 2 ^ 30 + off % 2 ^ 30), alloc := false }
    else q
  State.wf { s with m := { s.m with miss := s.m.miss.map fun e => (e.1, e.2.map swap) } } .SHADOW f 0 0 0
    (1 - s.rf .SHADOW f 0 0 0)

/-- Messages that waited for the step now current are processed (R366). -/
def State.drainEarly (s : State) (v f : Nat) : State :=
  let mine (e : Nat × Msg × Nat) : Bool :=
    s.jobFlask e.2.1 = some f && (if mOp e.2.1 = 0x39 then cGrp e.2.1 = v else s.gFlask (cGrp e.2.1) = f)
  let es := s.ladle.early.filter mine
  let s := { s with ladle := { s.ladle with early := s.ladle.early.filter fun e => !(mine e) } }
  es.foldl (fun s e => if mOp e.2.1 = 0x39 then s.voteMsg e.1 e.2.1 else s.ladleMsg e.1 e.2.1 e.2.2) s

/-- STEP_COMPLETION (R366, R387, R393, R400 to R402, R405): scale state, scale table and bar plan, the pour or skip, the
advance of the step, and the abort that follows some skips. -/
def execStepCompletion (v : Nat) (s : State) : Host.Outcome State Fault Refusal :=
  .next (match s.vs v with
    | none => s
    | some t =>
      match t.dec with
      | none => s
      | some d =>
        let f := s.vFlask v
        let clean : Bool := d.flags % 2 = 1
        let next := (t.step + 1) % 2 ^ 32
        let cs := (List.range 64).filter fun c => bit (s.spol v c) 63 = 1
        let s := cs.foldl (fun s c => s.scaleComplete v c clean d) s
        let s := s.repWrite f 0x1440 ((List.range 64).map fun c => leBytes 4 (s.rf .SCALE 0 (64 * v + c) 15 0)).flatten
        let s := s.barPlan f next
        let s := if clean then (s.flip f).wn .POUR 0 v (t.step % 2 ^ 32)
          else s.addFld .POUR 0 v 47 32 1
        let s := (s.wn .STEP f 0 0).wf .SHADOW f 0 1 1 0
        let s := (s.groupsOf f).foldl (fun s g => ((s.clearGroup g).loadTab g).wn .GSTEP 0 g next) s
        let s := { s.setVs v (VoteSt.start next) with ladle := { s.ladle with jpos := Sparse.set 0 s.ladle.jpos f 0 } }
        let s := (s.groupsOf f).foldl (fun s g => s.gUpdate g) s
        let s := (s.hostCores f).foldl (fun s g => s.notify (.completion f g)) s
        let s := s.drainEarly v f
        let max := s.rf .VCFG 0 v 40 33
        let skips := s.rf .POUR 0 v 47 32
        if !clean && (bit d.flags 5 = 1 || bit d.flags 7 = 1 || (max ≠ 0 && max ≤ skips)) then s.jobAbortAt f t.step else s)

/-- COMPLETION_NOTICE (R387): the core's hold of parameter reads ends and its cache is invalidated. -/
def execCompletionNotice (f g : Nat) (s : State) : Host.Outcome State Fault Refusal :=
  .next (if s.notices.contains (.completion f g) then
      ((s.takeNotice (.completion f g)).flushCore f g).modCore g fun c => { c with phold := false }
    else s)

/-- STRIKE_QUARANTINE (R409). -/
def execStrikeQuarantine (g : Nat) (s : State) : Host.Outcome State Fault Refusal :=
  .next (if s.quarDue.contains g then
      (State.quarantine { s with quarDue := NSet.del s.quarDue g } g).record 3 0x0011 4 g none (s.rn .STRIKE 0 g) 0 0
    else s)

/-! ### Replay (R413) -/

/-- The result of a replay: its strikes. -/
def State.replayEnd (s : State) (v : Nat) (t : VoteSt) (res : Nat) : State :=
  let bars := (repBars t.rep).filter fun w => barKind w = 4
  let s := bars.foldl (fun s w =>
    if res = 2 then (s.strike t.step (fld w 27 16)).strike t.step (fld w 39 28)
    else if res = 3 then s.strike t.step (fld w 15 4) else s) s
  s.setVs v { t with replay := res }

/-- REPLAY_RESPONSE_POLL (R413): a response of this step is compared with the digests of the eight dies. -/
def execReplayResponsePoll (v : Nat) (s : State) : Host.Outcome State Fault Refusal :=
  .next (match s.vs v with
    | none => s
    | some t =>
      let f := s.vFlask v
      if t.replay ≠ 1 then s
      else if !(s.engOk f 0 (t.base + 0xA010) 16) then s.engFault f addrFault
      else
        let r := s.engRead f (t.base + 0xA010) 16
        let s := r.2.2.poisEvent f r.2.1
        if r.2.1 || leAt r.1 0 8 ≠ t.step then s
        else
          let sum := (List.range 8).foldl (fun a m => a + s.rd .DGSNAP m f) (0 : Word64)
          s.replayEnd v t (if leAt r.1 8 8 = sum.toNat then 2 else 3))

/-- REPLAY_TIMEOUT (R413). -/
def execReplayTimeout (v : Nat) (s : State) : Host.Outcome State Fault Refusal :=
  .next (match s.vs v with
    | some t => if t.replay = 1 then s.replayEnd v t 4 else s
    | none => s)

/-! ### Rollback, restore, evaluation (R415, R416, R419, R423) -/

/-- POUR_FINISH (R416). -/
def execPourFinish (v : Nat) (step : BitVec 32) (s : State) : Host.Outcome State Fault Refusal :=
  .next (if 4 ≤ v then s
    else if s.vOk v || step.toNat ≠ (s.rf .POUR 0 v 31 0 + 1) % 2 ^ 32 then
      s.refuse (ldlOff 0 (0x228 + v * 0x40)) (step.toNat * 2 ^ 32 + 1)
    else (s.flip (s.vFlask v)).wf .POUR 0 v 31 0 step.toNat)

/-- RISER_RESTORE (R411, R415): the slot that holds the step is written into the update views of the replacement, at the
offsets they have here; the riser area is read where this module's job window maps it. -/
def execRiserRestore (v : Nat) (cmd : BitVec 64) (s : State) : Host.Outcome State Fault Refusal :=
  let n := cmd.toNat
  let node := fld n 15 2
  let off := ldlOff 0 (0x310 + 8 * v)
  .next (if 4 ≤ v || bit n 0 = 0 then s
    else if s.vOk v then s.refuse off n
    else
      let f := s.vFlask v
      let at' (o k : Nat) : Nat :=
        let a := s.rf .RBASE 0 v 47 12 * 4096 + o
        match s.winAt f 0 a k false with
        | .inr b => b
        | .inl _ => a
      let hit := (List.range 2).find? fun i =>
        let h := (s.engRead f (at' (0x40 * i) 16) 16).1
        s.engOk f 0 (at' (0x40 * i) 16) 16 && fld (leAt h 0 8) 31 0 = fld n 63 32 && bit (leAt h 8 8) 63 = 1
      match hit with
      | none => s.refuse off n
      | some i =>
        let ls := s.updateLines f
        (List.range ls.length).foldl (fun s k =>
          let a := at' (0x1000 + i * s.slotSize f + 128 * k) 128
          if s.engOk f 0 a 128 then s.copyLine 7 f v a (2 ^ 63 + node * 2 ^ 48 + ls.getD k 0) else s.engFault f addrFault) s)

/-- A flask of the image is privileged for flask `f` (R419, R466). -/
def State.hasPriv (s : State) (f : Nat) : Bool := (List.range s.nf).any fun h => s.mayRead h f

/-- EVAL_HOLD (R419, R423). -/
def execEvalHold (f : Nat) (hold : Bool) (s : State) : Host.Outcome State Fault Refusal :=
  let n := if hold then 1 else 0
  .next (if 16 ≤ f then s else if !(s.hasPriv f) then s.refuse (flkOff f 0x6028) n else s.wn .EVAL f 0 n)

/-- TBAR_WRITE (R404, R423). -/
def execTbarWrite (f : Nat) (v : BitVec 32) (s : State) : Host.Outcome State Fault Refusal :=
  let n := v.toNat % 8
  .next (if 16 ≤ f then s
    else if n ≠ 0 && (s.barList f).length < 128 then s.refuse (flkOff f 0x6010) v.toNat
    else s.wn .TBAR f 0 n)

end Sys2Proof.Machine
end

