-- ==== Sys2Proof/Machine/Ports.lean ====
section
/-! DEFINITION. The ports: flits and their slots (R310 to R313), credits and the wheel (R324, R325), keep-alives and loss (R332 to
R335), cable identity (R314 to R316), UNREACH (R336), and the port registers (R341, R345). -/

namespace Sys2Proof.Machine

/-! ### Going down (R333, R334) -/

/-- Bits of LNK_STAT. -/
def State.trained (s : State) (p : Nat) : Bool := s.rf .LNKSTAT p 0 1 1 = 1

/-- A link's state as it is after a reset of the link; what the cage holds stays. -/
def Port.fresh (q : Port) : Port :=
  { Port.init with held := q.held, cable := q.cable, ready := q.ready, cut := q.cut }

/-- Key a collective message is placed by (R358): its stripe, line or queue. -/
def collKey (m : Msg) : Nat :=
  let op := mOp m
  if op = 0x35 then mLine m
  else if op = 0x37 ∨ op = 0x38 then (mQueue m).1
  else if op = 0x30 ∨ op = 0x31 ∨ op = 0x32 then cStripe m
  else 0

/-- Send a message again, or for the first time, on the ports that remain: a collective one from its engine's die (R358, R359). -/
def State.place (s : State) (flask : Nat) (m : Msg) : State :=
  if mVc m = 2 then
    match s.collPort (mDst m) (collKey m) (flask / 16) with
    | some d => s.txPush d flask m
    | none => s
  else
    match s.pickPort (mDst m) (mOffset m) with
    | some d => s.txPush d flask m
    | none => s

/-- Requests whose latest copy left on the port, or waits there, go out again in ascending number (R334); one whose ports are all
down while its destination has another up completes NODELOST (R319, R412). -/
def State.resend (s : State) (p : Nat) : State :=
  (s.fab.outs.filter fun o => o.port = p).foldl (fun s o =>
    match s.portFor o.req o.dst (mOffset o.msg) with
    | none =>
      if s.upPorts o.dst = [] then s
      else
        State.complete { s with fab := { s.fab with outs := s.fab.outs.filter fun e => !(e.dst = o.dst && e.seq = o.seq) } }
          o.req [] [] [] 4
    | some d =>
      let put (e : Outst) : Outst := if e.dst = o.dst ∧ e.seq = o.seq then { e with port := d } else e
      State.txPush { s with fab := { s.fab with outs := s.fab.outs.map put } } d o.req.flask o.msg) s

/-- Destinations whose routes name the port and have no port up. -/
def State.cutOff (s : State) (p : Nat) : List Nat :=
  (s.regs.filter fun e => e.1 % 256 = Reg.ROUTE.ctorIdx).filterMap fun e =>
    let d := e.1 / 256 % 2 ^ 20
    if bit e.2.toNat p = 1 ∧ s.upPorts d = [] then some d else none

/-- The port goes down (R333, R334, R336, R359), for the cause in LNK_STAT.WHY. -/
def State.portDown (s : State) (p why : Nat) : State :=
  if 16 ≤ p then s
  else if !(s.portUp p) && !(s.trained p) then (if why = 6 then s.wf .LNKSTAT p 0 11 8 6 else s)
  else
    let q := s.port p
    let was := s.portUp p
    let s := (s.wf .LNKSTAT p 0 1 0 0).wf .LNKSTAT p 0 11 8 why
    let s := s.modPort p Port.fresh
    let s := (s.addSat .DOWN p 0 32 1).record 3 0x0019 7 p none (s.rn .LNKSTAT p 0) 0 0
    let s := s.resend p
    let waiting := (q.cur.toList ++ q.tx).filter fun e => e.1 ≠ 0
    let colls := q.coll.filter fun e => mVc e.2.2 = 2 && !(waiting.any fun w => w.2.2 = e.2.2)
    let s := colls.foldl (fun s e => s.place e.2.1 e.2.2) s
    let s := waiting.foldl (fun s e => s.place e.2.1 e.2.2) s
    if was then (s.cutOff p).foldl State.nodeLost s else s

/-! ### The flit's CRC (R310) -/

/-- One bit of a message enters a CRC register of polynomial 0x04C1_1DB7. -/
def crcBit (c b : Nat) : Nat := (2 * c % 2 ^ 32) ^^^ (if (c / 2 ^ 31 + b) % 2 = 1 then 0x04C1_1DB7 else 0)

/-- A byte enters, in the order `low` gives its bits. -/
def crcByte (low : Bool) (c : Nat) (x : Byte) : Nat :=
  (List.range 8).foldl (fun c i => crcBit c (bit x.toNat (if low then i else 7 - i))) c

/-- CRC-32 of a flit's bytes 0 to 195 (R310): what the spec leaves open of it is Config's (log entry 4). -/
def flitCrc (bs : List Byte) : BitVec 32 :=
  let c := BitVec.ofNat 32 (bs.foldl (crcByte Config.crcLowFirst) Config.crcInit.toNat)
  (if Config.crcReverse then c.reverse else c) ^^^ Config.crcXor

/-! ### Sending (R310 to R313, R324, R325) -/

/-- Control word of a flit (R311). -/
def ctlWord (kind : Nat) (nak : Bool) (lsn ack crvc crcnt fmo : Nat) : Nat :=
  kind % 4 + (if nak then 4 else 0) + lsn % 4096 * 2 ^ 3 + ack % 4096 * 2 ^ 15 + crvc % 4 * 2 ^ 27 + crcnt % 1024 * 2 ^ 29
    + fmo % 256 * 2 ^ 39

/-- A whole flit: control word, message area, CRC (R310). -/
def flitOf (ctl : Nat) (area : List Byte) : List Byte :=
  let b := leBytes 8 ctl ++ slice area 0 188
  b ++ leBytes 4 (flitCrc b).toNat

/-- Credits to return: the lowest channel that has some, at most 1,023 (R324). -/
def Port.giveBack (q : Port) : Nat × Nat × Port :=
  match (List.range 4).find? fun v => q.ret.getD v 0 ≠ 0 with
  | none => (0, 0, q)
  | some v =>
    let n := min 1023 (q.ret.getD v 0)
    (v, n, { q with ret := modAt (· - n) v q.ret })

/-- Index of a channel's next message that may begin: for channels 2 and 3 the oldest, with credit; for 0 and 1 the flask
of the wheel (R325); with the wheel position used. -/
def State.txPick (s : State) (p : Nat) (q : Port) (vc : Nat) : Option (Nat × Nat) :=
  let fits (e : Nat × Nat × Msg) : Bool := msgCredits e.2.2 ≤ q.cred.getD vc 0
  let first (f : Nat × Nat × Msg → Bool) : Option Nat :=
    match firstIdx f q.tx with
    | some i => if (q.tx[i]?).any fits then some i else none
    | none => none
  if 2 ≤ vc then (first fun e => e.1 = vc).map fun i => (i, 0)
  else
    let pos := (List.range 64).map fun k => (q.wpos.getD vc 0 + 1 + k) % 64
    let flask (w : Nat) : Nat := s.rf .WHEEL p (w / 8) (4 * (w % 8) + 3) (4 * (w % 8))
    (pos.find? fun w => (first fun e => e.1 = vc && e.2.1 = flask w).isSome).bind fun w =>
      (first fun e => e.1 = vc && e.2.1 = flask w).map fun i => (i, w)

/-- The next message begins (R325): from the highest channel that has one; its credits are taken. -/
def State.txNext (s : State) (p : Nat) (q : Port) : Option Port :=
  ([3, 2, 1, 0].find? fun vc => (s.txPick p q vc).isSome).bind fun vc =>
    (s.txPick p q vc).bind fun iw =>
      (q.tx[iw.1]?).map fun e =>
        { q with tx := dropAt iw.1 q.tx, cur := some e, left := msgBytes e.2.2,
                 cred := modAt (· - msgCredits e.2.2) vc q.cred,
                 wpos := if vc < 2 then q.wpos.set vc iw.2 else q.wpos }

/-- Fill a message area: bytes so far, and where the first message begins. -/
def State.fill (s : State) (p : Nat) : Nat → Port → List Byte → Nat → Port × List Byte × Nat
  | 0, q, area, fmo => (q, area, fmo)
  | k + 1, q, area, fmo =>
    let room := 188 - area.length
    if room = 0 then (q, area, fmo)
    else
      match q.cur with
      | some e =>
        let area := area ++ q.left.take room
        let rest := q.left.drop room
        if rest ≠ [] then ({ q with left := rest }, area, fmo)
        else
          s.fill p k { q with cur := none, left := [],
                              coll := q.coll ++ [(q.lsn, e.2.1, e.2.2)] } area fmo
      | none =>
        match s.txNext p q with
        | none => (q, area, fmo)
        | some q => s.fill p k q area (if fmo = 0xFF then area.length else fmo)

/-- STATE a keep-alive carries (R332, R338), but that of a port about to go idle, 3 (`State.farewell`). -/
def State.kaState (s : State) : Nat := if !s.nodeValid then 0 else if s.inStandby then 2 else 1

/-- Message area of a keep-alive with a STATE (R332). -/
def State.kaArea (s : State) (p st : Nat) : List Byte :=
  List.replicate 8 0 ++ leBytes 4 ((if s.nodeValid then s.ownNode else 0) + p * 2 ^ 14 + st * 2 ^ 18)

/-- A port, left in state `q`, shows a flit. -/
def State.showFlit (s : State) (p : Nat) (q : Port) (bs : List Byte) : State :=
  let s := s.modPort p fun _ => q
  { s with out := .flit p bs :: s.out }

/-- A flit of a kind other than DATA leaves: NAK, ACK and credits go with it (R311). -/
def State.ctlSend (s : State) (p : Nat) (q : Port) (kind : Nat) (area : List Byte) : State :=
  let (vc, n, q) := q.giveBack
  s.showFlit p { q with nak := false } (flitOf (ctlWord kind q.nak 0 q.ack vc n 0xFF) area)

/-- Before the lanes of a port go idle by a reset or a cleared EN (R332, R337), one more keep-alive may leave, with STATE 3: whether its
slot falls before the lanes are idle is timing, a free value (log entries 3 and 69). -/
def State.farewell (s : State) (p : Nat) : State :=
  if 16 ≤ p || !(s.trained p) then s
  else
    let b := s.freeB
    if b.1 then b.2.ctlSend p (b.2.port p) 1 (b.2.kaArea p 3) else b.2

/-- FLIT_SLOT (R312): the port's next slot carries SKIP, KEEPALIVE, DATA or IDLE. -/
def execFlitSlot (p : Nat) (s : State) : Host.Outcome State Fault Refusal :=
  .next (if 16 ≤ p || !(s.trained p) then s
    else
      let q := s.port p
      let slot := q.slot
      let q := { q with slot := slot + 1 }
      if slot % 4096 = 4095 then s.ctlSend p q 2 []
      else if q.ka ≠ s.acnt / 25 then s.ctlSend p { q with ka := s.acnt / 25 } 1 (s.kaArea p s.kaState)
      else
        match q.replay with
        | e :: rest => (s.showFlit p { q with replay := rest } e.2).addWrap .TXFLIT p 0 1
        | [] =>
          if 2048 ≤ q.unack.length then s.ctlSend p q 3 []
          else
            let (q', area, fmo) := s.fill p 32 q [] 0xFF
            if area = [] then s.ctlSend p q 3 []
            else
              let (vc, n, q') := q'.giveBack
              let bs := flitOf (ctlWord 0 q'.nak q'.lsn q'.ack vc n fmo) area
              (s.showFlit p { q' with nak := false, lsn := (q'.lsn + 1) % 4096, unack := q'.unack ++ [(q'.lsn, bs)] } bs).addWrap
                .TXFLIT p 0 1)

/-! ### Receiving (R311, R313) -/

/-- Control word of a received flit. -/
def flitCtl (bs : List Byte) : Nat := leAt bs 0 8
/-- The flit is whole and its CRC checks. -/
def flitGood (bs : List Byte) : Bool := bs.length = 200 && leAt bs 196 4 = (flitCrc (bs.take 196)).toNat

/-- Sent flits before number `a` have arrived. -/
def dropTo (a : Nat) : List (Nat × List Byte) → List (Nat × List Byte)
  | [] => []
  | e :: l => if e.1 = a then e :: l else dropTo a l

/-- ACK, NAK and credits of an accepted flit (R311, R313): answers whether the replay limit is reached. -/
def State.linkCtl (s : State) (p c : Nat) : State :=
  let a := fld c 26 15
  let q := s.port p
  let un := if a = q.lsn then [] else if q.unack.any fun e => e.1 = a then dropTo a q.unack else q.unack
  let q := { q with unack := un, replay := q.replay.filter fun e => un.any fun d => d.1 = e.1,
                    coll := q.coll.filter fun e => e.1 = q.lsn || un.any fun d => d.1 = e.1,
                    cred := modAt (· + fld c 38 29) (fld c 28 27) q.cred }
  if bit c 2 = 1 then
    let run := if q.nakRun ≠ 0 ∧ q.nakAt = a then q.nakRun + 1 else 1
    let s := (s.modPort p fun _ => { q with replay := un, nakAt := a, nakRun := run }).addSat .REPLAY p 0 32 1
    if 8 ≤ run then s.portDown p 3 else s
  else s.modPort p fun _ => q

/-- Messages at the front of a byte string; what is left of one not yet whole. A zero byte begins none. -/
def msgsIn : Nat → List Byte → List Msg × List Byte
  | 0, bs => ([], bs)
  | k + 1, bs =>
    if bs.headD 0 = 0 then ([], [])
    else if bs.length < 32 || bs.length < msgSize bs then ([], bs)
    else
      let r := msgsIn k (bs.drop (msgSize bs))
      (msgOf (bs.take (msgSize bs)) :: r.1, r.2)

/-- Symbols a lane's decoder corrects in a codeword (R309): all that are in error, up to 16; with more it corrects none (DEDUCED, log
entry 69), and the flit reaches the port with them. -/
def LaneWord.fixed (w : LaneWord) : Nat :=
  let n := ((w.errs.filter fun e => e.2 ≠ 0).map (·.1)).eraseDups.length
  if n ≤ 16 then n else 0

/-- Symbols the lanes' codes corrected (R309, R340). -/
def State.fec (s : State) (p : Nat) (ws : List LaneWord) : State := s.addWrap .FECCORR p 0 (ws.map LaneWord.fixed).sum

/-- A flit of a kind reaches a trained port. -/
def State.flitRow (s : State) (p kind : Nat) (fec : List LaneWord) (flit : List Byte) (f : State → State) : State :=
  if 16 ≤ p || !(s.trained p) || fld (flitCtl flit) 1 0 ≠ kind then s else f (s.fec p fec)

/-- DATA_FLIT (R313): a flit whose CRC fails is discarded with every later one, and a NAK goes out; the expected one's
messages, acknowledgement and credits are taken. -/
def execDataFlit (p : Nat) (fec : List LaneWord) (flit : List Byte) (s : State) : Host.Outcome State Fault Refusal :=
  .next (s.flitRow p 0 fec flit fun s =>
    let q := s.port p
    let c := flitCtl flit
    if !(flitGood flit) then s.modPort p fun q => { q with nak := true }
    else if fld c 14 3 ≠ q.ack then s
    else
      let area := slice flit 8 188
      let bs := if q.part ≠ [] then q.part ++ area else if fld c 46 39 = 0xFF then [] else area.drop (fld c 46 39)
      let r := msgsIn 12 bs
      let s := s.modPort p fun q => { q with ack := (q.ack + 1) % 4096, part := r.2, rx := q.rx ++ r.1 }
      (s.addWrap .RXFLIT p 0 1).linkCtl p c)

/-- A flit that carries no message: its acknowledgement and credits are taken when its CRC checks. -/
def State.ctlFlit (s : State) (p kind : Nat) (fec : List LaneWord) (flit : List Byte) : State :=
  s.flitRow p kind fec flit fun s => if flitGood flit then s.linkCtl p (flitCtl flit) else s

/-- KEEPALIVE (R332, R342, R343). -/
def execKeepalive (p : Nat) (fec : List LaneWord) (flit : List Byte) (s : State) : Host.Outcome State Fault Refusal :=
  .next (
    let s' := s.ctlFlit p 1 fec flit
    if 16 ≤ p || !(s.trained p) || fld (flitCtl flit) 1 0 ≠ 1 || !(flitGood flit) then s'
    else
      let v := leAt flit 16 4
      ((s'.wn .PEER p 0 (fld v 17 0)).wf .LNKSTAT p 0 6 4 (fld v 20 18)).wf .LNKSTAT p 0 7 7 (bit v 21))

/-- SKIP (R312). -/
def execSkip (p : Nat) (fec : List LaneWord) (flit : List Byte) (s : State) : Host.Outcome State Fault Refusal := .next (s.ctlFlit p 2 fec flit)
/-- IDLE (R311). -/
def execIdle (p : Nat) (fec : List LaneWord) (flit : List Byte) (s : State) : Host.Outcome State Fault Refusal := .next (s.ctlFlit p 3 fec flit)

/-! ### Loss, training, coming up -/

/-- KEEPALIVE_TIMEOUT (R333). -/
def execKeepaliveTimeout (p : Nat) (s : State) : Host.Outcome State Fault Refusal :=
  .next (if s.trained p then s.portDown p 1 else s)

/-- ELECTRICAL_IDLE (R333, R342). -/
def execElectricalIdle (p : Nat) (s : State) : Host.Outcome State Fault Refusal :=
  .next (if 16 ≤ p then s else if s.trained p then (s.portDown p 2).wf .LNKSTAT p 0 2 2 1 else s.wf .LNKSTAT p 0 2 2 1)

/-- The Vilnas block is valid (R315). -/
def blockOk (b : List Byte) : Bool :=
  b.length = 32 && leAt b 0 2 = 0x4C56 && leAt b 2 1 = 1 && leAt b 3 1 ≤ 4 && 1 ≤ leAt b 4 1 && leAt b 4 1 ≤ 8
    && leAt b 30 2 = ((b.take 30).foldl (fun a x => a + x.toNat) 0) % 2 ^ 16

/-- Defaults of a length class (R316): preset, DLY. -/
def classFigs (k : Nat) : Nat × Nat :=
  if k = 0 then (1, 60) else if k = 1 then (2, 110) else if k = 2 then (3, 300) else if k = 3 then (4, 2600) else (4, 7600)

/-- Length class of a medium and a length in 0.1 m (R316): none where it lies outside every class. -/
def cableClass : Media → Nat → Option Nat
  | .copper, l => if l ≤ 10 then some 0 else if l ≤ 20 then some 1 else none
  | .activeElectrical, l => if l ≤ 50 then some 2 else none
  | .multimode, l => if l ≤ 500 then some 3 else none
  | .singleMode, l => if l ≤ 1500 then some 4 else none
  | .other, _ => none

/-- LNK_CABLE as an identity read leaves it (R315, R316, R343): the block's figures, or those of the cable's class; zero where it has
none. -/
def cableReg (c : Cable) : Nat :=
  if blockOk c.block then leAt c.block 6 2 * 2 ^ 16 + 2 ^ 9 + leAt c.block 4 1 * 2 ^ 5 + leAt c.block 3 1
  else
    match cableClass c.media c.len with
    | some k => (classFigs k).2 * 2 ^ 16 + 2 ^ 10 + (classFigs k).1 * 2 ^ 5 + k
    | none => 0

/-- The cable lies within a class, and its delay within 760 ns (R316). -/
def cableOk (c : Cable) : Bool :=
  if blockOk c.block then leAt c.block 6 2 ≤ 7600 else (cableClass c.media c.len).isSome

/-- The port may train: enabled, boot over, its cage supplied, not held, a pluggable module ready (R314, R337, R527). -/
def State.mayTrain (s : State) (p : Nat) (c : Cable) : Bool :=
  p < 16 && !(s.trained p) && s.rf .LNKCTL p 0 0 0 = 1 && s.booted && !(s.port p).cut && !(s.port p).held
    && (!c.active || (s.port p).ready)

/-- PORT_TRAINING (R314 to R316, R335): the identity is read, LNK_CABLE is set, and training ends as `ok` says. -/
def execPortTraining (p : Nat) (ok : Bool) (c : Cable) (s : State) : Host.Outcome State Fault Refusal :=
  .next (if !(s.mayTrain p c) then s
    else
      let s := (s.modPort p fun q => { q with cable := some c }).wn .CABLE p 0 (cableReg c)
      if c.hot then (s.modPort p fun q => { q with held := true }).wf .LNKSTAT p 0 11 8 6
      else if !(cableOk c) then (s.modPort p fun q => { q with held := true }).wf .LNKSTAT p 0 11 8 5
      else if !ok then s.wf .LNKSTAT p 0 11 8 6
      else
        let s := (s.wf .LNKSTAT p 0 1 1 1).wf .LNKSTAT p 0 2 2 0
        let s := s.modPort p fun q => { q.fresh with ka := s.acnt / 25 }
        if bit (cableReg c) 10 = 1 then s.record 2 0x0022 7 p none (cableReg c) 0 0 else s)

/-- MODULE_START_TIMEOUT (R314): an active module is not ready after 5 s. -/
def execModuleStartTimeout (p : Nat) (s : State) : Host.Outcome State Fault Refusal :=
  .next (if 16 ≤ p || s.trained p || (s.port p).ready || !((s.port p).cable.any fun c => c.active) then s
    else (s.modPort p fun q => { q with held := true }).wf .LNKSTAT p 0 11 8 6)

/-- CMIS_MODULE_READY (R314): the module is out of low power; its port may train. -/
def execCmisModuleReady (p : Nat) (s : State) : Host.Outcome State Fault Refusal :=
  .next (if 16 ≤ p || (s.port p).cut || ((s.port p).cable.any fun c => c.hot) then s
    else s.modPort p fun q => { q with ready := true, held := false })

/-- PORT_UP (R335): valid keep-alives have come for 2,500 ac in a row. -/
def execPortUp (p : Nat) (s : State) : Host.Outcome State Fault Refusal :=
  .next (if 16 ≤ p || !(s.trained p) || s.portUp p then s else s.wf .LNKSTAT p 0 0 0 1)

/-- PORT_RESET (R337, R341, R502): the lanes go idle; training starts again, also of a port its cable held down. -/
def execPortReset (p : Nat) (s : State) : Host.Outcome State Fault Refusal :=
  .next (if 16 ≤ p then s
    else ((s.farewell p).portDown p 4).modPort p fun q => { q with held := false })

/-- LNK_CTL_EN (R333, R337, R341). -/
def execLnkCtlEn (p : Nat) (en : Bool) (s : State) : Host.Outcome State Fault Refusal :=
  .next (if 16 ≤ p then s
    else if en then s.wn .LNKCTL p 0 1 else ((s.wn .LNKCTL p 0 0).farewell p).portDown p 4)

/-- UNREACH (R336): a switch cannot reach the node it names. -/
def execUnreach (p : Nat) (m : Msg) (s : State) : Host.Outcome State Fault Refusal :=
  .next (if 16 ≤ p ∨ mOp m ≠ 0x20 then s else (s.leaveBuf p m).nodeLost (mOffset m % 2 ^ 14))

/-! ### The route register -/

/-- LNK_ROUTE_WRITE (R271, R346): zero also starts numbering toward the node, and its filter, anew; refused while a
request to it is outstanding. A mask that leaves the node no up port makes it lost, when it had one or a request to it is
outstanding (R336). -/
def execLnkRouteWrite (d mask : Nat) (s : State) : Host.Outcome State Fault Refusal :=
  .next (if 16384 ≤ d then s
    else if mask % 2 ^ 16 ≠ 0 then
      let t := s.wn .ROUTE 0 d (mask % 2 ^ 16)
      if t.upPorts d = [] ∧ (s.upPorts d ≠ [] ∨ s.fab.outs.any fun o => o.dst = d) then t.nodeLost d else t
    else if s.fab.outs.any fun o => o.dst = d then s.refuse (lnkOff 0 (0x8000 + 2 * d)) 0
    else
      let s := s.wn .ROUTE 0 d 0
      { s with fab := { s.fab with
          seq := Sparse.set 0 s.fab.seq d 0, base := Sparse.set 0 s.fab.base d 0, seen := Sparse.set [] s.fab.seen d [],
          floorIn := Sparse.set 0 s.fab.floorIn d 0, store := s.fab.store.filter fun e => e.node ≠ d } })

/-! ### Cages (R526, R527) -/

/-- CAGE_INSERTION (R526, R527, R534). -/
def execCageInsertion (p : Nat) (c : Cable) (s : State) : Host.Outcome State Fault Refusal :=
  .next (if 16 ≤ p || (s.port p).cable.isSome then s
    else
      let s := s.modPort p fun q => { q with cable := some c, ready := false, held := c.hot, cut := false }
      let s := s.wf .PINS 0 0 p p 1
      if c.hot then s.wf .LNKSTAT p 0 11 8 6 else s)

/-- CAGE_REMOVAL (R526): the lanes drop; the port goes down when that is seen. -/
def execCageRemoval (p : Nat) (s : State) : Host.Outcome State Fault Refusal :=
  .next (if 16 ≤ p then s
    else
      let s := s.modPort p fun q => { q with cable := none, ready := false, held := q.cut }
      (s.wf .PINS 0 0 p p 0).wf .LNKSTAT p 0 2 2 1)

/-- CAGE_OVERCURRENT (R527): supply cut, port held down, recorded. -/
def execCageOvercurrent (p : Nat) (s : State) : Host.Outcome State Fault Refusal :=
  .next (if 16 ≤ p || (s.port p).cut then s
    else
      let s := s.modPort p fun q => { q with cut := true, held := true, ready := false }
      (s.portDown p 6).record 3 0x001A 7 p none 0 0 0)

/-! ### Counters (R345) -/

/-- LNK_CLR_FLIT (R345). -/
def execLnkClrFlit (p : Nat) (s : State) : Host.Outcome State Fault Refusal := .next ((s.wn .TXFLIT p 0 0).wn .RXFLIT p 0 0)
/-- LNK_CLR_DROP (R345). -/
def execLnkClrDrop (p : Nat) (s : State) : Host.Outcome State Fault Refusal := .next (s.wn .DROP p 0 0)
/-- LNK_CLR_REJECT (R345). -/
def execLnkClrReject (p : Nat) (s : State) : Host.Outcome State Fault Refusal := .next (s.wn .REJECT p 0 0)
/-- LNK_CLR_DOWN (R345). -/
def execLnkClrDown (p : Nat) (s : State) : Host.Outcome State Fault Refusal := .next (s.wn .DOWN p 0 0)
/-- LNK_CLR_REPLAY (R345). -/
def execLnkClrReplay (p : Nat) (s : State) : Host.Outcome State Fault Refusal := .next (s.wn .REPLAY p 0 0)
/-- LNK_CLR_FEC (R345). -/
def execLnkClrFec (p : Nat) (s : State) : Host.Outcome State Fault Refusal := .next (s.wn .FECCORR p 0 0)

end Sys2Proof.Machine
end

