-- ==== Sys2Proof/Machine/Ack.lean ====
section
/-! DEFINITION. STORE_ACKNOWLEDGEMENT (R256): the acknowledgement of a write, an update, an atomic without return or a
departure reaches whoever sent it: a core, or an engine of the module. -/

namespace Sys2Proof.Machine

/-- What a completion status other than OK does to a flask whose engine sent the request (R32, R323, R448). -/
def State.engStatus (s : State) (f status : Nat) : State :=
  if status = 0 then s
  else if status ≤ 2 then s.engFault f addrFault
  else if status = 5 then s.engFault f 9
  else (s.engFault f 6).stepEvent f 2

/-- The acknowledgement of an engine's request: releases that waited on it go on, and the engine acts on its status;
one that ended link-failed counts as acknowledged (R32). -/
def State.ackEngine (s : State) (n : Nat) (p : Resp) : State :=
  let id := p.req.id
  let go (r : Req) : Req := { r with rel := r.rel.filter (· ≠ id) }
  let s := s.takeResp id
  let s := State.engStatus { s with reqs := s.reqs.map go } p.req.flask p.status
  let ok : Bool := p.status = 0 || p.status = 5
  if n = 2 then s.qputAck id ok
  else if n = 3 ∨ n = 4 then s.riserAck p.req.reg id ok
  else s

/-- STORE_ACKNOWLEDGEMENT (R256, R323). -/
def execStoreAcknowledgement (id : Nat) (s : State) : Host.Outcome State Fault Refusal :=
  .next (match s.respOf id [.write, .atom, .signal, .depart] with
    | none => s
    | some p =>
      match p.req.src with
      | .eng n => s.ackEngine n p
      | _ => s.ackCore p)

end Sys2Proof.Machine
end

