-- ==== Sys2Proof/Machine/Queue.lean ====
section
/-! DEFINITION. Work queues (R437 to R446): the ring registers, taking a descriptor, and the descriptors that touch no core:
NOP, SIGNAL, WAIT, COPY. -/

namespace Sys2Proof.Machine

/-! ### Descriptors (R439, R440) -/

/-- Bits that word `k` of a descriptor uses under an opcode; the rest are reserved. -/
def descBits (op k : Nat) : Nat :=
  match op, k with
  | 1, 1 | 2, 1 | 6, 1 | 7, 1 => 26
  | 1, 2 => 46
  | 1, 3 => 60
  | 1, 4 | 1, 6 | 2, 4 | 2, 6 | 6, 6 | 7, 6 => 64
  | 2, 2 => 11
  | 2, 3 => 20
  | 3, 1 | 3, 2 | 4, 1 | 4, 2 | 5, 1 | 5, 2 | 5, 3 => 64
  | 4, 3 => 32
  | _, _ => 0

/-- The descriptor completes with BADOP (R440): an unknown OP, one the flask's kind may not use, a reserved bit set. -/
def State.badOp (s : State) (f : Nat) (d : Desc) : Bool :=
  7 < d.op || (d.op = 1 && s.isGuest f) || (d.op = 2 && !(s.isGuest f)) || fld (d.w 0) 31 27 ≠ 0
    || (List.range 7).any fun k => 2 ^ descBits d.op (k + 1) ≤ d.w (k + 1)

/-- The flask's engine dispatches: it is not stopped, nor in a shake-out, and its record store is not full (R445, R447). -/
def State.qRuns (s : State) (f : Nat) : Bool :=
  s.rf .QSTAT f 0 2 1 = 0 && (s.q f).held.length < 256 && !s.stby

/-- The descriptor in hand when it can be dispatched now: SEQ has matched, it is not yet dispatched, it has the opcode,
and ORDER finds no earlier one in progress. -/
def State.handFor (s : State) (f op : Nat) : Option Desc :=
  if !(s.qRuns f) then none
  else
    match (s.q f).hand with
    | some d =>
      if d.tries = 0 && !d.disp && d.op = op && (bit (d.w 0) 25 = 0 || (s.q f).prog.isEmpty) then some d else none
    | none => none

/-- The descriptor in hand, dispatched and not complete, when it has the opcode. -/
def State.handHeld (s : State) (f op : Nat) : Option Desc :=
  if !(s.qRuns f) then none
  else
    match (s.q f).hand with
    | some d => if d.disp && d.op = op then some d else none
    | none => none

/-- The descriptor in hand replaced. -/
def State.setHand (s : State) (f : Nat) (d : Desc) : State := s.setQ f { s.q f with hand := some d }

/-- The descriptor in hand completes. -/
def State.endHand (s : State) (f : Nat) (d : Desc) (status : Nat) : State :=
  (s.setQ f { s.q f with hand := none }).complDesc f d status

/-- After a read of the entry: SEQ matches, or this was one of up to 256 reads (R438). -/
def State.seqCheck (s : State) (f : Nat) (d : Desc) : State :=
  if fld (d.w 0) 15 0 = d.idx % 2 ^ 16 then
    let d := { d with tries := 0 }
    if s.badOp f d then s.endHand f d 6 else s.setHand f d
  else if 256 ≤ d.tries then s.endHand f d 3
  else s.setHand f d

/-- The eight words of the entry of index `i`, read at their point of coherence. -/
def State.readDesc (s : State) (f i : Nat) : List Nat × State :=
  match s.dpaOff f (s.sqBase f + 64 * (i % 2 ^ s.sqLog f)) 64 with
  | none => (List.replicate 8 0, s)
  | some a =>
    let r := s.engRead f a 64
    ((List.range 8).map fun k => leAt r.1 (8 * k) 8, r.2.2.poisEvent f r.2.1)

/-- DESCRIPTOR_TAKE (R438): the next posted descriptor is taken and read. -/
def execDescriptorTake (f : Nat) (s : State) : Host.Outcome State Fault Refusal :=
  let i := s.rn .SQHEAD f 0
  .next (if 16 ≤ f ∨ s.rf .QCTL f 0 0 0 = 0 ∨ !(s.qRuns f) ∨ (s.q f).hand.isSome ∨ i = s.rn .SQTAIL f 0 then s
    else
      let r := s.readDesc f i
      (r.2.wn .SQHEAD f 0 ((i + 1) % 2 ^ 32)).seqCheck f
        { idx := i, words := r.1, tries := 1, disp := false, todo := [], acc := [], rej := [] })

/-- SEQ_REREAD (R438): an entry whose SEQ did not match is read again. -/
def execSeqReread (f : Nat) (s : State) : Host.Outcome State Fault Refusal :=
  .next (match (s.q f).hand with
    | some d =>
      if d.tries = 0 ∨ !(s.qRuns f) then s
      else
        let r := s.readDesc f d.idx
        r.2.seqCheck f { d with words := r.1, tries := d.tries + 1 }
    | none => s)

/-! ### Queue registers (R437, R438, R456, R457) -/

/-- QUEUE_ENABLE (R437, R457): a write of FLK_QCTL. While EN = 1 only EN is written; setting EN checks the rings. -/
def execQueueEnable (f : Nat) (v : BitVec 32) (s : State) : Host.Outcome State Fault Refusal :=
  let n := v.toNat
  .next (if 16 ≤ f then s
    else if s.rf .QCTL f 0 0 0 = 1 then s.wf .QCTL f 0 0 0 (bit n 0)
    else
      let s := s.wf .QCTL f 0 14 5 (fld n 14 5)
      if bit n 0 = 0 then s
      else if s.ringOk f (s.sqLog f) (s.sqBase f) 64 && s.ringOk f (s.cqLog f) (s.cqBase f) 32 then
        (s.wf .QCTL f 0 0 0 1).wf .QSTAT f 0 0 0 0
      else s.wf .QSTAT f 0 0 0 1)

/-- Standby is left (R496): packages come out of self-refresh, the rotas wait to restart. -/
def State.leaveStandby (s : State) : State :=
  { s with m := { s.m with selfref := [] }, pwr := { s.pwr with leaving := true } }

/-- An event that ends standby (R496): it does nothing outside standby, or after a trip (R499). -/
def State.standbyEnds (s : State) : State :=
  if !s.stby ∨ s.pwr.leaving ∨ s.rf .PSTAT 0 0 18 18 = 1 then s else s.leaveStandby

/-- SQ_DOORBELL (R438, R450, R457, R496): a write of FLK_SQTAIL; ignored during a shake-out. It ends standby. -/
def execSqDoorbell (f : Nat) (v : BitVec 32) (s : State) : Host.Outcome State Fault Refusal :=
  .next (if 16 ≤ f then s
    else if s.rf .QSTAT f 0 2 2 = 1 then s.standbyEnds else s.standbyEnds.wn .SQTAIL f 0 v.toNat)

/-- CQ_HEAD_WRITE (R445, R457): entries become free, and held records are written. -/
def execCqHeadWrite (f : Nat) (v : BitVec 32) (s : State) : Host.Outcome State Fault Refusal :=
  .next (if 16 ≤ f then s
    else (s.wn .CQHEAD f 0 v.toNat).flushRecs f ((s.q f).held.length + 1))

/-- QCLR_HERR (R457). -/
def execQclrHerr (f : Nat) (s : State) : Host.Outcome State Fault Refusal := .next (s.wn .HERR f 0 0)

/-- IMOD_TIMER (R446): TIME has passed since the first record after vector 1 was last raised. -/
def execImodTimer (f : Nat) (s : State) : Host.Outcome State Fault Refusal :=
  .next (if s.rf .IMOD f 0 31 16 = 0 ∨ (s.q f).since = 0 then s
    else (s.setQ f { s.q f with since := 0 }).raiseVec f 1)

/-! ### NOP, SIGNAL, WAIT, COPY (R440) -/

/-- QUEUE_NOP (R440). -/
def execQueueNop (f : Nat) (s : State) : Host.Outcome State Fault Refusal :=
  .next (match s.handFor f 0 with
    | some d => s.endHand f d stOk
    | none => s)

/-- A local store at an offset can be accessed now: its core is not in a low-power state. -/
def State.awakeAt (s : State) (off : Nat) : Bool :=
  match aperOf off with
  | some g => s.servesLs g
  | none => true

/-- Status ADDR (R440). -/
def stAddr : Nat := 7

/-- QUEUE_SIGNAL (R269, R440): the increment is added as a release at MODULE scope; what the engine wrote before is applied
already. -/
def execQueueSignal (f : Nat) (s : State) : Host.Outcome State Fault Refusal :=
  .next (match s.handFor f 3 with
    | none => s
    | some d =>
      let a := d.w 1
      if a % 8 ≠ 0 || !(s.engOk f 2 a 8) then s.endHand f d stAddr
      else if !(s.awakeAt a) then s
      else
        let s := if a < dramEnd then s.engLine (s.view a / 128) (some f) a 8 true else s
        let r := s.pocAtom f a 8 0 [(d.w 2, 0)] false
        (r.2.2.poisEvent f r.2.1).endHand f d stOk)

/-- WAIT (R440): dispatched, it is held in the queue until its object reaches the value. -/
def execWait (f : Nat) (s : State) : Host.Outcome State Fault Refusal :=
  .next (match s.handFor f 4 with
    | none => s
    | some d =>
      if d.w 1 % 8 ≠ 0 || !(s.engOk f 0 (d.w 1) 8) then s.endHand f d stAddr
      else s.setHand f { d with disp := true })

/-- WAIT_POLL (R440): the engine reads the object, and compares it unsigned. -/
def execWaitPoll (f : Nat) (s : State) : Host.Outcome State Fault Refusal :=
  .next (match s.handHeld f 4 with
    | none => s
    | some d =>
      if !(s.awakeAt (d.w 1)) then s
      else
        let r := s.engRead f (d.w 1) 8
        let s := r.2.2.poisEvent f r.2.1
        if d.w 2 ≤ leNat r.1 then s.endHand f d stOk else s)

/-- WAIT_TIMEOUT (R440): the limit has passed. -/
def execWaitTimeout (f : Nat) (s : State) : Host.Outcome State Fault Refusal :=
  .next (match s.handHeld f 4 with
    | none => s
    | some d => if fld (d.w 3) 31 0 = 0 then s else s.endHand f d 8)

/-- A range of bytes passes the flask's windows with a permission, line by line. -/
def State.rangeOk (s : State) (f : Nat) (p : Perm) : Nat → Nat → Nat → Bool
  | 0, _, n => n = 0
  | k + 1, a, n =>
    if n = 0 then true
    else
      let c := min n (128 - a % 128)
      s.engOk f p a c && s.rangeOk f p k (a + c) (n - c)

/-- Copy bytes piece by piece (R262): each within one source line and one destination line; poison goes with them. -/
def State.copyBytes (s : State) (f : Nat) : Nat → Nat → Nat → Nat → State
  | 0, _, _, _ => s
  | k + 1, src, dst, n =>
    if n = 0 then s
    else
      let c := min n (min (128 - src % 128) (128 - dst % 128))
      let r := s.engRead f src c
      ((r.2.2.poisEvent f r.2.1).engWrite f dst r.1 r.2.1).copyBytes f k (src + c) (dst + c) (n - c)

/-- COPY (R440, R262). -/
def execCopy (f : Nat) (s : State) : Host.Outcome State Fault Refusal :=
  .next (match s.handFor f 5 with
    | none => s
    | some d =>
      let n := d.w 3
      if !(s.rangeOk f 0 (n / 128 + 2) (d.w 1) n) || !(s.rangeOk f 1 (n / 128 + 2) (d.w 2) n) then s.endHand f d stAddr
      else if !(s.awakeAt (d.w 1)) || !(s.awakeAt (d.w 2)) then s
      else (s.copyBytes f (2 * (n / 128) + 4) (d.w 1) (d.w 2) n).endHand f d stOk)

end Sys2Proof.Machine
end

