-- ==== Sys2Proof/Machine/Launch.lean ====
section
/-! DEFINITION. Launches (R124 to R130, R441 to R444), SAVE and RESTORE (R300, R452, R453). -/

namespace Sys2Proof.Machine

/-! ### Core sets (R441) -/

/-- LAUNCHERR. -/
def stLaunchErr : Nat := 1
/-- PARTIAL. -/
def stPartial : Nat := 2

/-- Read the pieces of a range that windows cut, with what poison does (R441). -/
def State.readCut (s : State) (f : Nat) : List (Nat × Nat) → List (BitVec 8) × State
  | [] => ([], s)
  | p :: l =>
    let r := s.engRead f p.1 p.2
    let t := (r.2.2.poisEvent f r.2.1).readCut f l
    (r.1 ++ t.1, t.2)

/-- The cores of W1 and its bitmap, or none where the set breaks R441. -/
def State.coreSet (s : State) (f : Nat) (d : Desc) : Option (List Nat) × State :=
  let first := fld (d.w 1) 11 0
  let count := fld (d.w 1) 24 12
  if count = 0 ∨ 4096 < first + count then (none, s)
  else
    let all := (List.range count).map (first + ·)
    let own (r : Option (List Nat) × State) : Option (List Nat) × State :=
      match r.1 with
      | some l => if l.all (s.inMap f) then r else (none, r.2)
      | none => r
    if bit (d.w 1) 25 = 0 then own (some all, s)
    else
      match s.dpaCut f (d.w 6) 512 with
      | none => (none, s)
      | some ps =>
        let r := s.readCut f ps
        own (some (all.filter fun g => bit (r.1.getD (g / 8) 0).toNat (g % 8) = 1), r.2)

/-! ### Shapes (R127 to R130, R162, R442) -/

/-- Group limit of a local-store slice size (R128, R129). -/
def lsLimit (part slice : Nat) : Nat := if slice = 0 then 16 else part / slice

/-- An entry lies in a fetch region and is aligned, when its stream has groups (R162). -/
def entryOk (n e lo hi : Nat) : Bool := n = 0 || (e % 8 = 0 && lo ≤ e && e + 8 ≤ hi)

/-- The fields of a LAUNCH meet R125 to R130 and R162 on a core with `gres` bytes of guest reserve. -/
def hostShapeOk (w2 w3 gres : Nat) : Bool :=
  let ls := (4 - fld w2 1 0) * 0x2_0000 - gres
  let regs := if gres = 0 then 16384 else 14336
  let lim := regs / (64 * (16 * 2 ^ fld w2 4 2))
  let gf := fld w2 17 13
  let gb := fld w2 22 18
  let gu := fld w2 27 23
  fld w2 4 2 ≤ 4 && fld w2 12 5 ≤ 128 && gf ≤ 16 && gb ≤ 16 && gu ≤ 16 && lim ≠ 0
    && gf + gb + gu ≤ min lim (lsLimit ls (fld w2 12 5 * 4096))
    && fld w2 36 28 ≤ fld w2 45 37 && fld w2 45 37 ≤ 256
    && entryOk gf (fld w3 19 0) 0 ls && entryOk gb (fld w3 39 20) 0 ls && entryOk gu (fld w3 59 40) 0 ls

/-- The fields of a GLAUNCH meet R129 and R162 for a guest reserve at `[lo, hi)`. -/
def guestShapeOk (w2 w3 lo hi : Nat) : Bool :=
  let slice := fld w2 8 1 * 4096
  slice ≤ hi - lo && fld w2 10 9 ≤ min (2 / (1 + bit w2 0)) (lsLimit (hi - lo) slice) && entryOk (fld w2 10 9) (fld w3 19 0) lo hi

/-! ### LAUNCH and GLAUNCH -/

/-- A set's descriptor is ended once every core has answered (R443): it runs on, or completes when nothing was started. -/
def State.answered (s : State) (f : Nat) (d : Desc) : State :=
  if d.todo ≠ [] then s.setHand f d
  else if d.acc = [] then s.endHand f d (if d.rej = [] then stOk else stPartial)
  else s.setQ f { s.q f with hand := none, prog := (s.q f).prog ++ [d] }

/-- The checks of R443 that no core's state decides. -/
def launchOk (op : Nat) (d : Desc) : Bool :=
  if op = 1 then hostShapeOk (d.w 2) (d.w 3) 0
  else fld (d.w 2) 10 9 ≤ min (2 / (1 + bit (d.w 2) 0)) (lsLimit 0x1_0000 (fld (d.w 2) 8 1 * 4096))
    && fld (d.w 2) 8 1 ≤ 16 && entryOk (fld (d.w 2) 10 9) (fld (d.w 3) 19 0) 0 0x8_0000

/-- Dispatch of a launch (R441, R443): LAUNCHERR, or the set's cores are asked in ascending order. -/
def State.launch (s : State) (f op : Nat) : State :=
  match s.handFor f op with
  | none => s
  | some d =>
    match s.coreSet f d with
    | (none, s) => s.endHand f d stLaunchErr
    | (some cores, s) =>
      if !(launchOk op d) then s.endHand f d stLaunchErr else s.answered f { d with disp := true, todo := cores }

/-- LAUNCH (R440 to R443). -/
def execLaunch (f : Nat) (s : State) : Host.Outcome State Fault Refusal := .next (s.launch f 1)

/-- GLAUNCH (R440 to R443). -/
def execGlaunch (f : Nat) (s : State) : Host.Outcome State Fault Refusal := .next (s.launch f 2)

/-- A group as a launch makes it (R138, R444). -/
def Group.start (st : Stream) (q entry own arg g pos count : Nat) : Group :=
  { strm := st, q := q, pc := entry, win := entry, v := [], vp := [], k := [], kp := [],
    u := [(0, BitVec.ofNat 64 arg), (1, BitVec.ofNat 64 g), (2, BitVec.ofNat 64 pos), (3, BitVec.ofNat 64 count)].filter
      fun e => e.2 ≠ 0,
    up := [], busy := [], stores := [], loads := [], acq := [], blist := [], wait := none, ring := [], own := own }

/-- Zero local-store bytes `[lo, hi)` of a core: data, poison, latent errors. -/
def State.zeroLs (s : State) (g lo hi : Nat) : State :=
  let a := aper g + lo
  let b := aper g + hi
  { s with mem := s.mem.filter fun c => c.1 < a || b ≤ c.1,
           pois := s.pois.filter fun i => 4 * i < a || b ≤ 4 * i,
           m := { s.m with lerr := s.m.lerr.filter fun e => 4 * e.1 < a || b ≤ 4 * e.1 } }

/-- The cache of a core is emptied, with the latent errors of its words; a fill on its way is not kept. -/
def State.dropCache (s : State) (g : Nat) : State :=
  State.taint { s.modCore g Core.invalidate with m := { s.m with cerr := s.m.cerr.filter fun e => e.1 / 2 ^ 17 ≠ g } } g none

/-- Cluster `k` has its PWR_COLD bit set. -/
def State.coldBit (s : State) (k : Nat) : Bool := bit (s.rn .COLD 0 0) k = 1

/-- Flask `f` holds a resident group on core `g`: of its kind, and for a host the resident launch is its own. -/
def State.holds (s : State) (f g : Nat) : Bool :=
  let c := s.core g
  if s.isGuest f then s.guestOf g = f && c.groups.any fun gr => isG gr.strm
  else c.hflask = f && c.groups.any fun gr => !(isG gr.strm)

/-- Some group of the kind is resident, or has departures to be acknowledged (R124, R287). -/
def Core.kindBusy (c : Core) (guest : Bool) : Bool :=
  (c.groups.any fun gr => isG gr.strm = guest) || c.depart.any fun d => d.2.1 = guest

/-- The core is in no low-power state and not waking from one. -/
def Core.awake (c : Core) : Bool := c.power = 0 && !c.waking

/-- The parameter-read hold of a host flask's core (R35): in force from the seal to the completion notice, for a flask with a valid
binding (R383). -/
def State.holdNow (s : State) (f : Nat) : Bool :=
  !(s.isGuest f) && (s.bindingOf f).isSome && s.rf .SHADOW f 0 1 1 = 1

/-- A host launch takes the core (R124 to R130, R154, R155, R444). One that starts no group leaves no host group resident, and the
host fields of COR_SHAPE at their reset values (R154). -/
def State.acceptHost (s : State) (f g pos : Nat) (d : Desc) : State :=
  let w2 := d.w 2
  let sp := fld w2 1 0
  let gf := fld w2 17 13
  let gb := fld w2 22 18
  let gu := fld w2 27 23
  let change := s.rf .SPLIT g 0 1 0 ≠ sp
  let s := if change then ((s.zeroLs g 0 0x8_0000).dropCache g).wf .SPLIT g 0 4 4 1 else s
  let s := s.wf .SPLIT g 0 1 0 sp
  let s := s.wf .SHAPE g 0 17 0 (if gf + gb + gu = 0 then 0 else fld w2 4 2 + gf * 2 ^ 3 + gb * 2 ^ 8 + gu * 2 ^ 13)
  let s := s.wn .EWIN g 0 (fld w2 36 28 + fld w2 45 37 * 2 ^ 16)
  let mk (q : Nat) : Group :=
    let st : Stream := if q < gf then .f else if q < gf + gb then .b else .u
    let e := if q < gf then fld (d.w 3) 19 0 else if q < gf + gb then fld (d.w 3) 39 20 else fld (d.w 3) 59 40
    Group.start st q e d.idx (d.w 4) g pos (fld (d.w 1) 24 12)
  s.modCore g fun c =>
    { c with groups := c.groups ++ (List.range (gf + gb + gu)).map mk, hflask := f, lpg := fld w2 12 5 * 4096,
             zbusy := c.zbusy || change, phold := s.holdNow f }

/-- A guest launch takes the core (R129, R154, R444). -/
def State.acceptGuest (s : State) (g pos : Nat) (d : Desc) : State :=
  let w2 := d.w 2
  let n := fld w2 10 9
  let s := s.wf .SHAPE g 0 23 18 (bit w2 0 + n * 2 ^ 3)
  s.modCore g fun c =>
    { c with groups := c.groups ++ (List.range n).map fun q =>
               Group.start .g q (fld (d.w 3) 19 0) d.idx (d.w 4) g pos (fld (d.w 1) 24 12),
             lpgg := fld w2 8 1 * 4096 }

/-- Core `g` rejects a launch by its own state (R126, R127, R443, R494). -/
def State.rejects (s : State) (f g : Nat) (d : Desc) : Bool :=
  let r := s.gres g
  if s.isGuest f then r = 0 || s.guestOf g ≠ f || !(guestShapeOk (d.w 2) (d.w 3) (s.hostLs g) (s.lsSize g))
  else !(hostShapeOk (d.w 2) (d.w 3) r)
    || (s.rf .SPLIT g 0 1 0 ≠ fld (d.w 2) 1 0 && (s.core g).groups.any fun gr => isG gr.strm)

/-- The flask whose launch, of a kind, waits at core `g`. -/
def State.launching (s : State) (g op : Nat) : Option (Nat × Desc) :=
  (List.range 16).findSome? fun f =>
    match s.handHeld f op with
    | some d => if d.todo.head? = some g then some (f, d) else none
    | none => none

/-- The core has answered. -/
def Desc.answer (d : Desc) (g : Nat) (ok : Bool) : Desc :=
  if ok then { d with todo := d.todo.tail, acc := d.acc ++ [g] } else { d with todo := d.todo.tail, rej := d.rej ++ [g] }

/-- LAUNCH_ACCEPT (R124, R443): the launch waiting at core `g` is accepted or rejected; it waits on while the core holds
groups of the kind or sleeps. -/
def execLaunchAccept (g : Nat) (guest : Bool) (s : State) : Host.Outcome State Fault Refusal :=
  .next (match s.launching g (if guest then 2 else 1) with
    | none => s
    | some (f, d) =>
      if !(s.inSvc g) ∨ s.coldBit (g / 64) then s.answered f (d.answer g false)
      else if !(s.core g).awake || (s.core g).kindBusy guest then s
      else if s.rejects f g d then s.answered f (d.answer g false)
      else
        (if guest then s.acceptGuest g d.acc.length d else s.acceptHost f g d.acc.length d).answered f (d.answer g true))

/-- Groups of a launch are still to end: resident, saved, or with departures on their way (R287, R440). -/
def State.runsOn (s : State) (f : Nat) (d : Desc) (g : Nat) : Bool :=
  let gst := s.isGuest f
  let c := s.core g
  let mine (gr : Group) : Bool := isG gr.strm = gst && gr.own = d.idx
  ((gst || c.hflask = f) && (c.groups.any mine || c.depart.any fun e => e.2.1 = gst && e.2.2 = d.idx))
    || (match Sparse.get none s.saved (4096 * f + g) with
        | some v => !v.back && v.groups.any mine
        | none => false)

/-- LAUNCH_COMPLETE (R440, R443): every group that a launch started has ended. -/
def execLaunchComplete (f tag : Nat) (s : State) : Host.Outcome State Fault Refusal :=
  let q := s.q f
  let ended (d : Desc) : Bool := d.tag = tag && d.acc.all fun g => !(s.runsOn f d g)
  .next (match firstIdx ended q.prog with
    | none => s
    | some i =>
      match q.prog[i]? with
      | some d => (s.setQ f { q with prog := dropAt i q.prog }).complDesc f d (if d.rej = [] then stOk else stPartial)
      | none => s)

/-- SPLIT_ZEROING_END (R126). -/
def execSplitZeroingEnd (g : Nat) (s : State) : Host.Outcome State Fault Refusal :=
  .next (if (s.core g).zbusy then (s.modCore g fun c => { c with zbusy := false }).wf .SPLIT g 0 4 4 0 else s)

/-! ### SAVE and RESTORE (R300, R452, R453) -/

/-- Everything the flask's streams on a core issued has completed (R453): polls of waits do not count. -/
def State.quiet (s : State) (g : Nat) (guest : Bool) : Bool :=
  let c := s.core g
  let mine (q : Req) : Bool := q.kind ≠ .poll && (match q.src with
    | .grp x => x.core = g && isG x.strm = guest
    | .dma h e => h = g && (match Sparse.get none c.dma e with
        | some d => isG d.who.strm = guest
        | none => false)
    | _ => false)
  !(s.inFlight mine)
    && (guest || (c.mq = [] && c.land = [] && !c.zero && c.planes.all fun p => p.loading = none))
    && (c.dma.all fun e => match e.2 with
        | some d => isG d.who.strm ≠ guest
        | none => true)
    && !(c.depart.any fun d => d.2.1 = guest)
    && c.groups.all fun gr => isG gr.strm ≠ guest || (gr.busy = [] && gr.stores = [] && gr.loads = [] && gr.acq = []
        && (match gr.wait with
            | some w => (w.kind ≠ .bar && w.kind ≠ .swait) || w.ready
            | none => true))

/-- Range-counter slots of a kind (R70). -/
def slotsOf (guest : Bool) : List Nat := if guest then (List.range 8).map (56 + ·) else List.range 56

/-- An entry of the register file belongs to the slots of a kind on core `g`. -/
def slotKey (g : Nat) (guest : Bool) (k : Nat) : Bool :=
  let j := k / 256 % 2 ^ 20
  let r := k % 256
  let sl := if r = Reg.RCHIST.ctorIdx then j / 32 else j
  k / 2 ^ 28 = g && (slotsOf guest).contains sl
    && ([Reg.RCCFG, .RCTID, .RCOVF, .RCFLU, .RCNF, .RCMAX, .RCHIST].any fun q => q.ctorIdx = r)

/-- The slots of a kind on a core return to their reset values. -/
def State.clearSlots (s : State) (g : Nat) (guest : Bool) : State :=
  { s with regs := s.regs.filter fun e => !(slotKey g guest e.1) }

/-- What SAVE writes to the slot of a core (R452). -/
def State.saveOf (s : State) (g : Nat) (guest : Bool) : Saved :=
  let c := s.core g
  let p := s.mapped g guest
  let a := aper g + p.1
  let b := aper g + p.2
  { back := false,
    groups := c.groups.filter fun gr => isG gr.strm = guest,
    split := s.rf .SPLIT g 0 1 0,
    shape := if guest then s.rf .SHAPE g 0 23 18 else s.rf .SHAPE g 0 17 0,
    ewin := s.rn .EWIN g 0,
    lpg := if guest then c.lpgg else c.lpg,
    ls := (s.mem.filter fun e => a ≤ e.1 && e.1 < b).map fun e => (e.1 - a, e.2),
    lsP := (s.pois.filter fun i => a ≤ 4 * i && 4 * i < b).map fun i => i - a / 4,
    planes := if guest then [] else c.planes,
    edge := if guest then [] else c.edge,
    edgeP := if guest then [] else c.edgeP,
    rc := s.regs.filter fun e => slotKey g guest e.1 }

/-- The flask's groups leave a core, its streams' stops with them; a quarantined core stays stopped. -/
def State.unseat (s : State) (g : Nat) (guest : Bool) : State :=
  let free (l : List Nat) (i : Nat) : List Nat := if l.getD i 0 = 4 then l else l.set i 0
  let gs := (s.core g).groups.filter fun gr => isG gr.strm = guest
  let s := gs.foldl (fun s gr => s.endGroup { core := g, strm := gr.strm, grp := gr.q }) s
  s.modCore g fun c => { c with stop := if guest then free c.stop 3 else free (free (free c.stop 0) 1) 2 }

/-- A flask save reads every edge entry (R107): the latent errors of the core's edge file are found and counted. -/
def State.readEdges (s : State) (g : Nat) : State :=
  (s.m.eerr.filter fun e => e.1 / 2 ^ 14 = g).foldl (fun s e => (s.readEdge g (e.1 % 2 ^ 14 / 256) (e.1 % 256)).2.2) s

/-- SAVE on one core whose work is complete: cache invalidated, edge file and slot read out, groups removed. -/
def State.saveCore (s : State) (f g : Nat) : State :=
  let guest := s.isGuest f
  let s := if guest then s else s.readEdges g
  let p := s.mapped g guest
  let s := s.scrub (aper g + p.1) (p.2 - p.1)
  let s := if guest then s else (s.dropCache g).modCore g fun c => { c with pf := [] }
  (State.unseat { s with saved := Sparse.set none s.saved (4096 * f + g) (some (s.saveOf g guest)) } g guest)

/-- A core answers a SAVE: it takes no part when out of service, cold, or without groups of the flask. -/
def State.saveStep (s : State) (f : Nat) (d : Desc) (g : Nat) : Desc × State :=
  if !(s.inSvc g) || s.coldBit (g / 64) || !(s.holds f g) then
    ({ d with todo := d.todo.filter (· ≠ g), rej := d.rej ++ [g] }, s)
  else if (s.core g).awake && s.quiet g (s.isGuest f) then
    ({ d with todo := d.todo.filter (· ≠ g), acc := d.acc ++ [g] }, s.saveCore f g)
  else (d, s)

/-- A SAVE or RESTORE whose cores have all answered completes. -/
def State.setDone (s : State) (f : Nat) (d : Desc) : State :=
  if d.todo ≠ [] then s.setHand f d else s.endHand f d (if d.rej = [] then stOk else stPartial)

/-- SAVE (R453): at dispatch the flask's streams on the set stop; each core is saved once what it issued is complete. -/
def execSave (f : Nat) (s : State) : Host.Outcome State Fault Refusal :=
  let go (s : State) (d : Desc) : State :=
    let r := d.todo.foldl (fun (r : Desc × State) g => r.2.saveStep f r.1 g) (d, s)
    r.2.setDone f r.1
  .next (match s.handHeld f 6 with
    | some d => go s d
    | none =>
      match s.handFor f 6 with
      | none => s
      | some d =>
        match s.coreSet f d with
        | (none, s) => s.endHand f d stLaunchErr
        | (some cores, s) =>
          let stop (s : State) (g : Nat) : State :=
            if s.holds f g then s.modCore g fun c => c.stopAll (s.isGuest f) 5 else s
          go (cores.foldl stop s) { d with disp := true, todo := cores })

/-- RESTORE on one core (R300, R453): the slot is loaded and its groups are resident again; a waiting group polls on. -/
def State.restoreCore (s : State) (f g : Nat) (v : Saved) : State :=
  let guest := s.isGuest f
  let s := if guest then s
    else
      let s := if s.rf .SPLIT g 0 1 0 = v.split then s else s.dropCache g
      ((s.wf .SPLIT g 0 1 0 v.split).wf .SHAPE g 0 17 0 v.shape).wn .EWIN g 0 v.ewin
  let s := if guest then s.wf .SHAPE g 0 23 18 v.shape else s
  let p := s.mapped g guest
  let a := aper g + p.1
  let s := s.zeroLs g p.1 p.2
  let s := { s with mem := v.ls.foldl (fun m (e : Host.Cell) => Sparse.set 0 m (a + e.1) e.2) s.mem,
                    pois := v.lsP.foldl (fun l i => NSet.add (a / 4 + i) l) s.pois }
  let s := s.clearSlots g guest
  let s := { s with regs := v.rc.foldl (fun m (e : Nat × Word64) => Sparse.set 0 m e.1 e.2) s.regs }
  let poll (gr : Group) : Group :=
    { gr with wait := gr.wait.map fun w => { w with since := s.nextId } }
  let gs := v.groups.map poll
  let s := s.modCore g fun c =>
    let c := { c with groups := c.groups ++ gs }
    if guest then { c with lpgg := v.lpg }
    else { c with hflask := f, lpg := v.lpg, planes := v.planes, edge := v.edge, edgeP := v.edgeP, phold := s.holdNow f }
  let s := if guest then s else { s with m := { s.m with eerr := s.m.eerr.filter fun e => e.1 / 2 ^ 14 ≠ g } }
  let s := { s with saved := Sparse.set none s.saved (4096 * f + g) (some { v with back := true }) }
  gs.foldl (fun s gr => match gr.wait with
    | some w => if w.kind = .bar ∨ w.kind = .swait then s.pollNext g w.addr else s
    | none => s) s

/-- A core answers a RESTORE; it waits while the core holds groups of the kind, or sleeps. -/
def State.restoreStep (s : State) (f : Nat) (d : Desc) (g : Nat) : Desc × State :=
  let no : Desc := { d with todo := d.todo.filter (· ≠ g), rej := d.rej ++ [g] }
  match Sparse.get none s.saved (4096 * f + g) with
  | none => (no, s)
  | some v =>
    if !(s.inSvc g) || s.coldBit (g / 64) then (no, s)
    else if !(s.core g).awake || (s.core g).zbusy || (s.core g).zero || (s.core g).kindBusy (s.isGuest f) then (d, s)
    else if (!(s.isGuest f) && s.rf .SPLIT g 0 1 0 ≠ v.split && (s.core g).groups.any fun gr => isG gr.strm)
        || (s.isGuest f && s.gres g = 0) then (no, s)
    else ({ d with todo := d.todo.filter (· ≠ g), acc := d.acc ++ [g] }, s.restoreCore f g v)

/-- RESTORE (R453). -/
def execRestore (f : Nat) (s : State) : Host.Outcome State Fault Refusal :=
  let go (s : State) (d : Desc) : State :=
    let r := d.todo.foldl (fun (r : Desc × State) g => r.2.restoreStep f r.1 g) (d, s)
    r.2.setDone f r.1
  .next (match s.handHeld f 7 with
    | some d => go s d
    | none =>
      match s.handFor f 7 with
      | none => s
      | some d =>
        match s.coreSet f d with
        | (none, s) => s.endHand f d stLaunchErr
        | (some cores, s) => go s { d with disp := true, todo := cores })

end Sys2Proof.Machine
end

