-- ==== Sys2Proof/Machine/Shake.lean ====
section
/-! DEFINITION. Shake-out and LD reset (R450, R451, R503). -/

namespace Sys2Proof.Machine

/-- SHAKE_OUT (R450 step 1): the flask stops without a record or vector 2, and its job is aborted. A second GO is ignored. -/
def State.shakeOut (s : State) (f : Nat) : State :=
  if 16 ≤ f ∨ s.rf .QSTAT f 0 2 2 = 1 then s
  else
    let s := s.stopFlask f 0 true
    let s := if s.jobOk f then s.jobAbort f else s
    s.wf .QSTAT f 0 2 2 1

/-- SHAKE_OUT (R450). -/
def execShakeOut (f : Nat) (s : State) : Host.Outcome State Fault Refusal := .next (s.shakeOut f)

/-! ### The end of the drain (R450 steps 2 to 7) -/

/-- The request is one of a core of flask `f`. -/
def Req.ofCores (q : Req) (f : Nat) : Bool :=
  q.flask = f && (match q.src with
    | .grp _ | .dma _ _ | .pf _ _ => true
    | _ => false)

/-- The request is one of the flask's collective engines (R378, R412, R413). -/
def Req.ofEngines (q : Req) (f : Nat) : Bool :=
  q.flask = f && (match q.src with
    | .eng n => 2 ≤ n && n ≤ 6
    | _ => false)

/-- The request belongs to a DMA entry that has started: it runs to completion (R447, R450 step 3). -/
def Req.runsOut (q : Req) : Bool :=
  bit q.addr 63 = 0 && (match q.src with
    | .dma _ _ => true
    | _ => false)

/-- Updates on their way to a local store are applied now, in the order they were sent. -/
def State.applyAperture (s : State) (f : Nat) : State :=
  let mine (q : Req) : Bool :=
    q.ofCores f && !q.runsOut && q.kind.updates && bit q.addr 63 = 0 && dramEnd ≤ fld q.addr 47 0
  (s.reqs.filter mine).foldl (fun s q => s.serve q.orphan) { s with reqs := s.reqs.filter fun q => !(mine q) }

/-- A DMA entry waits no more for requests treated as complete. -/
def State.dmaOver (s : State) (q : Req) : State :=
  match q.src with
  | .dma g e =>
    match s.dmaAt g e with
    | some d => s.setDma g e { d with reads := d.reads.filter (· ≠ q.id), writes := d.writes.filter (· ≠ q.id) }
    | none => s
  | _ => s

/-- Every remote request of the flask is treated as complete (R450 step 2): its number and its flagged slot are free. -/
def State.dropRemote (s : State) (f : Nat) : State :=
  let mine (o : Outst) : Bool := o.req.ofCores f || o.req.ofEngines f
  let os := s.fab.outs.filter mine
  let s := os.foldl (fun s o => (s.slotFree o.req).dmaOver o.req) s
  { s with fab := { s.fab with outs := s.fab.outs.filter fun o => !(mine o),
                               floorDue := os.foldl (fun l o => NSet.add o.dst l) s.fab.floorDue } }

/-- What the flask's cores asked for and nobody waits for is dropped; updates still go to their homes, and with `runs` so do the
requests of started DMA entries, which complete (R450 step 3). -/
def State.dropRequests (s : State) (f : Nat) (runs : Bool) : State :=
  let mine (q : Req) : Bool := (q.ofCores f && !(runs && q.runsOut)) || q.ofEngines f
  let far := s.reqs.filter fun q => mine q && bit q.addr 63 = 1
  let back := s.resps.filter fun p => mine p.req
  let s := if runs then back.foldl (fun s p => s.dmaOver p.req) (far.foldl (fun s q => (s.slotFree q).dmaOver q) s) else s
  let keep (q : Req) : Option Req :=
    if !(mine q) then some q
    else if q.kind.updates ∧ bit q.addr 63 = 0 then some q.orphan else none
  { s with reqs := s.reqs.filterMap keep,
           resps := s.resps.filter fun p => !(mine p.req),
           m := { s.m with miss := s.m.miss.map fun e => (e.1, e.2.filterMap keep) } }

/-- The flask's part of a core is zeroed (R450 step 4); for a host the cache too, and the array by R115. -/
def State.zeroPart (s : State) (g : Nat) (guest : Bool) : State :=
  let p := s.mapped g guest
  let s := s.zeroLs g p.1 p.2
  let s := s.clearSlots g guest
  if guest then s else (s.dropCache g).zeroArray g

/-- Flask `f`'s place on core `g`: a guest's own core, or a core of a host that no other host flask occupies; but no core quarantined
during the shake-out (R502). -/
def State.placeOf (s : State) (f g : Nat) : Bool :=
  s.inMap f g && !((s.q f).away.contains g) &&
    (if s.isGuest f then s.guestOf g = f
     else (s.core g).hflask = f || (s.core g).groups.all fun gr => isG gr.strm)

/-- One core of the flask: groups, waits, stops and the entries not started go; its part is zeroed, or marked while the core
sleeps. -/
def State.shakeCore (s : State) (f g : Nat) : State :=
  let guest := s.isGuest f
  let c := s.core g
  let s := s.unseat g guest
  let s := s.modCore g fun c =>
    { c with depart := c.depart.filter fun d => d.2.1 ≠ guest,
             dma := c.dma.filter fun e => match e.2 with
               | some d => d.started || isG d.who.strm ≠ guest || d.flask ≠ f
               | none => false,
             pf := if guest then c.pf else [], mq := if guest then c.mq else [], land := if guest then c.land else [],
             phold := guest && c.phold }
  if c.power = 4 then s
  else if c.power = 0 ∧ !c.waking then s.zeroPart g guest
  else s.modCore g fun c => { c with marked := c.marked ||| (if guest then 2 else 1) }

/-- SHAKE_OUT_DRAIN_END (R450 steps 2 to 7). -/
def execShakeOutDrainEnd (f : Nat) (s : State) : Host.Outcome State Fault Refusal :=
  .next (if s.rf .QSTAT f 0 2 2 = 0 then s
    else
      let s := ((s.applyAperture f).dropRemote f).dropRequests f true
      let s := (((List.range 4096).filter fun g => s.placeOf f g)).foldl (fun s g => s.shakeCore f g) s
      let quiet : Bool := (s.q f).ldr && !(NSet.has s.msixEn f)
      let s := s.setQ f QueueSt.init
      let s := ((s.wn .SQHEAD f 0 0).wn .CQTAIL f 0 0).wf .QCTL f 0 0 0 0
      let s := (((s.wn .FAULT0 f 0 0).wn .FAULT1 f 0 0).wn .WDSTAT f 0 0).wn .STEP f 0 0
      let of (n : Notice) : Bool := match n with
        | .fault h .. | .stepEv h _ | .binding h _ | .completion h _ => h = f
        | .landing .. => false
      let s := State.clearFlight { s with notices := s.notices.filter fun n => !(of n) } f
      let s := s.wf .QSTAT f 0 2 1 0
      if quiet then s else s.raiseVec f 3)

/-- LD_RESET (R451): configuration space, BAR with the HDM decoder, MSI-X and mailbox of the LD return to reset; then the
shake-out, or the one in progress goes on. -/
def State.ldConfigReset (s : State) (f : Nat) : State :=
  { s with bar := s.bar.filter fun e => e.1 / 2 ^ 18 ≠ f, msix := s.msix.filter fun e => e.1 / 4 ≠ f, msixEn := NSet.del s.msixEn f,
           pba := s.pba.filter fun e => e / 4 ≠ f, policy := Sparse.set 0 s.policy f 0,
           cfg := s.cfg.filter fun e => e.1 / 4096 ≠ f }

/-- LD_RESET (R451). -/
def execLdReset (f : Nat) (s : State) : Host.Outcome State Fault Refusal :=
  .next (if 16 ≤ f then s
    else
      let s := (s.ldConfigReset f).shakeOut f
      s.setQ f { s.q f with ldr := true })

end Sys2Proof.Machine
end

