-- ==== Sys2Proof/Machine/Host.lean ====
section
/-! DEFINITION. The host port (R425 to R436, R446, R458, R469, R522): CXL.mem, mailbox, FM API and DOE commands,
configuration requests, the MSI-X table, IDE, the link. -/

namespace Sys2Proof.Machine

/-- The host of an LD is there: boot has ended, the link is up, and the LD is bound to a vPPB, or is LD 0 in direct attachment
(R425, R458, R469). -/
def State.fnUp (s : State) (ld : Nat) : Bool :=
  ld < s.nf && s.booted && s.rf .LSTAT 0 0 0 0 = 1 && s.rf .LDSTAT 0 0 (16 + ld) (16 + ld) = 1

/-- The host of an LD reaches CXL.mem and CXL.io memory: it is there, and the IDE streams have not failed (R436). -/
def State.hostUp (s : State) (ld : Nat) : Bool := s.fnUp ld && s.rf .IDESTAT 0 0 2 2 = 0

/-! ### CXL.mem (R429, R430) -/

/-- Module offset of the 64 bytes at a DPA when the request is not refused. -/
def State.memOff (s : State) (ld dpa : Nat) (p : Perm) : Option Nat :=
  match s.dpaOff ld (dpa / 64 * 64) 64 with
  | some off => if s.allowed ld p off 64 then some off else none
  | none => none

/-- A refused request is counted (R430). -/
def State.refuseMem (s : State) (ld : Nat) : State := s.addFld .HERR ld 0 15 0 1

/-- A request that needs DRAM is held until the rotas run (R496). -/
def State.dramHeld (s : State) (off : Nat) : Bool := !(s.rotaOn (s.chan (s.view off / 128)).1)

/-- The host's route to the home of an offset crosses a failed link (R32). -/
def State.cxlCut (s : State) (off : Nat) : Bool := s.cutBetween (.io 0) (.mem (s.home (s.view off / 128)))

/-- A host request that a failed link ends: its flask takes a link-failed fault (R32). -/
def State.cxlLost (s : State) (ld : Nat) : State := s.notify (.fault ld 9 0 .f 0 0 0)

/-- A host request is held until the rotas restart (R496). -/
def State.holdCxl (s : State) (e : CxlHeld) : State := { s with cxlHeld := s.cxlHeld ++ [e] }

/-- A CXL.mem read at a module offset (R429): the 64 bytes at the point of coherence, with their poison. -/
def State.cxlRead (s : State) (ld dpa off : Nat) : State :=
  if s.cxlCut off then { s.cxlLost ld with out := .cxlData ld dpa (List.replicate 64 0) true :: s.out }
  else
    let r := s.engRead ld off 64
    { r.2.2 with out := .cxlData ld dpa r.1 r.2.1 :: r.2.2.out }

/-- The enabled bytes of a write; the others are zero in its digest (R232). -/
def enabled (data : List Byte) (mask : BitVec 64) : List Byte :=
  (List.range 64).map fun i => if mask.getLsbD i then data.getD i 0 else 0

/-- A CXL.mem write at a module offset (R429, R207): the enabled bytes are merged at the home, and the write is acknowledged. -/
def State.cxlWrite (s : State) (ld dpa off : Nat) (data : List Byte) (mask : BitVec 64) (poi : Bool) : State :=
  if s.cxlCut off then { s.cxlLost ld with out := .cxlAck ld dpa :: s.out }
  else
    let m := if mask = BitVec.allOnes 64 then [] else (List.range 64).map mask.getLsbD
    let t := (s.engLine (s.view off / 128) (some ld) off 64 true).pocWrite ld off m (enabled data mask) poi
    { t with out := .cxlAck ld dpa :: t.out }

/-- CXL_MEM_READ (R429, R430, R496): a refused read returns zeros marked poisoned. The request ends standby, and is held while no rota
runs. -/
def execCxlMemRead (ld dpa : Nat) (s : State) : Host.Outcome State Fault Refusal :=
  .next (if !(s.hostUp ld) then s
    else
      let s := s.standbyEnds
      match s.memOff ld dpa 0 with
      | none =>
        let s := s.refuseMem ld
        { s with out := .cxlData ld dpa (List.replicate 64 0) true :: s.out }
      | some off =>
        if s.dramHeld off then s.holdCxl { kind := 0, ld := ld, dpa := dpa, data := [], mask := 0, pois := false }
        else s.cxlRead ld dpa off)

/-- CXL_MEM_WRITE (R429, R430, R496): a refused write is acknowledged and discarded. The request ends standby, and is held while no
rota runs. -/
def execCxlMemWrite (ld dpa : Nat) (data : List (BitVec 8)) (mask : BitVec 64) (poi : Bool) (s : State) :
    Host.Outcome State Fault Refusal :=
  .next (if !(s.hostUp ld) then s
    else
      let s := s.standbyEnds
      match s.memOff ld dpa 1 with
      | none =>
        let s := s.refuseMem ld
        { s with out := .cxlAck ld dpa :: s.out }
      | some off =>
        if s.dramHeld off then s.holdCxl { kind := 1, ld := ld, dpa := dpa, data := slice data 0 64, mask := mask, pois := poi }
        else s.cxlWrite ld dpa off (slice data 0 64) mask poi)

/-! ### Replies -/

/-- CXL return codes (PRESUMED, CXL 2.0): Success, Invalid Input, Unsupported. -/
def rcOk : Nat := 0
/-- Invalid Input. -/
def rcInvalid : Nat := 2
/-- Unsupported. -/
def rcUnsupported : Nat := 3

/-- A reply to a command, with what the spec states of its content. -/
def State.answer (s : State) (ld cmd rc : Nat) (content : List Nat) : State :=
  { s with out := .reply ld cmd rc (Config.standardReply cmd ld content) :: s.out }

/-- The FM-owned LD in replies. -/
def fmLd : Nat := 16

/-- A command of the FM API is taken (R427): over the FM-owned LD's mailbox, or MCTP. -/
def State.fm (s : State) (f : State → State) : State := if s.booted then f s else s

/-- A command of an LD's mailbox is taken (R434). -/
def State.mbox (s : State) (ld : Nat) (f : State → State) : State := if s.hostUp ld then f s else s

/-- Capacities of the LDs. -/
def State.caps (s : State) : List Nat := (List.range s.nf).map s.ldCap

/-- IDENTIFY (R427). -/
def execIdentify (s : State) : Host.Outcome State Fault Refusal := .next (s.fm fun s => s.answer fmLd 0x0001 rcOk [])

/-- GET_LD_INFO (R427). -/
def execGetLdInfo (s : State) : Host.Outcome State Fault Refusal :=
  .next (s.fm fun s => s.answer fmLd 0x5400 rcOk (s.nf :: s.caps))

/-- Allocations in units of 256 MiB. -/
def State.allocs (s : State) : List Nat := s.caps.map (· / 2 ^ 28)

/-- GET_LD_ALLOCATIONS (R427). -/
def execGetLdAllocations (s : State) : Host.Outcome State Fault Refusal :=
  .next (s.fm fun s => s.answer fmLd 0x5401 rcOk s.allocs)

/-- SET_LD_ALLOCATIONS (R427): succeeds only with the current allocations. -/
def execSetLdAllocations (alloc : List Nat) (s : State) : Host.Outcome State Fault Refusal :=
  .next (s.fm fun s => s.answer fmLd 0x5402 (if alloc = s.allocs then rcOk else rcInvalid) [])

/-- GET_QOS_CONTROL (R427): every control disabled. -/
def execGetQosControl (s : State) : Host.Outcome State Fault Refusal := .next (s.fm fun s => s.answer fmLd 0x5403 rcOk [0])

/-- Commands the FM-owned LD supports. -/
def fmCommands : List Nat := [0x0001, 0x5400, 0x5401, 0x5402, 0x5403]

/-- Commands an LD's mailbox supports. -/
def ldCommands : List Nat :=
  [0x0100, 0x0101, 0x0102, 0x0103, 0x0200, 0x0400, 0x0401, 0x4000, 0x4200, 0x4300, 0x4302]

/-- UNSUPPORTED_COMMAND (R427, R434). A supported code is another command. -/
def execUnsupportedCommand (ld code : Nat) (s : State) : Host.Outcome State Fault Refusal :=
  .next (if ld = fmLd then (if fmCommands.contains code then s else s.fm fun s => s.answer ld code rcUnsupported [])
    else if ldCommands.contains code then s else s.mbox ld fun s => s.answer ld code rcUnsupported [])

/-- Record numbers in a log of an LD. -/
def State.logOf (s : State) (ld log : Nat) : List Nat := Sparse.get [] s.ldlog (4 * ld + log)

/-- GET_EVENT_RECORDS (R434): the records that concern the flask. -/
def execGetEventRecords (ld log : Nat) (s : State) : Host.Outcome State Fault Refusal :=
  .next (s.mbox ld fun s => s.answer ld 0x0100 rcOk (if log < 4 then s.logOf ld log else []))

/-- CLEAR_EVENT_RECORDS (R434). -/
def execClearEventRecords (ld log : Nat) (handles : List Nat) (s : State) : Host.Outcome State Fault Refusal :=
  .next (s.mbox ld fun s =>
    let s := if log < 4 then
        { s with ldlog := Sparse.set [] s.ldlog (4 * ld + log) ((s.logOf ld log).filter fun r => !(handles.contains r)) }
      else s
    s.answer ld 0x0101 rcOk [])

/-- GET_EVENT_INTERRUPT_POLICY (R434). -/
def execGetEventInterruptPolicy (ld : Nat) (s : State) : Host.Outcome State Fault Refusal :=
  .next (s.mbox ld fun s => s.answer ld 0x0102 rcOk [Sparse.get 0 s.policy ld])

/-- SET_EVENT_INTERRUPT_POLICY (R434): bit by log number; vector 0 only. -/
def execSetEventInterruptPolicy (ld policy : Nat) (s : State) : Host.Outcome State Fault Refusal :=
  .next (s.mbox ld fun s =>
    State.answer { s with policy := Sparse.set 0 s.policy ld (policy % 16) } ld 0x0103 rcOk [])

/-- GET_FW_INFO (R434): one slot, read-only. -/
def execGetFwInfo (ld : Nat) (s : State) : Host.Outcome State Fault Refusal :=
  .next (s.mbox ld fun s => s.answer ld 0x0200 rcOk [1])

/-- GET_SUPPORTED_LOGS (R434): the Command Effects Log only. -/
def execGetSupportedLogs (ld : Nat) (s : State) : Host.Outcome State Fault Refusal :=
  .next (s.mbox ld fun s => s.answer ld 0x0400 rcOk [1])

/-- GET_LOG (R434): the Command Effects Log. -/
def execGetLog (ld : Nat) (s : State) : Host.Outcome State Fault Refusal :=
  .next (s.mbox ld fun s => s.answer ld 0x0401 rcOk ldCommands)

/-- IDENTIFY_MEMORY_DEVICE (R434): volatile and persistent capacity, poison list capacity. -/
def execIdentifyMemoryDevice (ld : Nat) (s : State) : Host.Outcome State Fault Refusal :=
  .next (s.mbox ld fun s => s.answer ld 0x4000 rcOk [s.ldCap ld, 0, 1024])

/-- GET_HEALTH_INFO (R434): health, from the classes of the error records held. -/
def execGetHealthInfo (ld : Nat) (s : State) : Host.Outcome State Fault Refusal :=
  .next (s.mbox ld fun s => s.answer ld 0x4200 rcOk (s.records.map (·.cls)))

/-- DPAs at which a line of the poison lists is seen, through the LD's host windows. -/
def State.dpasOf (s : State) (ld line : Nat) : List Nat :=
  let off := s.view (line * 128)
  let ws := List.range (min 8 (s.nhwin ld))
  let base (w : Nat) : Nat := (List.range w).foldl (fun a k => a + (s.hostWin ld k).2) 0
  (ws.filter fun w => (s.hostWin ld w).1 ≤ off && off < (s.hostWin ld w).1 + (s.hostWin ld w).2).map fun w =>
    base w + (off - (s.hostWin ld w).1)

/-- GET_POISON_LIST (R434): the lines of the home poison lists in the DPA range. -/
def execGetPoisonList (ld dpa len : Nat) (s : State) : Host.Outcome State Fault Refusal :=
  .next (s.mbox ld fun s =>
    s.answer ld 0x4300 rcOk (((s.m.plist.map fun e => s.dpasOf ld e.2).flatten).filter fun a => dpa ≤ a && a < dpa + len))

/-- Where a Clear Poison writes: a line the LD may write, or one of a shared region it may read, whose abandoned lines the host
clears (R417). -/
def State.clearOff (s : State) (ld dpa : Nat) : Option Nat :=
  (s.memOff ld dpa 1) <|> ((s.memOff ld dpa 0).filter s.shared)

/-- A Clear Poison at a module offset (R434): the 64 bytes given, and zeros in the other half, as one whole-line write. -/
def State.cxlClear (s : State) (ld off : Nat) (d : List Byte) : State :=
  let z := List.replicate 64 0
  (s.engWrite ld (off / 128 * 128) (if off % 128 = 0 then d ++ z else z ++ d) false).answer ld 0x4302 rcOk []

/-- CLEAR_POISON (R417, R434, R496): held while no rota runs. -/
def execClearPoison (ld dpa : Nat) (data : List (BitVec 8)) (s : State) : Host.Outcome State Fault Refusal :=
  .next (s.mbox ld fun s =>
    match s.clearOff ld dpa with
    | none => s.answer ld 0x4302 rcInvalid []
    | some off =>
      if s.dramHeld off then s.holdCxl { kind := 2, ld := ld, dpa := dpa, data := slice data 0 64, mask := 0, pois := false }
      else s.cxlClear ld off (slice data 0 64))

/-- A held request is served, the rotas running again (R496); one whose LD's windows no longer allow it is refused. -/
def State.serveHeld (s : State) (e : CxlHeld) : State :=
  match e.kind with
  | 0 =>
    match s.memOff e.ld e.dpa 0 with
    | some off => s.cxlRead e.ld e.dpa off
    | none => s
  | 1 =>
    match s.memOff e.ld e.dpa 1 with
    | some off => s.cxlWrite e.ld e.dpa off e.data e.mask e.pois
    | none => s
  | _ =>
    match s.clearOff e.ld e.dpa with
    | some off => s.cxlClear e.ld off e.data
    | none => s

/-! ### DOE and configuration (R435, R436, R451, R469) -/

/-- DISCOVERY (R435): three protocols. -/
def execDiscovery (ld : Nat) (s : State) : Host.Outcome State Fault Refusal :=
  .next (if s.fnUp ld then s.answer ld 0x10000 rcOk [3] else s)

/-- CXL_TABLE_ACCESS (R435): the CDAT: DPA 0 to the capacity, volatile; latencies in ns, bandwidths in MB/s. -/
def execCxlTableAccess (ld : Nat) (s : State) : Host.Outcome State Fault Refusal :=
  .next (if s.fnUp ld then s.answer ld 0x10002 rcOk [s.ldCap ld, 400, 250, 64000, 64000] else s)

/-- Send the vectors of an LD that are pending and no longer masked. -/
def State.sendPending (s : State) (ld : Nat) : State :=
  let free (v : Nat) : Bool := NSet.has s.pba (4 * ld + v) && NSet.has s.msixEn ld
    && fld (Sparse.get (1#128 <<< 96) s.msix (4 * ld + v)).toNat 96 96 = 0
  ((List.range 4).filter free).foldl (fun s v => { s with pba := NSet.del s.pba (4 * ld + v), out := .msix ld v :: s.out }) s

/-- CONFIGURATION_REQUEST (R446, R469): retry status (code 1) before boot ends; a read answers the word, a write sets it, and
one to the MSI-X capability enables the table and sends what is pending. -/
def execConfigurationRequest (ld off : Nat) (write : Bool) (v : BitVec 32) (s : State) : Host.Outcome State Fault Refusal :=
  let k := 4096 * ld + off / 4 * 4
  .next (if s.rf .LSTAT 0 0 0 0 = 0 ∨ 16 ≤ ld ∨ 4096 ≤ off then s
    else if !s.booted then { s with out := .reply ld 0x20000 1 [] :: s.out }
    else if s.nf ≤ ld then s
    else if !write then
      { s with out := .reply ld 0x20000 0 (Config.standardReply 0x20000 ld [off / 4 * 4, (Sparse.get 0 s.cfg k).toNat]) :: s.out }
    else
      let s := { s with cfg := Sparse.set 0 s.cfg k v, out := .reply ld 0x20001 0 [] :: s.out }
      if off / 4 * 4 ≠ Config.msixCap then s
      else
        let on : Bool := v.getLsbD 31 && !(v.getLsbD 30)
        State.sendPending { s with msixEn := if on then NSet.add ld s.msixEn else NSet.del s.msixEn ld } ld)

/-- MSIX_TABLE_WRITE (R446): an entry is written; one no longer masked sends its pending vector. -/
def execMsixTableWrite (ld vec : Nat) (entry : BitVec 128) (s : State) : Host.Outcome State Fault Refusal :=
  .next (if !(s.hostUp ld) ∨ 4 ≤ vec then s
    else State.sendPending { s with msix := Sparse.set (1#128 <<< 96) s.msix (4 * ld + vec) entry } ld)

/-! ### IDE and the link (R436, R458, R522) -/

/-- A host request in flight that an integrity failure completes (R436): a read with poison; a write is acknowledged and a Clear
Poison is answered, neither being applied (log entry 71). -/
def State.failHeld (s : State) (e : CxlHeld) : State :=
  match e.kind with
  | 0 => { s with out := .cxlData e.ld e.dpa (List.replicate 64 0) true :: s.out }
  | 1 => { s with out := .cxlAck e.ld e.dpa :: s.out }
  | _ => s.answer e.ld 0x4302 rcInvalid []

/-- A check of stream `k` (0 CXL.io, 1 CXL.cachemem) fails (R436, R458): that stream is insecure, and FAIL stays until the streams are
keyed again. What the host has in flight is completed with poison. -/
def State.ideFails (s : State) (k : Nat) : State :=
  let s := (s.wf .IDESTAT 0 0 k k 0).wf .IDESTAT 0 0 2 2 1
  let s := s.cxlHeld.foldl State.failHeld { s with cxlHeld := [] }
  s.record 3 0x0017 14 0 none (s.rn .IDESTAT 0 0) 0 0

/-- IDE_INTEGRITY_FAILURE (R436): a secure stream fails its check; the row does not say which of two, so it is a free value (log
entries 3 and 71). -/
def execIdeIntegrityFailure (s : State) : Host.Outcome State Fault Refusal :=
  .next (if s.rf .IDESTAT 0 0 1 1 = 0 then (if s.rf .IDESTAT 0 0 0 0 = 0 then s else s.ideFails 0)
    else if s.rf .IDESTAT 0 0 0 0 = 0 then s.ideFails 1
    else
      let b := s.freeB
      b.2.ideFails (if b.1 then 0 else 1))

/-- The streams `k` (bit 0 CXL.io, bit 1 CXL.cachemem) are keyed (R436, R475): a failure is over once both are secure. -/
def State.ideKeyed (s : State) (k : Nat) : State :=
  let now := s.rf .IDESTAT 0 0 1 0 ||| k
  let s := s.wf .IDESTAT 0 0 1 0 now
  if now = 3 then s.wf .IDESTAT 0 0 2 2 0 else s

/-! ### The BAR (R425, R432, R433, R446) -/

/-- Bytes of the BAR that hold the LD's component and device registers (R432). -/
def barReg (off : Nat) : Bool := off < 0x1_1000

/-- A host write of component or device registers in the BAR: the bytes are held (log entry 71). -/
def State.barWrite (s : State) (ld off : Nat) (bs : List Byte) : State :=
  { s with bar := ((List.range bs.length).zip bs).foldl (fun m e =>
      if barReg (off + e.1) then Sparse.set 0 m (2 ^ 18 * ld + (off + e.1)) e.2 else m) s.bar }

/-- A byte of the BAR outside the flask's window, as the host reads it (R432): component and device registers, the MSI-X table,
pending bits; elsewhere zero. -/
def State.barByte (s : State) (ld off : Nat) : Nat :=
  if barReg off then (Sparse.get 0 s.bar (2 ^ 18 * ld + off)).toNat
  else if 0x3_0000 ≤ off ∧ off < 0x3_0040 then
    (Sparse.get (1#128 <<< 96) s.msix (4 * ld + (off - 0x3_0000) / 16)).toNat / 256 ^ (off % 16) % 256
  else if off = 0x3_1000 then (List.range 4).foldl (fun a v => a + if NSet.has s.pba (4 * ld + v) then 2 ^ v else 0) 0
  else 0

/-- The link goes down (R458): host requests in flight go with it. -/
def State.linkDown (s : State) : State := State.wn { s with cxlHeld := [] } .LSTAT 0 0 0

/-- CXL_PERST (R522): while low the link is down and insecure; every LD's configuration returns to its reset values. -/
def execCxlPerst (low : Bool) (s : State) : Host.Outcome State Fault Refusal :=
  .next (let s := s.wf .PINS 0 0 30 30 (if low then 1 else 0)
    if !low then s
    else (List.range 16).foldl (fun s f => s.ldConfigReset f) ((s.linkDown).wf .IDESTAT 0 0 1 0 0))

/-- CXL_LINK_STATE_CHANGE (R425, R458): up with a width of 8 or 16 lanes and speed code 1 to 3, not while CXL_PERST_N is low
nor before boot stage 6 has run (R469); `bound` says which LDs a vPPB binds. -/
def execCxlLinkStateChange (up : Bool) (width speed bound : Nat) (s : State) : Host.Outcome State Fault Refusal :=
  .next (if !up then s.linkDown
    else if (width ≠ 8 ∧ width ≠ 16) ∨ speed = 0 ∨ 3 < speed ∨ s.rf .PINS 0 0 30 30 = 1 ∨ s.rf .BOOT 0 0 5 5 = 1
        ∨ (!s.booted ∧ !s.mgt.boot.six) then s
    else (s.wn .LSTAT 0 0 (1 + width / 2 * 2 + speed * 2 ^ 5)).wf .LDSTAT 0 0 31 16 (bound % 2 ^ 16))

end Sys2Proof.Machine
end

