-- ==== Sys2Proof/Machine/Fail.lean ====
section
/-! DEFINITION. Failed links (R32), lost PLL lock (R484), the guest's guaranteed mode (R141), sequencer mismatch and
the reset of a quarantined core (R143, R409). -/

namespace Sys2Proof.Machine

/-! ### Failed links -/

/-- LINK_FAILED (R32): a fatal record, every job aborted, every outstanding request that used the link ended; the link stays
failed, and what comes to cross it later ends the same way. -/
def execLinkFailed (c : Crossing) (s : State) : Host.Outcome State Fault Refusal :=
  .next (match crossingNum c with
    | none => s
    | some x =>
      if s.rf .XPHASE 0 x 8 8 = 0 then s
      else
        let hit (q : Req) : Bool := (s.uses q none).contains x
        let hitOut (o : Outst) : Bool := (s.uses o.req (some o.port)).contains x
        let rs := s.reqs.filter hit
        let ms := ((s.m.miss.map fun e => e.2.filter hit).flatten)
        let os := s.fab.outs.filter hitOut
        let s := State.abortAll (State.record { s with down := NSet.add x s.down } 4 0x0001 11 0 none x 0 0)
        let mark (p : Resp) : Resp :=
          if hit p.req then { p with data := List.replicate 128 0, pois := List.range 32, olds := [], status := 5 } else p
        let s := { s with reqs := s.reqs.filter fun q => !(hit q), resps := s.resps.map mark,
                          m := { s.m with miss := s.m.miss.map fun e => (e.1, e.2.filter fun q => !(hit q)) },
                          fab := { s.fab with outs := s.fab.outs.filter fun o => !(hitOut o) } }
        let s := rs.foldl (fun s q => s.linkLost q true) s
        let s := ms.foldl (fun s q => s.linkLost q true) s
        os.foldl (fun s o => s.linkLost o.req false) s)

/-! ### PLLs (R482, R484) -/

/-- Instances of the PLLs of a row of R482. -/
def pllCount (kind : Nat) : Nat := [64, 4, 8, 48, 2, 16, 1].getD kind 0

/-- A core is quarantined because its cluster's PLL lost lock (R409, R484): the record has the code of a lost lock, as R543 names no
other for it (DESIGN CHOICE, log entry 70). -/
def State.pllQuarantine (s : State) (g : Nat) : State := (s.quarantine g).record 3 0x0003 4 g none 0 (g / 64) 0

/-- PLL_LOCK_LOSS (R484): a cluster's in-service cores are quarantined and it is held Cold until power-on reset; for
another, LOCKED clears, a fatal record is made, and every job is aborted. -/
def execPllLockLoss (u : PllUnit) (s : State) : Host.Outcome State Fault Refusal :=
  .next (if s.rf .XPHASE 0 0 8 8 = 0 then s
    else
      match u with
      | .cluster k =>
        if 64 ≤ k then s
        else ((List.range 64).map (64 * k + ·) |>.filter s.inSvc).foldl State.pllQuarantine (s.wf .PSTATE k 0 2 2 1)
      | .other kind i =>
        if kind = 0 ∨ pllCount kind ≤ i then s
        else ((s.wf .CLKSTAT 0 0 0 0 0).record 4 0x0003 11 0 none kind i 0).abortAll)

/-! ### Guaranteed mode (R141) -/

/-- A guest group is resident on core `g`. -/
def State.hasGuest (s : State) (g : Nat) : Bool := (s.core g).groups.any fun gr => isG gr.strm

/-- GUARANTEED_MODE_START (R141): the denied count has reached 65,536. -/
def execGuaranteedModeStart (g : Nat) (s : State) : Host.Outcome State Fault Refusal :=
  .next (if s.hasGuest g && s.rf .GSTARVE g 0 29 29 = 0 then s.wn .GSTARVE g 0 (65536 + 2 ^ 29) else s)

/-- GUARANTEED_MODE_END (R141): the guest has no resident group; the count returns to 0. The 4,096th issue ends the mode
in `countIssue`. -/
def execGuaranteedModeEnd (g : Nat) (s : State) : Host.Outcome State Fault Refusal :=
  .next (if s.rf .GSTARVE g 0 29 29 = 1 && !(s.hasGuest g) then s.wn .GSTARVE g 0 0 else s)

/-! ### Sequencer mismatch (R143) -/

/-- SEQUENCER_MISMATCH (R143): the core is quarantined, COR_SEQMM records the pair, a record is made. -/
def execSequencerMismatch (g : Nat) (st : Stream) (s : State) : Host.Outcome State Fault Refusal :=
  .next (if !(s.inSvc g) || !((s.core g).awake) || 4096 ≤ g then s
    else
      let s := s.quarantine g
      let s := if s.rf .SEQMM g 0 0 0 = 0 then s.wn .SEQMM g 0 (1 + streamNum st * 2) else s
      s.record 3 0x0010 4 g none (s.rn .SEQMM g 0) 0 0)

/-- QUARANTINE_RESET (R143, R115): once what the core issued is complete, its array is zeroed. -/
def execQuarantineReset (g : Nat) (s : State) : Host.Outcome State Fault Refusal :=
  .next (if (s.core g).quar && s.quiet g false && s.quiet g true then
      (s.zeroArray g).modCore g fun c => { c with quar := false }
    else s)

end Sys2Proof.Machine
end

