-- ==== Sys2Proof/Machine/Power.lean ====
section
/-! DEFINITION. Power states and wakes (R488 to R494), Module standby (R495, R496), the power window (R497, R498), the thermal
trip and the leak (R499, R532). -/

namespace Sys2Proof.Machine

/-! ### Idle cores and stepping down (R490, R491) -/

/-- A launch, save or restore waits at core `g`. -/
def State.waitedAt (s : State) (g : Nat) : Bool :=
  s.queue.any fun e => e.2.hand.any fun d => [1, 2, 6, 7].contains d.op && d.todo.contains g

/-- A request is on its way from core `g`, or to its local store. -/
def State.coreTraffic (s : State) (g : Nat) : Bool :=
  s.inFlight fun q => q.src.core = some g || (bit q.addr 63 = 0 && aperOf (fld q.addr 47 0) = some g)

/-- Core `g` is idle (R490); a quarantined core counts as idle once its zeroing has ended. -/
def State.idle (s : State) (g : Nat) : Bool :=
  let c := s.core g
  if !(s.inSvc g) then !c.quar && !c.zero && !c.zbusy
  else
    c.groups.isEmpty && !(s.waitedAt g) && c.mq.isEmpty && c.land.isEmpty && !c.zero && !c.zbusy
      && c.planes.all (fun p => p.loading = none) && c.dma.isEmpty && c.pf.isEmpty && c.depart.isEmpty
      && !(s.coreTraffic g)

/-- State of cluster `k` (R509): 0 Run, 1 Nap, 2 Rest, 3 Cold. -/
def State.clu (s : State) (k : Nat) : Nat := s.rf .PSTATE k 0 1 0

/-- Every core of a cluster satisfies a test. -/
def allCores (k : Nat) (t : Nat → Bool) : Bool := (List.range 64).all fun n => t (64 * k + n)

/-- Cores of some clusters changed. -/
def State.modClusters (s : State) (k : Nat → Bool) (f : Core → Core) : State :=
  let all := (List.range 4096).map fun g => (g, if k (g / 64) then f (s.core g) else s.core g)
  { s with cores := all.filter fun e => e.2 ≠ Core.init }

/-- HOLD_ENTRY (R490). -/
def execHoldEntry (g : Nat) (s : State) : Host.Outcome State Fault Refusal :=
  .next (if 4096 ≤ g ∨ !((s.core g).awake) ∨ !(s.idle g) ∨ (s.rf .IDLE 0 0 7 0 = 0 ∧ s.inSvc g = true) then s
    else (s.modCore g fun c => { c with power := 1 }).wf .HOLD (g / 64) 0 (g % 64) (g % 64) 1)

/-- NAP_ENTRY (R491): every core of the cluster is in Hold. -/
def execNapEntry (k : Nat) (s : State) : Host.Outcome State Fault Refusal :=
  .next (if 64 ≤ k ∨ s.rf .IDLE 0 0 7 0 = 0 ∨ s.rf .IDLE 0 0 15 8 = 0
        ∨ !(allCores k fun g => (s.core g).power = 1 && !(s.core g).waking) then s
    else (s.modClusters (· = k) fun c => { c with power := 2 }).wf .PSTATE k 0 1 0 1)

/-- REST_ENTRY (R491). -/
def execRestEntry (k : Nat) (s : State) : Host.Outcome State Fault Refusal :=
  .next (if 64 ≤ k ∨ s.rf .IDLE 0 0 31 16 = 0 ∨ s.rf .IDLE 0 0 15 8 = 0 ∨ s.rf .IDLE 0 0 7 0 = 0 ∨ s.clu k ≠ 1 then s
    else (s.modClusters (· = k) fun c => { c with power := 3 }).wf .PSTATE k 0 1 0 2)

/-! ### Cold (R493, R494, R504) -/

/-- A core in Cold: nothing retained. -/
def Core.cold : Core := { Core.init with power := 4 }

/-- The key of an entry of the register file lies in the COR block. -/
def isCor (k : Nat) : Bool := k % 256 < Reg.PSTATE.ctorIdx

/-- Register values of a cluster after Cold: the COR registers are lost but for COR_SEQMM and COR_SPLIT.GRES. -/
def coldReg (e : Nat × Word64) : Nat × Word64 :=
  if e.1 % 256 = Reg.SPLIT.ctorIdx then (e.1, e.2 &&& 0xC) else e

/-- Clusters lose their power (R493, R504). -/
def State.toCold (s : State) (k : Nat → Bool) : State :=
  let inK (a : Nat) : Bool := match aperOf a with
    | some g => k (g / 64)
    | none => false
  let s := s.modClusters k fun _ => Core.cold
  let lost (e : Nat × Word64) : Bool :=
    isCor e.1 && k (e.1 / 2 ^ 34) && e.1 % 256 ≠ Reg.SEQMM.ctorIdx && e.1 % 256 ≠ Reg.SPLIT.ctorIdx
  let split (e : Nat × Word64) : Nat × Word64 := if isCor e.1 && k (e.1 / 2 ^ 34) then coldReg e else e
  let s := { s with
    regs := (s.regs.filter fun e => !(lost e)).map split,
    mem := s.mem.filter fun e => !(inK e.1),
    pois := s.pois.filter fun i => !(inK (4 * i)),
    m := { s.m with lerr := s.m.lerr.filter fun e => !(inK (4 * e.1)),
                    eerr := s.m.eerr.filter fun e => !(k (e.1 / 2 ^ 20)),
                    cerr := s.m.cerr.filter fun e => !(k (e.1 / 2 ^ 23)) } }
  ((List.range 64).filter k).foldl (fun s k => (s.wf .PSTATE k 0 1 0 3).wr .HOLD k 0 (BitVec.allOnes 64)) s

/-- COLD_ENTRY (R484, R494): every core of a cluster that is to be Cold is idle. -/
def execColdEntry (k : Nat) (s : State) : Host.Outcome State Fault Refusal :=
  .next (if 64 ≤ k ∨ s.clu k = 3 ∨ (!(s.coldBit k) ∧ s.rf .PSTATE k 0 2 2 = 0)
        ∨ !(allCores k fun g => s.idle g && !(s.core g).waking) then s
    else s.toCold (· = k))

/-! ### Waking (R489, R493, R503) -/

/-- A cluster may wake: it is not held Cold, and the module is not in standby. -/
def State.mayWake (s : State) (k : Nat) : Bool :=
  !s.stby && !(s.coldBit k) && s.rf .PSTATE k 0 2 2 = 0

/-- ac from a wake event until the cluster's clock runs (R487, R489): its PLL locks, and from Cold its power returns first. -/
def lockAc (clu : Nat) : Nat := if clu = 2 then 1600 else if clu = 3 then 3200 else 0

/-- A cluster wakes; its cores stay in Hold; its clock runs from the lock of its PLL. From Cold its count restarts at zero, and the
re-initialisation zeroes planes and edge files (R115, R487, R489, R493). -/
def State.wakeCluster (s : State) (k : Nat) : State :=
  let cold : Bool := s.clu k = 3
  let s := { s with pwr := { s.pwr with lock := Sparse.set 0 s.pwr.lock k (lockAc (s.clu k)) } }
  let s := if cold then s.wn .FCNT k 0 0 else s
  (s.modClusters (· = k) fun c =>
    let c : Core := { c with power := 1 }
    if cold then c.startZero else c).wf .PSTATE k 0 1 0 0

/-- WAKE_EVENT (R489, R490): a wake event for core `g`; a quarantined core stays in Hold. -/
def execWakeEvent (g : Nat) (s : State) : Host.Outcome State Fault Refusal :=
  let up (s : State) : State := if s.inSvc g then s.modCore g fun c => { c with waking := true } else s
  .next (if 4096 ≤ g ∨ (s.core g).power = 0 ∨ (s.core g).waking then s
    else if s.clu (g / 64) = 0 then up s
    else if !(s.mayWake (g / 64)) then s
    else up (s.wakeCluster (g / 64)))

/-- WAKE_COMPLETE (R489, R490, R503): the clock runs, the zeroing of a re-initialisation is over, and the core runs unless it was
quarantined on its way; what a shake-out marked is zeroed. -/
def execWakeComplete (g : Nat) (s : State) : Host.Outcome State Fault Refusal :=
  .next (if !(s.core g).waking then s
    else if !(s.inSvc g) then s.modCore g fun c => { c with waking := false }
    else
      let mk := (s.core g).marked
      let s := { s with pwr := { s.pwr with lock := Sparse.set 0 s.pwr.lock (g / 64) 0 } }
      let s := (s.modCore g fun c => Core.endZero { c with power := 0, waking := false, marked := 0 }).wf .HOLD (g / 64) 0
        (g % 64) (g % 64) 0
      let s := if bit mk 0 = 1 then s.zeroPart g false else s
      if bit mk 1 = 1 then s.zeroPart g true else s)

/-! ### Module standby (R495, R496) -/

/-- The dirty lines of every LLC go to their bank queues, read out with their codes (R210), and the caches are clean. -/
def State.cleanLlc (s : State) : State :=
  let ds := s.m.llc.filter fun e => e.dirty
  let s := ds.foldl (fun s e => (s.sectorCheck e (List.range 4) false).bankPush e.line true) s
  { s with m := { s.m with llc := s.m.llc.map fun e => { e with dirty := false } } }

/-- Steps 1 to 3 of R495. -/
def State.enterStandby (s : State) : State := (State.toCold { s with stby := true } fun _ => true).cleanLlc

/-- Offset of PWR_CMD. -/
def pwrCmdOff : Nat := 0x0020_0000

/-- What keeps the module out of standby (R495): 1 groups, 2 descriptors, 3 DMA entries and engines. -/
def State.busyWhy (s : State) : Option Nat :=
  let runs (e : Nat × Option RingSt) : Bool := match e.2 with
    | some r => r.run
    | none => false
  let live (e : Nat × Option LayerSt) : Bool := match e.2 with
    | some l => !l.started.isEmpty && !(l.parts.contains 0 && l.parts.contains 1) && !l.late
    | none => false
  if s.cores.any fun e => !e.2.groups.isEmpty then some 1
  else if s.queue.any fun e => e.2.hand.isSome || !e.2.prog.isEmpty then some 2
  else if (s.cores.any fun e => !e.2.dma.isEmpty) || !s.ladle.hold.isEmpty || !s.ladle.outq.isEmpty
      || !s.ladle.marks.isEmpty || s.ladle.layers.any live || s.runner.ctx.any runs || !s.runner.sends.isEmpty then some 3
  else none

/-- PWR_CMD_STANDBY (R495, R507). -/
def execPwrCmdStandby (s : State) : Host.Outcome State Fault Refusal :=
  .next (if s.stby ∨ !s.booted then s
    else
      match s.busyWhy with
      | some w => s.refuseCmd pwrCmdOff w
      | none => s.enterStandby)

/-- ROTA_STOP (R495): the channel's write-backs are complete and its rota has ended: it stops and its packages enter self-refresh;
after the last channel STBY is set. -/
def execRotaStop (c : Nat) (s : State) : Host.Outcome State Fault Refusal :=
  .next (if 384 ≤ c ∨ !s.stby ∨ s.pwr.leaving ∨ NSet.has s.m.selfref c ∨ Sparse.get 0 s.m.slot c ≠ 0
        ∨ !((List.range 32).all fun b => (Sparse.get [] s.m.bank (32 * c + b)).isEmpty) then s
    else
      let l := NSet.add c s.m.selfref
      let s := { s with m := { s.m with selfref := l } }
      if l.length = 384 then s.wf .PSTAT 0 0 16 16 1 else s)

/-- STANDBY_EXIT (R496, R499): a CXL.mem request, a doorbell write, a management access to DRAM; not after a trip. -/
def execStandbyExit (s : State) : Host.Outcome State Fault Refusal := .next s.standbyEnds

/-- A rota that restarts (R496): its next slot is slot 0 of the next rota number. -/
def State.rotaNext (s : State) (c : Nat) : State :=
  let s := { s with m := { s.m with slot := Sparse.set 0 s.m.slot c 0 } }
  s.wn .ROTA c 0 ((s.rf .ROTA c 0 31 6 + 1) % 2 ^ 26 * 64)

/-- ROTA_RESTART (R496): every rota restarts, STBY clears, and the host requests held are served in their order. -/
def execRotaRestart (s : State) : Host.Outcome State Fault Refusal :=
  .next (if !s.pwr.leaving then s
    else
      let s := (List.range 384).foldl State.rotaNext { s with stby := false, pwr := { s.pwr with leaving := false } }
      let s := (s.wf .PSTAT 0 0 16 16 0).wf .PSTAT 0 0 18 18 0
      s.cxlHeld.foldl State.serveHeld { s with cxlHeld := [] })

/-- PWR_CMD_WAKE (R489, R496, R499, R507): every cluster wakes, and standby ends; after a trip only while the hottest die is
below WARN, after a leak not at all. -/
def execPwrCmdWake (s : State) : Host.Outcome State Fault Refusal :=
  .next (if s.rf .PSTAT 0 0 18 18 = 1 ∧ (s.rf .THERM 0 0 7 0 ≤ s.rf .PTEMP 0 0 7 0 ∨ s.rf .PINS 0 0 31 31 = 1) then s
    else
      let s := if s.stby ∧ !s.pwr.leaving then s.leaveStandby else s
      let up (k : Nat) : Bool := !(s.coldBit k) && s.rf .PSTATE k 0 2 2 = 0 && s.clu k ≠ 0
      ((List.range 64).filter up).foldl State.wakeCluster s)

/-! ### The power window (R497, R498) -/

/-- Effective level (R498): the static level is used up to 72. -/
def State.levelOf (s : State) (d : Nat) : Nat := min 72 (max (s.rf .CAP 0 0 6 0) d)

/-- AUTO, THERM and DHOT together. -/
def Pwr.dyn (p : Pwr) : Nat := p.auto + p.therm + p.dhot

/-- PWR_STAT.LEVEL follows the terms and PWR_CAP. -/
def State.setLevel (s : State) : State := s.wf .PSTAT 0 0 6 0 (s.levelOf s.pwr.dyn)

/-- The hottest die, the lowest of equal ones, and its temperature. -/
def hottest (temps : List Nat) : Nat × Nat :=
  (List.range temps.length).foldl (fun b i => if b.2 < temps.getD i 0 then (i, temps.getD i 0) else b) (0, temps.getD 0 0)

/-- POWER_WINDOW_END (R498, R507): measurements, the three terms, the level, CAPPED. -/
def execPowerWindowEnd (watts volts : Nat) (temps : List Nat) (s : State) : Host.Outcome State Fault Refusal :=
  .next (if temps.length ≠ 14 ∨ !s.booted then s
    else
      let h := hottest temps
      let s := (s.wn .MEAS 0 0 (watts % 2 ^ 12 + volts % 2 ^ 10 * 2 ^ 16)).wn .PTEMP 0 0 (h.2 % 256 + h.1 * 256)
      let lim := min 2700 (s.rf .LIMIT 0 0 11 0)
      let warn := s.rf .THERM 0 0 7 0
      let p := s.pwr
      let auto := if lim = 0 then 0 else if lim < watts then min 72 (p.auto + 8)
        else if 100 * watts < 95 * lim then p.auto - 2 else p.auto
      let therm := if warn ≤ h.2 then min 72 (p.therm + 8) else if h.2 + 5 < warn then p.therm - 2 else p.therm
      let dhot := if (List.range 384).any fun c => s.rf .TEMP c 0 8 8 = 1 then 16 else 0
      let was := s.rf .PSTAT 0 0 17 17
      let s := { s with pwr := { p with auto := auto, therm := therm, dhot := dhot, temps := temps } }
      let on := if 0 < s.pwr.dyn then 1 else 0
      let s := s.setLevel.wf .PSTAT 0 0 17 17 on
      if was < on then s.record 2 0x0021 10 0 none (s.rn .PSTAT 0 0) (s.rn .MEAS 0 0) 0 else s)

/-! ### Trips (R499, R532) -/

/-- FAULT_N (R520): low while a boot has stopped, after a trip, in the input event sequence; a module reset holds it. -/
def State.faultPin (s : State) : State :=
  if s.pins.mrst ≠ 0 then s
  else
    let low : Bool := s.rf .BOOT 0 0 5 5 = 1 || s.rf .PSTAT 0 0 18 18 = 1 || s.pins.event ≠ 0 || s.pins.cut
    { s with pins := { s.pins with faultLow := low } }

/-- A flask stops on a trip as on a job abort (R449, R499). -/
def State.tripFlask (s : State) (f : Nat) : State :=
  let s := if s.jobOk f then s.jobEnd f else s
  let s := if s.rf .QSTAT f 0 2 1 ≠ 0 then s
    else ((s.wn .FAULT0 f 0 (8 * 2 ^ 48)).wn .FAULT1 f 0 0).stopFlask f 8 false
  (s.dropRemote f).dropRequests f false

/-- The trip (R499): flasks stop, groups go, standby is entered, TRIP is set, a fatal record is made. -/
def State.trip (s : State) (kind : Nat) : State :=
  let s := ((List.range s.nf).foldl State.tripFlask s).enterStandby.wf .PSTAT 0 0 18 18 1
  let s := State.faultPin { s with pwr := { s.pwr with leaving := false }, pins := { s.pins with thermtrip := true } }
  s.record 4 0x0006 10 0 none kind (s.rn .PTEMP 0 0) 0

/-- THERMAL_TRIP (R499, R516): a die at or above TRIP, or a channel that has read HOT in 16 consecutive status reads. -/
def execThermalTrip (dram : Bool) (temp : Nat) (s : State) : Host.Outcome State Fault Refusal :=
  .next (if !s.booted ∨ s.pins.event ≠ 0 ∨ s.pins.cut ∨ s.rf .PSTAT 0 0 18 18 = 1 then s
    else if dram then
      if s.m.hot.any fun e => 16 ≤ e.2 then s.trip 2 else s
    else if s.rf .THERM 0 0 15 8 ≤ temp then s.trip 1 else s)

/-- LEAK_DETECTED (R532): LEAK_N goes low, LEAK is set, the trip runs. -/
def execLeakDetected (s : State) : Host.Outcome State Fault Refusal :=
  .next (if s.pins.event ≠ 0 ∨ s.pins.por then s
    else
      let s := State.wf { s with pins := { s.pins with leakLow := true } } .PINS 0 0 31 31 1
      if s.pins.cut then s else s.trip 3)

end Sys2Proof.Machine
end

