-- ==== Sys2Proof/Machine/Boot.lean ====
section
/-! DEFINITION. The pattern image and boot (R459 to R469, R480): slot headers, sections, consistency checks, and the stages
with what each leaves. -/

namespace Sys2Proof.Machine

/-! ### SPI NOR and slots (R460, R461, R463) -/

/-- Bytes of the SPI NOR: an erased byte reads 0xFF. -/
def State.norAt (s : State) (a n : Nat) : List Byte := (List.range n).map fun i => Sparse.get 0xFF s.mgt.nor (a + i)

/-- A little-endian number in the SPI NOR. -/
def State.norLe (s : State) (a n : Nat) : Nat := leNat (s.norAt a n)

/-- First byte of an image slot. -/
def slotBase (k : Nat) : Nat := if k = 0 then 0 else 0x0100_0000

/-- A slot is a candidate (R463). -/
def State.candidate (s : State) (k : Nat) : Bool :=
  let b := slotBase k
  s.norAt b 4 = [0x56, 0x50, 0x41, 0x54] && s.norLe (b + 4) 2 = 1 && s.rn .MINVER 0 0 ≤ s.norLe (b + 8) 4
    && 0x1000 ≤ s.norLe (b + 0x10) 4 && s.norLe (b + 0x10) 4 ≤ 4194304
    && Config.shake256 (s.norAt (b + 0x18) 68) = Config.ownerHash

/-- The candidates in the order boot tries them: the higher VERSION first, slot 0 of equal ones. -/
def State.candidates (s : State) : List Nat :=
  let order := if s.norLe (slotBase 0 + 8) 4 < s.norLe (slotBase 1 + 8) 4 then [1, 0] else [0, 1]
  order.filter s.candidate

/-- The signed message of a slot (R462): header bytes 0 to 0xFF, then the body. -/
def State.signedMsg (s : State) (k : Nat) : List Byte :=
  let b := slotBase k
  s.norAt b 0x100 ++ s.norAt (b + 0x1000) (s.norLe (b + 0x10) 4 - 0x1000)

/-! ### Sections (R464) -/

/-- Walk `n` sections from offset `o` of a slot: TYPE, reserved header bits, offset, bytes with the header, of each. -/
def State.sectionsAt (s : State) : Nat → Nat → List (Nat × Nat × Nat × Nat)
  | 0, _ => []
  | n + 1, o =>
    let h := s.norLe o 8
    let len := fld h 63 32
    (fld h 15 0, fld h 31 16, o, len) :: s.sectionsAt n (o + 8 + roundUp len 8)

/-- The sections of a slot. -/
def State.sections (s : State) (k : Nat) : List (Nat × Nat × Nat × Nat) := s.sectionsAt 9 (slotBase k + 0x1000)

/-- The non-firmware sections of a slot with their headers, in image order (R481). -/
def State.patBytes (s : State) (k : Nat) : List Byte :=
  (((s.sections k).filter fun e => e.1 ≠ 2).map fun e => s.norAt e.2.2.1 (8 + roundUp e.2.2.2 8)).flatten

/-- Bytes as a finite map that lists no zero. -/
def toSparse (bs : List Byte) : Sparse Byte :=
  ((List.range bs.length).zip bs).filter fun e => e.2 ≠ 0

/-- The state with a slot's tables in place. -/
def State.withPat (s : State) (k : Nat) : State := { s with pat := toSparse (s.patBytes k) }

/-! ### Consistency checks (R204, R376, R385, R454, R467). Each reads the tables in place. -/

/-- The sections are the nine types in order, of the sizes of R464, with headers and padding clean. -/
def State.formOk (s : State) (k : Nat) : Bool :=
  let es := s.sections k
  let nf := ((es.find? fun e => e.1 = 3).map fun e => e.2.2.2 / 2048).getD 0
  let size (ty : Nat) : Nat → Bool := fun n =>
    match ty with
    | 1 => n = 80
    | 2 => n ≤ 0x20_0000
    | 3 => n = nf * 2048
    | 4 => n = 3072 * 8
    | 5 => n = 4096
    | 6 => n = 16 * 32
    | 7 => n = nf * 512
    | 8 => n = 32
    | _ => n = 256 * 16
  let b := slotBase k
  es.map (·.1) = (List.range 9).map (· + 1) && es.all (fun e => e.2.1 = 0 && size e.1 e.2.2.2)
    && es.all (fun e => (s.norAt (e.2.2.1 + 8 + e.2.2.2) (roundUp e.2.2.2 8 - e.2.2.2)).all (· = 0))
    && 1 ≤ nf && nf ≤ 16 && s.norLe (b + 0x14) 2 = 9 && s.norLe (b + 6) 2 = 0 && s.norLe (b + 0x16) 2 = 0
    && (s.norAt (b + 0x5C) 0xA4).all (· = 0) && (s.norAt (b + 0xC04) 0x3FC).all (· = 0)
    && (es.all fun e => e.2.2.1 + 8 + roundUp e.2.2.2 8 ≤ b + s.norLe (b + 0x10) 4)
    && (s.patBytes k).length ≤ 0xF_F000

/-- Regions that `n` bytes at a DRAM offset touch. -/
def regionsOf (a n : Nat) : List Nat :=
  if n = 0 then [] else (List.range ((a + n - 1) / 2 ^ 30 - a / 2 ^ 30 + 1)).map (a / 2 ^ 30 + ·)

/-- Two ranges of bytes overlap. -/
def overlap (a b : Nat × Nat) : Bool := a.1 < b.1 + b.2 && b.1 < a.1 + a.2

/-- Context slots of a flask are 896 KiB for a host, 128 KiB for a guest (R452). -/
def State.ctxSlot (s : State) (f : Nat) : Nat := (if s.isGuest f then 128 else 896) * 1024

/-- The context area of a flask: one slot for each core of its map. -/
def State.ctxArea (s : State) (f : Nat) : Nat × Nat :=
  (fld (s.flk f 8 8) 35 0 * 4096, ((List.range 4096).filter fun g => s.inMap f g).length * s.ctxSlot f)

/-- The journal of a flask: two halves (R410); empty where there is none. -/
def State.journalArea (s : State) (f : Nat) : Nat × Nat :=
  let j := s.flk f 0x10 8
  (fld j 35 0 * 4096, if fld j 35 0 = 0 then 0 else 2 * (fld j 51 36 * 2 ^ 20))

/-- Reserved bits of the flask records are zero. -/
def State.flaskForm (s : State) (f : Nat) : Bool :=
  let zero (o n : Nat) : Bool := s.flk f o n = 0
  let k := s.flk f 0 8
  fld k 15 1 = 0 && fld k 39 38 = 0 && fld k 63 44 = 0 && fld (s.flk f 8 8) 63 36 = 0 && fld (s.flk f 0x10 8) 63 52 = 0
    && s.nwin f ≤ 32 && 1 ≤ s.nhwin f && s.nhwin f ≤ 8
    && (List.range 32).all (fun w => fld (s.flk f (0x100 + w * 16) 8) 59 36 = 0 && bit (s.flk f (0x100 + w * 16) 8) 63 = 0
        && fld (s.flk f (0x108 + w * 16) 8) 63 36 = 0)
    && zero 0x18 0xE8 && zero 0x380 0x80 && zero 0x600 0x200

/-- Windows of a flask lie in DRAM, in regions it owns or that are shared read-only to it; the OWNER of a shared region gains no
write access (R465). -/
def State.windowsOk (s : State) (f : Nat) : Bool :=
  (List.range (s.nwin f)).all fun w =>
    let b := s.window f w
    b.1 + b.2.1 ≤ dramEnd && (regionsOf b.1 b.2.1).all fun r =>
      let e := s.region r
      bit e 4 = 1 && (if bit e 9 = 1 then bit b.2.2 1 = 0 && bit b.2.2 2 = 0 else fld e 3 0 = f)

/-- Host windows of a flask each lie in one of its memory windows. -/
def State.hostWindowsOk (s : State) (f : Nat) : Bool :=
  (List.range (s.nhwin f)).all fun w =>
    let h := s.hostWin f w
    (List.range (s.nwin f)).any fun k => (s.window f k).1 ≤ h.1 && h.1 + h.2 ≤ (s.window f k).1 + (s.window f k).2.1

/-- Context areas and journals: in used regions, outside every window, not overlapping. -/
def State.areasOk (s : State) : Bool :=
  let fs := List.range s.nf
  let areas := (fs.map s.ctxArea ++ fs.map s.journalArea).filter fun a => a.2 ≠ 0
  let wins := (fs.map fun f => (List.range (s.nwin f)).map fun w => ((s.window f w).1, (s.window f w).2.1)).flatten
  areas.all (fun a => a.1 + a.2 ≤ dramEnd && (regionsOf a.1 a.2).all (fun r => bit (s.region r) 4 = 1)
      && wins.all fun w => !(overlap a w))
    && (List.range areas.length).all fun i => (List.range i).all fun j =>
        !(overlap (areas.getD i (0, 0)) (areas.getD j (0, 0)))

/-- Region records: reserved bits; shadowed pairs; PERCH sets (R204, R385). -/
def State.regionsOk (s : State) : Bool :=
  let md (r : Nat) : Nat := fld (s.region r) 6 5
  let pairOk (r : Nat) : Bool :=
    let e := s.region r
    let q := fld e 22 11
    bit e 10 = 0 || (q < 3072 && q ≠ r && bit (s.region q) 10 = 1 && fld (s.region q) 22 11 = r && q % 3 = r % 3
      && md q = md r && md r ≠ 3 && fld (s.region q) 3 0 = fld e 3 0)
  let setOk (t g : Nat) : Bool :=
    let rs := (List.range 128).map fun i => 3 * 128 * t + g + 3 * i
    rs.all (fun r => md r = 3) || rs.all fun r => md r ≠ 3
  (List.range 3072).all (fun r => fld (s.region r) 63 51 = 0 && pairOk r)
    && (List.range 8).all fun t => (List.range 3).all fun g => setOk t g

/-- Core records against the guests' core maps (R454). -/
def State.coresOk (s : State) : Bool :=
  (List.range 4096).all fun g =>
    let e := s.coreRec g
    let f := s.guestOf g
    fld e 7 6 = 0 && fld e 1 0 ≠ 3 && (fld e 1 0 = 0 || (f < s.nf && s.isGuest f && s.inMap f g))
      && (List.range s.nf).all fun f => !(s.isGuest f) || !(s.inMap f g) || (fld e 1 0 ≠ 0 && s.guestOf g = f)

/-- Byte `o` of a section's content. -/
def State.secB (s : State) (ty o : Nat) : Nat := s.patB ((s.sec ty).1 + o)

/-- A word of the QUEUE section: RUN_QCFG (0) or RUN_QBASE (1) of queue `q`. -/
def State.queueRec (s : State) (q k : Nat) : Nat := s.patLe ((s.sec 9).1 + 16 * q + 8 * k) 8

/-- A host flask of the image. -/
def State.hostFlask (s : State) (f : Nat) : Bool := f < s.nf && !(s.isGuest f)

/-- Wheel entries, ring and queue owners, queue shapes (R376, R467). -/
def State.ownersOk (s : State) : Bool :=
  let wheel (p e : Nat) : Nat := s.secB 6 (32 * p + e / 2) / 16 ^ (e % 2) % 16
  let ring (c : Nat) : Bool :=
    let b := s.secB 8 c
    fld b 6 4 = 0 && (bit b 7 = 0 || s.hostFlask (fld b 3 0))
  let queue (q : Nat) : Bool :=
    let w := s.queueRec q 0
    let v := s.queueRec (fld w 25 18) 0
    let b := s.queueRec q 1
    fld w 17 0 = 0 && fld b 6 0 = 0 && fld b 63 48 = 0
      && (bit w 63 = 0 || (s.hostFlask (fld w 60 57) && fld w 50 39 ≠ 0 && fld w 38 26 ≠ 0 && fld w 38 26 ≤ 4096
        && (bit w 62 = 1 || bit w 61 = 1
          || (bit v 63 = 1 && bit v 62 = 1 && bit v 61 = 1 && fld w 56 51 ≤ fld v 56 51))))
  (List.range 16).all (fun p => (List.range 64).all fun e => wheel p e < s.nf)
    && (List.range 32).all ring && (List.range 256).all queue

/-- SCALE entries: reserved bits, and none for a guest. -/
def State.scaleOk (s : State) : Bool :=
  (List.range s.nf).all fun f => (List.range 64).all fun c =>
    let w := s.patLe ((s.sec 7).1 + 512 * f + 8 * c) 8
    fld w 35 0 = 0 && (!(s.isGuest f) || w = 0)

/-- Threshold bytes of the MODULE section with the reset values in place of zeros: WARN, TRIP (R464, R467). -/
def State.thresholds (s : State) : Nat × Nat :=
  let w := s.secB 1 2
  let t := s.secB 1 3
  (if w = 0 then 0x5F else w, if t = 0 then 0x6E else t)

/-- The MODULE section: reserved bytes, BIN, thresholds. -/
def State.moduleOk (s : State) : Bool :=
  s.secB 1 0 < 3 && s.secB 1 1 = 0 && (List.range 4).all (fun i => s.secB 1 (4 + i) = 0 && s.secB 1 (76 + i) = 0)
    && s.thresholds.1 < s.thresholds.2 && s.thresholds.2 ≤ 120

/-- The image of a slot passes the consistency checks. -/
def State.consistent (s : State) (k : Nat) : Bool :=
  s.formOk k &&
    (let t := s.withPat k
     (List.range t.nf).all (fun f => t.flaskForm f && t.windowsOk f && t.hostWindowsOk f)
       && t.areasOk && t.regionsOk && t.coresOk && t.ownersOk && t.scaleOk && t.moduleOk)

/-! ### Stages (R468, R480) -/

/-- Boot runs: the module is supplied, in no reset, and boot has neither stopped nor ended. -/
def State.booting (s : State) : Bool :=
  s.pins.alive && !s.pins.por && s.pins.mrst = 0 && s.pins.event = 0 && !s.pins.cut && !s.stby
    && s.rf .BOOT 0 0 5 5 = 0 && s.rf .BOOT 0 0 6 6 = 0 && s.mgt.boot.at' ≠ 0

/-- MGT_BOOT.STAGE after the serial stage `n` has ended; stage 1 itself takes 16 ac (R468), which time counts. -/
def stageAfter (n : Nat) (six : Bool) : Nat :=
  if n = 5 then (if six then 7 else 6) else if 7 ≤ n then min 9 (n + 1) else n + 1

/-- The boot state replaced, STAGE with it. -/
def State.setBoot (s : State) (b : Boot) : State :=
  State.wf { s with mgt := { s.mgt with boot := b } } .BOOT 0 0 3 0 (stageAfter b.at' b.six)

/-- Boot stops (R469): FATAL and CAUSE are set, a fatal record is made, FAULT_N goes low, the CXL link is down. -/
def State.bootStop (s : State) (cause : Nat) : State :=
  let s := ((s.linkDown.wf .BOOT 0 0 5 5 1).wf .BOOT 0 0 23 20 cause).faultPin
  s.record 4 0x0002 0 0 none (s.rn .BOOT 0 0) 0 0

/-- The candidate being tried fails: the other is tried from stage 4, or boot stops (R468, R480). -/
def State.nextCand (s : State) : State :=
  let b := s.mgt.boot
  match b.cands.tail with
  | [] => s.bootStop (if b.verified then 4 else 1)
  | l => s.setBoot { b with cands := l, fell := true, at' := 3 }

/-- The MAC address (R535). -/
def macAddr : Nat := 0x02 * 2 ^ 40 + Config.serial.toNat % 2 ^ 40

/-- Boot begins at ac 0 (R468 stage 1): BOOTNUM advances; the MAC address, the slot straps and KIND are set. -/
def State.startBoot (s : State) (kind : Nat) : State :=
  let s := s.addSat .BOOTNUM 0 0 32 1
  let s := (s.wf .NET 0 0 47 0 macAddr).wf .PINS 0 0 28 24 Config.slotStraps.toNat
  State.faultPin (((s.wf .CAUSE 0 0 3 0 kind).setBoot { Boot.init with at' := 1, start := s.acnt }).wf .BOOT 0 0 3 0 1)

/-- PARAMETER_TABLE_READ (R460, R468 stage 2): `ok` says that the device has the features required. -/
def execParameterTableRead (ok : Bool) (s : State) : Host.Outcome State Fault Refusal :=
  .next (if !s.booting || s.mgt.boot.at' ≠ 1 then s
    else if ok then s.setBoot { s.mgt.boot with at' := 2 } else s.bootStop 2)

/-- SLOT_HEADERS_READ (R463, R468 stage 3). -/
def execSlotHeadersRead (s : State) : Host.Outcome State Fault Refusal :=
  .next (if !s.booting || s.mgt.boot.at' ≠ 2 then s
    else
      match s.candidates with
      | [] => s.bootStop 1
      | l => s.setBoot { s.mgt.boot with cands := l, at' := 3 })

/-- IMAGE_READ (R468 stage 4): the candidate is read and hashed. -/
def execImageRead (s : State) : Host.Outcome State Fault Refusal :=
  .next (if !s.booting || s.mgt.boot.at' ≠ 3 then s
    else s.setBoot { s.mgt.boot with at' := 4, hash := Config.shake256 (s.signedMsg (s.mgt.boot.cands.headD 0)) })

/-- SIGNATURE_VERIFY (R462, R468 stage 5). -/
def execSignatureVerify (s : State) : Host.Outcome State Fault Refusal :=
  .next (if !s.booting || s.mgt.boot.at' ≠ 4 then s
    else
      let k := s.mgt.boot.cands.headD 0
      let b := slotBase k
      if Config.xmssVerify (s.norAt (b + 0x18) 68) (s.signedMsg k) (s.norAt (b + 0x100) 2820) then
        s.setBoot { s.mgt.boot with at' := 5, verified := true }
      else s.nextCand)

/-- PLL_LOCK_AND_LINK_TRAINING (R468 stage 6, R485, R115): LOCKED and the 24 delay settings are set; `failed` are the cores that
failed their test. The arrays of every cluster that is not Cold are being zeroed. -/
def execPllLockAndLinkTraining (pllOk linksOk : Bool) (taps failed : List Nat) (s : State) :
    Host.Outcome State Fault Refusal :=
  .next (if !s.booting || s.mgt.boot.six then s
    else if !pllOk || !linksOk then s.bootStop 3
    else
      let s := (List.range 24).foldl (fun s x => s.wn .XPHASE 0 x (256 + taps.getD x 0 % 256)) (s.wf .CLKSTAT 0 0 0 0 1)
      let s := s.modClusters (fun k => s.clu k ≠ 3) Core.startZero
      s.setBoot { s.mgt.boot with six := true, failed := failed })

/-- LPDDR6_TRAINING (R468 stage 7): DRAM is trained at the image's bin, and the consistency checks are taken. -/
def execLpddr6Training (ok : Bool) (s : State) : Host.Outcome State Fault Refusal :=
  .next (if !s.booting || s.mgt.boot.at' ≠ 5 || !s.mgt.boot.six then s
    else if !ok then s.bootStop 5
    else if s.consistent (s.mgt.boot.cands.headD 0) then s.setBoot { s.mgt.boot with at' := 7 }
    else s.nextCand)

/-- DRAM_ZEROING (R468 stage 8): every DRAM line is zero with valid codewords. -/
def execDramZeroing (s : State) : Host.Outcome State Fault Refusal :=
  .next (if !s.booting || s.mgt.boot.at' ≠ 7 then s
    else
      State.setBoot { s with
        mem := s.mem.filter fun e => dramEnd ≤ e.1
        pois := s.pois.filter fun i => dramEnd ≤ 4 * i
        m := { s.m with dpois := [], derr := [], plist := [] } } { s.mgt.boot with at' := 8 })

/-- The queue tables of the image (R382). -/
def State.loadQueue (s : State) (q : Nat) : State :=
  (s.wn .RQCFG 0 q (s.queueRec q 0)).wn .RQBASE 0 q (s.queueRec q 1)

/-- Ring contexts of the image. -/
def State.loadRing (s : State) (c : Nat) : State :=
  let b := s.secB 8 c
  (s.wf .CTXOWN 0 (c / 8) (4 * (c % 8) + 3) (4 * (c % 8)) (fld b 3 0)).wf .CTXEN 0 0 c c (bit b 7)

/-- Wheel register `i` of port `p` (R344). -/
def State.loadWheel (s : State) (e : Nat) : State :=
  s.wn .WHEEL (e / 8) (e % 8) (s.patLe ((s.sec 6).1 + 32 * (e / 8) + 4 * (e % 8)) 4)

/-- Registers of a flask copied from its record (R423, R457); a journal of base 0 or of no size is no journal (R466). -/
def State.loadFlask (s : State) (f : Nat) : State :=
  let j := s.flk f 0x10 8
  (s.wn .CTX f 0 (fld (s.flk f 8 8) 35 0 * 4096 + s.ctxSlot f / 1024 * 2 ^ 48)).wn .JRNL f 0
    (if fld j 35 0 = 0 ∨ fld j 51 36 = 0 then 0 else fld j 35 0 * 4096 + fld j 51 36 * 2 ^ 48)

/-- REGISTER_LOAD (R463, R468 stage 9, R480): the tables and the registers copied from them; cores that failed their test go
out of service; boot ends, the zeroing of stage 6 long over. -/
def execRegisterLoad (s : State) : Host.Outcome State Fault Refusal :=
  .next (if !s.booting || s.mgt.boot.at' ≠ 8 then s
    else
      let b := s.mgt.boot
      let k := b.cands.headD 0
      let base := slotBase k
      let s := s.withPat k
      let s := { s with mgt := { s.mgt with hdr := s.norAt base 0x100 }, pins := { s.pins with ready := true } }
      let s := s.wn .IMGVER 0 0 (s.norLe (base + 8) 4)
      let s := (List.range 4).foldl (fun s i => s.wn .IMGHASH 0 i (b.hash.toNat / 2 ^ (64 * i))) s
      let s := s.wn .MINVER 0 0 (max (s.rn .MINVER 0 0) (s.norLe (base + 0xC) 4))
      let s := s.wn .THERM 0 0 (s.thresholds.1 + s.thresholds.2 * 256)
      let s := (List.range 8).foldl (fun s m => s.wn .MSDCFG m 0 (m + s.secB 1 0 * 8)) s
      let s := (List.range 128).foldl State.loadWheel s
      let s := (List.range 4096).foldl (fun s g => s.wf .SPLIT g 0 3 2 (fld (s.coreRec g) 1 0)) s
      let s := (List.range s.nf).foldl State.loadFlask s
      let s := (List.range 32).foldl State.loadRing s
      let s := (List.range 256).foldl State.loadQueue s
      let s := s.wf .LDSTAT 0 0 4 0 s.nf
      let s := b.failed.foldl (fun s g => s.wf .QMAP 0 (g / 64) (g % 64) (g % 64) 0) s
      let s := { s with cores := s.cores.map fun (e : Nat × Core) => (e.1, e.2.endZero) }
      ((s.setBoot { b with at' := 9 }).wf .BOOT 0 0 8 6 (1 + k * 2 + (if b.fell then 4 else 0))).faultPin)

end Sys2Proof.Machine
end

