-- ==== Sys2Proof/Machine/Reset.lean ====
section
/-! DEFINITION. Resets and supplies (R484, R500 to R504, R508, R511 to R516, R521, R531): power-on and module reset, the input
event sequence, the hardware shutdown. -/

namespace Sys2Proof.Machine

/-! ### What each reset keeps (R459, R501, R504, R515) -/

/-- Registers some of which a reset keeps, by name. -/
def State.keepRegs (s : State) (rs : List Reg) : Sparse Word64 :=
  s.regs.filter fun e => rs.any fun r => e.1 % 256 = r.ctorIdx

/-- Cables stay in their cages; a cage whose supply was cut stays cut (R527). -/
def Port.unpowered (p : Port) : Port :=
  let hot : Bool := p.cable.any fun c => c.hot
  { Port.init with cable := p.cable, cut := p.cut, held := p.cut || hot }

/-- The one-way stores (R459). -/
def oneWay : List Reg := [.MINVER, .BOOTNUM, .IDCTR]

/-- Registers of the ERR block, and those of the management controller that only power-on reset clears (R501, R549,
R550). -/
def errRegs : List Reg :=
  [.QMAP, .STRIKE, .ERRCTL, .RSEQ, .RACK, .RDROP, .LSCORR, .CCCORR, .NET, .TELEM]

/-- Registers of the always-on domain (R504, R515). -/
def alwaysOn : List Reg :=
  oneWay ++ errRegs ++ [.BOOT, .IMGVER, .JSEQ, .IMGHASH, .SESS, .CLKSTAT, .XPHASE, .PSTAT, .COLD, .IDLE, .CAP, .LIMIT, .MEAS,
    .THERM, .PTEMP, .PINS, .CAUSE]

/-- The module without what its supply rails held: registers `rs` stay, and what lies outside it: commands waiting, SPI NOR,
cables, pins; the outputs shown. -/
def State.lost (s : State) (rs : List Reg) : State :=
  let pinBits : Word64 := BitVec.ofNat 64 (s.rn .PINS 0 0 % 2 ^ 16 + s.rf .PINS 0 0 30 30 * 2 ^ 30)
  let t := { State.reset with
    pending := s.pending, regs := s.keepRegs rs, out := s.out, freeCtr := s.freeCtr, nextId := s.nextId,
    fab := { State.reset.fab with ports := s.fab.ports.map Port.unpowered },
    pins := { s.pins with ready := false }, mgt := { State.reset.mgt with nor := s.mgt.nor } }
  if rs.contains .PINS then t else t.wr .PINS 0 0 pinBits

/-- Power-on reset asserted (R500, R504). -/
def State.porState (s : State) (alive : Bool) : State :=
  let s := s.lost oneWay
  { s with pins := { s.pins with alive := alive, por := true, rising := false, event := 0, cut := false, mrst := 0,
                                 thermtrip := false, faultLow := false, leakLow := false } }

/-- Clusters that a module reset leaves Cold (R484, R502): those that are, and those whose PLL has lost lock, with PLLF, until
power-on reset (log entry 70). -/
def State.stayCold (s t : State) : State :=
  let lost (k : Nat) : Bool := s.rf .PSTATE k 0 2 2 = 1
  let ks := (List.range 64).filter fun k => s.clu k = 3 || lost k
  if ks = [] then t
  else (ks.filter lost).foldl (fun t k => t.wf .PSTATE k 0 2 2 1) (t.toCold ks.contains)

/-- Module reset asserted (R500, R501, R504, R521): `kind` is what RST_CAUSE.KIND will read. A standby entered for a leak
goes on (R532); a Cold cluster is not woken (R502). The ports say so first (R332), unless it is the crystal that stopped. -/
def State.moduleReset (s : State) (kind : Nat) : State :=
  let s := if kind = 2 then s else (List.range 16).foldl State.farewell s
  let leak : Bool := s.rf .PINS 0 0 31 31 = 1
  let count := s.rf .CAUSE 0 0 31 16
  let t := s.lost (oneWay ++ errRegs)
  let t := { t with
    records := s.records, acnt := s.acnt, stby := leak && s.stby,
    m := if leak then { t.m with selfref := s.m.selfref } else t.m,
    pins := { t.pins with mrst := kind },
    mgt := { t.mgt with sess := s.mgt.sess, frags := s.mgt.frags, inbox := s.mgt.inbox, signing := s.mgt.signing,
                        sigIdx := s.mgt.sigIdx, sigLeft := s.mgt.sigLeft, xfer := s.mgt.xfer, i3cAddr := s.mgt.i3cAddr } }
  let t := s.stayCold (t.wf .CAUSE 0 0 31 16 count)
  if leak then (t.wf .PINS 0 0 31 31 1).wf .PSTAT 0 0 18 16 (s.rf .PSTAT 0 0 18 16) else t

/-- The rails of everything outside the always-on domain are off (R515, R531). -/
def State.railsOff (s : State) : State :=
  let t := s.lost alwaysOn
  { t with records := s.records, acnt := s.acnt, pwr := s.pwr,
           mgt := { s.mgt with installs := [], hdr := [], boot := Boot.init } }

/-- The module runs or boots: supplied, not in power-on reset, no input event, not shut down. -/
def State.powered (s : State) : Bool := s.pins.alive && !s.pins.por && s.pins.event = 0 && !s.pins.cut

/-! ### Module reset (R484, R508, R521) -/

/-- CRYSTAL_LOSS (R484): the module is held in module reset; KIND will read 0x2. -/
def execCrystalLoss (s : State) : Host.Outcome State Fault Refusal := .next (if s.powered then s.moduleReset 2 else s)

/-- RST_CMD_MODULE (R508). -/
def execRstCmdModule (s : State) : Host.Outcome State Fault Refusal :=
  .next (if s.powered && s.pins.mrst = 0 then s.moduleReset 4 else s)

/-- MODULE_RESET_PIN (R521): MRST_N has been low for 2 ac, or is seen high. -/
def execModuleResetPin (low : Bool) (s : State) : Host.Outcome State Fault Refusal :=
  .next (let s := { s with pins := { s.pins with mrstLow := low } }
    if !low || !s.powered || s.pins.mrst = 1 then s else s.moduleReset 3)

/-- MODULE_RESET_RELEASE (R484, R508, R521): module reset ends while MRST_N is high, and boot begins; COUNT counts it, but
for the wait at power-on reset. -/
def execModuleResetRelease (s : State) : Host.Outcome State Fault Refusal :=
  .next (if !s.powered || s.pins.mrst = 0 || s.pins.mrstLow then s
    else
      let k := s.pins.mrst
      let s := if k = 1 then s else s.addFld .CAUSE 0 0 31 16 1
      State.startBoot { s with pins := { s.pins with mrst := 0 } } k)

/-! ### Supplies and power-on reset (R512 to R515) -/

/-- ALWAYS_ON_SUPPLY_START (R512): the input reaches 20 V. -/
def execAlwaysOnSupplyStart (s : State) : Host.Outcome State Fault Refusal :=
  .next (if s.pins.alive then s else { s with pins := { s.pins with alive := true } })

/-- ALWAYS_ON_SUPPLY_LOSS (R515): the input falls below 20 V. -/
def execAlwaysOnSupplyLoss (s : State) : Host.Outcome State Fault Refusal :=
  .next (if !s.pins.alive then s
    else
      let s := s.porState false
      { s with pins := { s.pins with swOpen := false } })

/-- INPUT_RISING (R513, R515): the input reaches 44.0 V behind a closed switch, and the power-on count starts. -/
def execInputRising (s : State) : Host.Outcome State Fault Refusal :=
  .next (if !s.pins.alive || !s.pins.por || s.pins.swOpen then s else { s with pins := { s.pins with rising := true } })

/-- POWER_ON_RESET_RELEASE (R514, R521): the count has run out: boot begins, unless MRST_N is low. -/
def execPowerOnResetRelease (s : State) : Host.Outcome State Fault Refusal :=
  .next (if !s.pins.alive || !s.pins.por || !s.pins.rising then s
    else
      let s := { s with pins := { s.pins with por := false } }
      if s.pins.mrstLow then { s with pins := { s.pins with mrst := 1 } } else s.startBoot 1)

/-- The input event sequence begins (R513, R515, R516): 1 UV, 2 OV, 3 OC. Before power-on reset is released an undervoltage or
overvoltage restarts the count; a second event changes nothing. -/
def State.inputEvent (s : State) (kind : Nat) : State :=
  if !s.pins.alive || s.pins.event ≠ 0 then s
  else if s.pins.por then (if kind = 3 then s else { s with pins := { s.pins with rising := false } })
  else
    let meas := s.rn .MEAS 0 0
    let s := s.railsOff
    let s := { s with pins := { s.pins with event := kind, cut := false, mrst := 0,
                                            swOpen := s.pins.swOpen || kind ≠ 1 } }
    s.faultPin.record 4 0x0004 10 0 none kind meas 0

/-- UNDERVOLTAGE (R513, R515). -/
def execUndervoltage (s : State) : Host.Outcome State Fault Refusal := .next (s.inputEvent 1)
/-- OVERVOLTAGE (R513, R515). -/
def execOvervoltage (s : State) : Host.Outcome State Fault Refusal := .next (s.inputEvent 2)
/-- OVERCURRENT (R513, R515). -/
def execOvercurrent (s : State) : Host.Outcome State Fault Refusal := .next (s.inputEvent 3)

/-- POWER_ON_RESET_ASSERT (R515 step 4). -/
def execPowerOnResetAssert (s : State) : Host.Outcome State Fault Refusal :=
  .next (if s.pins.event = 0 then s else s.porState s.pins.alive)

/-- HARDWARE_SHUTDOWN (R516, R531): a die reaches 125 °C: rails off until power-on reset, THERMTRIP_N and FAULT_N low. -/
def execHardwareShutdown (die temp : Nat) (s : State) : Host.Outcome State Fault Refusal :=
  .next (if !s.powered || temp < 125 || 14 ≤ die then s
    else
      let s := s.railsOff
      let s := { s with pins := { s.pins with cut := true, thermtrip := true, faultLow := true, mrst := 0 } }
      s.record 4 0x0005 10 0 none die 0 0)

end Sys2Proof.Machine
end

