-- ==== Sys2Proof/Machine/Regs.lean ====
section
/-! DEFINITION. The register map (R10 to R15, R41 to R43, R433, R477, R537) and what a write of each register does. -/

namespace Sys2Proof.Machine

/-! ### The map -/

/-- The blocks of R42. -/
inductive Blk where
  | mgt | pat | pwr | clk | rst | err | cxl | flk | lnk | ldl | run | msd | chn | clu | cor
  deriving DecidableEq, Repr

/-- A register of a block's map: its offset, width in bytes, count and stride, second count and stride; entry (a, b) is
entry `a * mul + b` of the register file; `only0`: in instance 0 of the block only. -/
structure RegRow where
  r : Reg
  off : Nat
  w : Nat
  n : Nat
  st : Nat
  n2 : Nat
  st2 : Nat
  mul : Nat
  only0 : Bool
  deriving DecidableEq, Repr

/-- A single register. -/
def row (r : Reg) (off w : Nat) : RegRow := ⟨r, off, w, 1, 0, 1, 0, 1, false⟩
/-- An array of registers. -/
def rows (r : Reg) (off w n st : Nat) : RegRow := ⟨r, off, w, n, st, 1, 0, 1, false⟩
/-- An array of arrays of registers. -/
def grid (r : Reg) (off w n st n2 st2 mul : Nat) : RegRow := ⟨r, off, w, n, st, n2, st2, mul, false⟩
/-- In instance 0 only. -/
def RegRow.zero (q : RegRow) : RegRow := { q with only0 := true }

/-- Register maps: R479, R550 (MGT), R481 (PAT), R506, R533 (PWR), R505 (CLK), R508 (RST), R424, R549 (ERR), R458 (CXL),
R302, R347, R422, R456 (FLK), R340 (LNK), R379, R420 (LDL), R381 (RUN), R234 (MSD), R240 (CHN), R509 (CLU), R73, R116,
R152, R305 (COR). -/
def blkRows : Blk → List RegRow
  | .mgt => [row .BOOT 0 4, row .IMGVER 8 4, row .MINVER 0xC 4, row .BOOTNUM 0x10 4, row .IDCTR 0x18 8, row .JSEQ 0x20 8,
      rows .IMGHASH 0x40 8 4 8, rows .SERIAL 0x60 8 2 8, row .NET 0x100 8, row .TELEM 0x108 4, row .SESS 0x10C 4]
  | .pat => [rows .PATHDR 0 4 64 4, rows .PATSEC 0x1000 4 261120 4]
  | .pwr => [row .PCMD 0 4, row .PSTAT 4 4, row .COLD 8 8, row .IDLE 0x10 4, row .CAP 0x14 4, row .LIMIT 0x18 4,
      row .MEAS 0x1C 4, row .THERM 0x20 4, row .PTEMP 0x24 4, row .PINS 0x30 4]
  | .clk => [row .CLKSTAT 0 4, rows .XPHASE 0x100 4 24 4]
  | .rst => [row .CAUSE 0 4, row .RCMDR 4 4]
  | .err => [row .ERRCTL 0 4, row .RSEQ 4 4, row .RACK 8 4, row .RDROP 0xC 4, row .ERRCLR 0x10 4,
      rows .LSCORR 0x1_0000 4 4096 4, rows .CCCORR 0x2_0000 4 4096 4, rows .QMAP 0x8_0000 8 64 8,
      rows .STRIKE 0x9_0000 8 4096 8]
  | .cxl => [row .LSTAT 0 4, row .LDSTAT 4 4, row .IDESTAT 8 4]
  | .flk => [row .QCTL 0 4, row .SQBASE 8 8, row .CQBASE 0x10 8, row .SQTAIL 0x18 4, row .SQHEAD 0x1C 4, row .CQTAIL 0x20 4,
      row .CQHEAD 0x24 4, row .IMOD 0x28 4, row .QSTAT 0x2C 4, row .SHAKE 0x30 4, row .FAULT0 0x38 8, row .FAULT1 0x40 8,
      row .HERR 0x48 4, row .QCLR 0x4C 4, row .CTX 0x50 8, row .WDOG 0x4000 4, row .WDSTAT 0x4004 4, row .JOB 0x5000 8,
      row .JACT 0x5008 8, row .JCTL 0x5010 4, rows .JWBASE 0x5100 8 32 0x20, rows .JWSIZE 0x5108 8 32 0x20,
      rows .JWTGT 0x5110 8 32 0x20, row .STEP 0x6000 4, row .SHADOW 0x6004 4, row .SREP 0x6008 8, row .TBAR 0x6010 4,
      row .TBSEED 0x6018 8, row .JRNL 0x6020 8, row .EVAL 0x6028 4]
  | .lnk => [row .LNKCTL 0 4, row .LNKCMD 4 4, row .LNKSTAT 8 4, row .PEER 0xC 4, row .CABLE 0x10 4, row .FECCORR 0x18 8,
      row .REPLAY 0x20 4, row .DOWN 0x24 4, row .REJECT 0x28 4, row .DROP 0x2C 4, row .TXFLIT 0x30 8, row .RXFLIT 0x38 8,
      rows .WHEEL 0x40 4 8 4, row .LNKCLR 0x60 4, (row .NODE 0x7000 4).zero, (rows .ROUTE 0x8000 2 16384 2).zero]
  | .ldl => [(rows .GCFG 0 8 4 0x20).zero, (rows .LTAB 8 8 4 0x20).zero, rows .GSTEP 0x10 4 4 0x20, rows .GSTAT 0x14 4 4 0x20,
      (row .LWAIT 0x100 4).zero, row .CHK 0x110 4, row .NF 0x114 4, row .LATE 0x118 4, row .DUP 0x11C 4, row .STALE 0x120 4,
      row .LDLCLR 0x124 4, (grid .RANKNODE 0x1_0000 2 4 0x8000 16384 2 16384).zero, (rows .VCFG 0x200 8 4 0x40).zero,
      (rows .VSTART 0x208 4 4 0x40).zero, (rows .VLIM 0x20C 4 4 0x40).zero, (rows .VEND 0x210 8 4 0x40).zero,
      (rows .VSTAT 0x218 8 4 0x40).zero, (rows .POUR 0x220 8 4 0x40).zero, (rows .POURCMD 0x228 8 4 0x40).zero,
      (rows .RBUD 0x230 8 4 0x40).zero, (rows .RBASE 0x238 8 4 0x40).zero, (rows .HEALTH 0x300 4 4 4).zero,
      (rows .RCMD 0x310 8 4 8).zero, (grid .SPOL 0x2000 8 4 0x800 64 0x20 64).zero,
      (grid .SCALE 0x2008 8 4 0x800 64 0x20 64).zero, (grid .SHIST0 0x2010 8 4 0x800 64 0x20 64).zero,
      (grid .SHIST1 0x2018 8 4 0x800 64 0x20 64).zero, (grid .VNODE 0x4_0000 2 4 0x8000 16384 2 16384).zero]
  | .run => [(rows .CTAB 0 8 16 8).zero, (rows .CTXOWN 0x80 4 4 4).zero, (row .CTXEN 0x90 4).zero, row .RUNDUP 0xA0 4,
      row .RUNCLR 0xA4 4, (rows .RQCFG 0x1000 8 256 0x20).zero, (rows .RQBASE 0x1008 8 256 0x20).zero,
      (rows .RQPEER 0x1010 8 256 0x20).zero]
  | .msd => [row .MSDCFG 0 4, row .LLCHIT 8 8, row .LLCMISS 0x10 8, row .POIS 0x18 4, row .RESTORE 0x1C 4, row .DGCTL 0x20 4,
      row .DGFLAG 0x24 4, row .MSDCLR 0x28 4, rows .DGSUM 0x100 8 16 0x10, rows .DGSNAP 0x108 8 16 0x10]
  | .chn => [row .ROTA 0 4, row .PATROL 4 4, row .RSCORR 8 4, row .RSUNC 0xC 4, row .RSPOIS 0x10 4, row .SCRUB 0x14 4,
      row .TEMP 0x18 4, row .CHNCLR 0x1C 4, rows .PINSYM 0x40 4 24 4]
  | .clu => [row .PSTATE 0 4, row .HOLD 8 8, row .FCNT 0x10 8, row .SKIP 0x18 8]
  | .cor => [row .SPLIT 0x1000 4, row .SHAPE 0x1004 4, row .EWIN 0x1008 4, row .ISTAT 0x100C 4, row .GSTARVE 0x1010 4,
      row .SEQMM 0x1014 4, row .ATOM 0x1018 4, row .EXCLR 0x101C 4, rows .ISSUE 0x1020 8 4 8, row .SYNCPOLL 0x2000 8,
      row .SYNCCLR 0x2008 4, row .MXCTL 0xB000 4, row .MXSTAT 0xB004 4, row .MXALN 0xB008 4, row .MXEDGE 0xB00C 4,
      row .MXVEC 0xB010 8, row .MXGATE 0xB018 8, row .MXCLR 0xB020 4, rows .RCCFG 0xC000 4 64 0x100,
      rows .RCTID 0xC004 4 64 0x100, rows .RCOVF 0xC008 4 64 0x100, rows .RCFLU 0xC00C 4 64 0x100,
      rows .RCNF 0xC010 4 64 0x100, rows .RCMAX 0xC014 4 64 0x100, rows .RCCLR 0xC018 4 64 0x100,
      grid .RCHIST 0xC080 4 64 0x100 32 4 32]

/-- The block, its instance and the offset in it at an offset of the register range (R42). -/
def blockAt (o : Nat) : Option (Blk × Nat × Nat) :=
  let in' (b : Blk) (base sz n : Nat) : Option (Blk × Nat × Nat) :=
    if base ≤ o ∧ o < base + sz * n then some (b, (o - base) / sz, (o - base) % sz) else none
  if 0x1000_0000 ≤ o then
    if 0x5000_0000 ≤ o then none
    else
      let k := (o - 0x1000_0000) / 0x100_0000
      let d := (o - 0x1000_0000) % 0x100_0000
      if d < 0x80_0000 then some (.clu, k, d)
      else if d < 0xC0_0000 then some (.cor, 64 * k + (d - 0x80_0000) / 0x1_0000, d % 0x1_0000)
      else none
  else
    (in' .mgt 0 0x10_0000 1) <|> (in' .pat 0x10_0000 0x10_0000 1) <|> (in' .pwr 0x20_0000 0x10_0000 1)
      <|> (in' .clk 0x30_0000 0x10_0000 1) <|> (in' .rst 0x40_0000 0x10_0000 1) <|> (in' .err 0x50_0000 0x10_0000 1)
      <|> (in' .cxl 0x60_0000 0x10_0000 1) <|> (in' .flk 0x100_0000 0x1_0000 16) <|> (in' .lnk 0x200_0000 0x1_0000 16)
      <|> (in' .ldl 0x300_0000 0x10_0000 2) <|> (in' .run 0x320_0000 0x10_0000 2) <|> (in' .msd 0x400_0000 0x10_0000 8)
      <|> (in' .chn 0x800_0000 0x1000 384)

/-- A register at its place: which, instance, entry, the offset of its first byte, its width in bytes. -/
structure RegAt where
  r : Reg
  i : Nat
  j : Nat
  base : Nat
  w : Nat
  deriving DecidableEq, Repr

/-- Entry of a row whose bytes hold offset `d` of a block: entry number and offset of its first byte. -/
def RegRow.hit (q : RegRow) (d : Nat) : Option (Nat × Nat) :=
  if d < q.off then none
  else
    let x := d - q.off
    let a := if q.st = 0 then 0 else x / q.st
    let y := x - a * q.st
    let b := if q.st2 = 0 then 0 else y / q.st2
    if a < q.n ∧ b < q.n2 ∧ y - b * q.st2 < q.w then some (a * q.mul + b, q.off + a * q.st + b * q.st2) else none

/-- The register that holds the byte at an offset of the register range. -/
def regAt (o : Nat) : Option RegAt :=
  match blockAt o with
  | none => none
  | some (b, i, d) =>
    (blkRows b).findSome? fun q =>
      if q.only0 ∧ i ≠ 0 then none
      else (q.hit d).map fun e => { r := q.r, i := i, j := e.1, base := o - d + e.2, w := q.w }

/-- The registers that `n` bytes at an offset touch, in order. -/
def regsIn (o n : Nat) : List RegAt :=
  (List.range n).foldl (fun l k => match regAt (o + k) with
    | some r => if l.contains r then l else l ++ [r]
    | none => l) []

/-- The register lies wholly in `n` bytes at an offset. -/
def RegAt.whole (r : RegAt) (o n : Nat) : Bool := o ≤ r.base && r.base + r.w ≤ o + n

/-! ### Reading (R12, R13) -/

/-- QSTAT.WAITING (R457): a WAIT, an ORDER flag, a core that has not answered, a full record store. -/
def State.qWaiting (s : State) (f : Nat) : Bool :=
  let q := s.q f
  256 ≤ q.held.length || (match q.hand with
    | some d => d.disp || (d.tries = 0 && bit (d.w 0) 25 = 1 && !q.prog.isEmpty)
    | none => false)

/-- MGT_SESS (R550). -/
def State.sessReg (s : State) : Nat :=
  (List.range 4).foldl (fun a n => match Sparse.get none s.mgt.sess n with
    | some e => a + 2 ^ n + (if e.auth then 2 ^ (4 + n) else 0)
    | none => a) 0

/-- COR_MXSTAT (R118); whether the serial port is still occupied while vectors are on their way is open (log entry 3). -/
def State.mxStat (s : State) (g : Nat) : Nat :=
  let c := s.core g
  let code : Nat := match s.holder g 1 with
    | some st => streamNum st + 1
    | none => 0
  let p (n : Nat) : Plane := c.plane n
  let one (t : Bool) (k : Nat) : Nat := if t then 2 ^ k else 0
  one (p 0).ready 0 + one (p 0).quad 1 + one (p 1).ready 2 + one (p 1).quad 3 + one (s.holder g 1).isSome 5
    + one (s.holder g 0).isSome 6 + one (s.holder g 2).isSome 7 + code * 2 ^ 8 + one c.zero 10

/-- One stream's field of COR_ISTAT (R156, R301): a stream all of whose groups wait issues nothing; whether a candidate of another
issued in the sampled fc is open (log entry 3). -/
def State.iStat (s : State) (g : Nat) (st : Stream) : Nat × State :=
  let c := s.core g
  let code := c.stop.getD (streamNum st) 0
  if c.groups.all fun gr => gr.strm ≠ st then (0, s)
  else if code = 3 ∨ code = 4 then (code, s)
  else if code ≠ 0 ∨ c.power ≠ 0 ∨ c.groups.all (fun gr => gr.strm ≠ st || gr.wait.isSome) then (2, s)
  else
    let b := s.freeB
    (if b.1 then 1 else 2, b.2)

/-- COR_ISTAT. -/
def State.iStats (s : State) (g : Nat) : Nat × State :=
  [Stream.f, .b, .u, .g].foldl (fun r st =>
    let v := r.2.iStat g st
    (r.1 + v.1 * 16 ^ streamNum st, v.2)) (0, s)

/-- COR_GSTARVE (R157): how many fc a resident guest was denied since it last issued is open outside guaranteed mode (log entry 3). -/
def State.gStarve (s : State) (g : Nat) : Nat × State :=
  if s.hasGuest g && s.rf .GSTARVE g 0 29 29 = 0 then s.freeN 16 else (s.rn .GSTARVE g 0, s)

/-- Write-only registers read as zero (R12). -/
def Reg.wo : Reg → Bool
  | .RCCLR | .MXCLR | .EXCLR | .SYNCCLR | .DGCTL | .MSDCLR | .CHNCLR | .LNKCMD | .LNKCLR | .JCTL | .SHAKE | .QCLR | .LDLCLR
  | .POURCMD | .RCMD | .RUNCLR | .ERRCLR | .PCMD | .RCMDR => true
  | _ => false

/-- The value a register reads as. -/
def State.rreg (s : State) (a : RegAt) : Nat × State :=
  if a.r.wo then (0, s)
  else
    match a.r with
    | .SERIAL => (Config.serial.toNat / 2 ^ (64 * a.j) % 2 ^ 64, s)
    | .SESS => (s.sessReg, s)
    | .PATHDR => (leAt s.mgt.hdr (4 * a.j) 4, s)
    | .PATSEC => (s.patLe (4 * a.j) 4, s)
    | .LSCORR => (s.rn .LSCORR a.j 0, s)
    | .CCCORR => (s.rn .CCCORR a.j 0, s)
    | .GSTEP => (s.rn .GSTEP 0 a.j, s)
    | .QSTAT => (s.rn .QSTAT a.i 0 + if s.qWaiting a.i then 8 else 0, s)
    | .MXSTAT => (s.mxStat a.i, s)
    | .ISTAT => s.iStats a.i
    | .GSTARVE => s.gStarve a.i
    | r => (s.rn r a.i a.j, s)

/-- The core that must be awake for an access to a register (R489); one that cannot wake is read as it is. -/
def State.sleeps (s : State) (a : RegAt) : Bool :=
  decide (a.r.ctorIdx < Reg.PSTATE.ctorIdx) && !((s.core a.i).awake) && s.inSvc a.i
    && !(s.clu (a.i / 64) = 3 && !(s.mayWake (a.i / 64)))

/-- Read every register wholly in `n` bytes at an offset; other bytes read as zero (R41, R537). -/
def State.readRegs (s : State) (o n : Nat) (ok : RegAt → Bool) : Nat × State :=
  ((regsIn o n).filter fun a => a.whole o n && ok a).foldl (fun r a =>
    let v := r.2.rreg a
    (r.1 + v.1 * 256 ^ (a.base - o), v.2)) (0, s)

/-! ### Writing -/

/-- The job-scoped registers (R476). -/
def Reg.jobScoped : Reg → Bool
  | .JOB | .JWBASE | .JWSIZE | .JWTGT | .JCTL | .NODE | .ROUTE | .GCFG | .LTAB | .RANKNODE | .LWAIT | .VCFG | .VSTART | .VLIM
  | .VEND | .POURCMD | .RBUD | .RBASE | .RCMD | .VNODE | .SCALE | .SHIST0 | .SHIST1 | .RQPEER => true
  | _ => false

/-- The writable bits of the registers that a write only sets (R12, R13). -/
def Reg.rwMask : Reg → Option Nat
  | .RCCFG => some 0xFF07
  | .RCTID | .WDOG | .IMOD | .LWAIT | .IDLE => some 0xFFFF_FFFF
  | .MXCTL => some 1
  | .JOB => some 0xFFFF_FFFF
  | .JWBASE | .JWTGT | .SREP => some 0xFFFF_FFFF_F000
  | .JWSIZE => some 0xF000_000F_FFFF_FFFF
  | .LTAB | .TBSEED | .COLD => some 0xFFFF_FFFF_FFFF_FFFF
  | .CTAB => some 0xFFFF_FFFF_FFFF
  | .RANKNODE => some 0x3FFF
  | .ERRCTL => some 0xFFFF
  | .TELEM => some 0xFF
  | .LIMIT => some 0xFFF
  | _ => none

/-- The vote registers that a write sets while the binding is not valid (R421). -/
def Reg.voteMask : Reg → Option Nat
  | .VSTART => some 0xFFFF_FFFF
  | .VEND | .SHIST0 | .SHIST1 => some 0xFFFF_FFFF_FFFF_FFFF
  | .RBASE => some 0xFFFF_FFFF_F000
  | .SCALE => some 0xFF_FFFF_FFFF
  | .VNODE => some 0x3FFF
  | _ => none

/-- Binding of an entry of a vote register. -/
def Reg.voteOf (r : Reg) (j : Nat) : Nat :=
  match r with
  | .VNODE => j / 16384
  | .SCALE | .SHIST0 | .SHIST1 => j / 64
  | _ => j

/-- The state a command leaves, where it answers a next one. -/
def State.via (s : State) (f : State → Host.Outcome State Fault Refusal) : State :=
  match f s with
  | .next t => t
  | _ => s

/-- Each set bit of `v` that `fs` lists makes its action. -/
def State.actions (s : State) (v : Nat) (fs : List (Nat × (State → Host.Outcome State Fault Refusal))) : State :=
  fs.foldl (fun s e => if bit v e.1 = 1 then s.via e.2 else s) s

/-- A write of a register of a core. -/
def State.writeCor (s : State) (a : RegAt) (v : Nat) : State :=
  let g := a.i
  match a.r with
  | .RCCLR => s.actions v [(0, execRcclrClear g a.j)]
  | .MXCLR => s.actions v [(0, execMxclrAln g), (1, execMxclrEdge g), (2, execMxclrVec g), (3, execMxclrGate g)]
  | .EXCLR => s.actions v [(0, execExclrIssue g), (1, execExclrAtom g)]
  | .SYNCCLR => s.actions v [(0, execSyncclrPoll g)]
  | _ => s

/-- A write of a register of the memory-side dies, channels or ports. -/
def State.writeMem (s : State) (a : RegAt) (v : Nat) : State :=
  let i := a.i
  match a.r with
  | .DGCTL => s.via (execDgctlSnap i (v % 2 ^ 16))
  | .MSDCLR => s.actions v [(0, execMsdClrLlc i), (1, execMsdClrPois i), (2, execMsdClrRest i)]
  | .CHNCLR => s.actions v [(0, execChnClrRs i), (1, execChnClrScrub i), (2, execChnClrPin i)]
  | .LNKCTL => s.via (execLnkCtlEn i (bit v 0 = 1))
  | .LNKCMD => s.actions v [(0, execPortReset i)]
  | .LNKCLR => s.actions v [(0, execLnkClrFec i), (1, execLnkClrReplay i), (2, execLnkClrDown i), (3, execLnkClrReject i),
      (4, execLnkClrDrop i), (5, execLnkClrFlit i)]
  | .NODE => s.via (execLnkNodeWrite (BitVec.ofNat 32 v))
  | .ROUTE => s.via (execLnkRouteWrite a.j v)
  | _ => s

/-- A write of a register of a flask. -/
def State.writeFlk (s : State) (a : RegAt) (v : Nat) : State :=
  let f := a.i
  let w := BitVec.ofNat 32 v
  match a.r with
  | .QCTL => s.via (execQueueEnable f w)
  | .SQBASE | .CQBASE => if s.rf .QCTL f 0 0 0 = 1 then s else s.wn a.r f 0 (v % 2 ^ 48 / 4096 * 4096)
  | .SQTAIL => s.via (execSqDoorbell f w)
  | .CQHEAD => s.via (execCqHeadWrite f w)
  | .SHAKE => s.actions v [(0, execShakeOut f)]
  | .QCLR => s.actions v [(0, execQclrHerr f)]
  | .JCTL => s.actions v [(0, execJobCommit f)]
  | .TBAR => s.via (execTbarWrite f w)
  | .EVAL => s.via (execEvalHold f (bit v 0 = 1))
  | _ => s

/-- A write of a register of the collective engines. While a binding is valid its registers refuse, but for VALID itself,
LDL_VLIM and LDL_RBUD.PORTS (R421). -/
def State.writeEng (s : State) (a : RegAt) (v : Nat) : State :=
  let i := a.i
  match a.r with
  | .GCFG => s.via (execLdlGcfgWrite a.j (BitVec.ofNat 64 v))
  | .LDLCLR => s.actions v [(0, execLdlClrChk i), (1, execLdlClrNf i), (2, execLdlClrLate i), (3, execLdlClrDup i),
      (4, execLdlClrStale i)]
  | .VCFG => s.via (execLdlVcfgWrite a.j (BitVec.ofNat 64 v))
  | .VLIM => s.wn .VLIM 0 a.j (v % 2 ^ 32)
  | .RBUD =>
    let n := v % 2 ^ 31
    if s.vOk a.j then
      let t := s.wf .RBUD 0 a.j 29 14 (fld n 29 14)
      if t.rn .RBUD 0 a.j = n then t else t.refuse a.base v
    else s.wn .RBUD 0 a.j n
  | .POURCMD => s.actions v [(0, execPourFinish a.j (BitVec.ofNat 32 (v / 2 ^ 32)))]
  | .RCMD => s.actions v [(0, execRiserRestore a.j (BitVec.ofNat 64 v))]
  | .RUNCLR => s.actions v [(0, execRunClrDup i)]
  | .RQPEER => if s.jobOk (s.qFlask a.j) then s.refuse a.base v else s.wn .RQPEER 0 a.j (v % 2 ^ 58)
  | r =>
    match r.voteMask with
    | some m => if s.vOk (r.voteOf a.j) then s.refuse a.base v else s.wn r 0 a.j (v &&& m)
    | none => s

/-- Zero a register in every instance. -/
def State.zeroAll (s : State) (r : Reg) : State := { s with regs := s.regs.filter fun e => e.1 % 256 ≠ r.ctorIdx }

/-- ERR_CLR_RDROP (R549). -/
def execErrClrRdrop (s : State) : Host.Outcome State Fault Refusal := .next (s.wn .RDROP 0 0 0)
/-- ERR_CLR_CC (R549). -/
def execErrClrCc (s : State) : Host.Outcome State Fault Refusal := .next (s.zeroAll .CCCORR)
/-- ERR_CLR_LS (R549). -/
def execErrClrLs (s : State) : Host.Outcome State Fault Refusal := .next (s.zeroAll .LSCORR)

/-- A write of a register of the always-on domain. -/
def State.writeTop (s : State) (a : RegAt) (v : Nat) : State :=
  match a.r with
  | .PCMD => s.actions v [(0, execPwrCmdStandby), (1, execPwrCmdWake)]
  | .CAP => (s.wn .CAP 0 0 (v % 2 ^ 7)).setLevel
  | .THERM => s.refuse a.base v
  | .RCMDR => s.actions v [(0, execRstCmdModule)]
  | .ERRCLR => s.actions v [(0, execErrClrLs), (1, execErrClrCc), (2, execErrClrRdrop)]
  | _ => s

/-- A register is written whole, under its own rules (R12). -/
def State.wreg (s : State) (a : RegAt) (v : Nat) : State :=
  match a.r.rwMask with
  | some m => s.wn a.r a.i a.j (v &&& m)
  | none =>
    let k := a.r.ctorIdx
    if k < Reg.PSTATE.ctorIdx then s.writeCor a v
    else if k < Reg.WDOG.ctorIdx then s.writeMem a v
    else if k < Reg.GCFG.ctorIdx then s.writeFlk a v
    else if k < Reg.QMAP.ctorIdx then s.writeEng a v
    else s.writeTop a v

/-- A refusal was logged between two states, whether or not the ring kept its record (R546). -/
def refusedBetween (s t : State) : Bool := s.mgt.refused ≠ t.mgt.refused

/-- The bytes of a write that a register takes. -/
def RegAt.part (a : RegAt) (o v : Nat) : Nat := v / 256 ^ (a.base - o) % 256 ^ a.w

/-- The rails that hold a register are on: those of the always-on blocks always (R515, R531). -/
def State.reachable (s : State) (a : RegAt) : Bool := s.powered || decide (Reg.QMAP.ctorIdx ≤ a.r.ctorIdx)

/-- A management write to one register (R476): a job-scoped one is refused. -/
def State.mgtWrite (s : State) (o v : Nat) (a : RegAt) : State :=
  if a.r.jobScoped then s.refuse a.base (a.part o v) else if s.reachable a then s.wreg a (a.part o v) else s

/-- The host's write to one register of its flask (R433). -/
def cxlMay (f : Nat) (a : RegAt) : Bool :=
  let d := a.base - 0x100_0000
  0x100_0000 ≤ a.base && a.base < 0x110_0000 && d / 0x1_0000 = f
    && (d % 0x1_0000 < 0x1000 || (0x4000 ≤ d % 0x1_0000 && d % 0x1_0000 < 0x5000) || (0x6000 ≤ d % 0x1_0000 && d % 0x1_0000 < 0x7000))

/-- A register is partly in `n` bytes at an offset, or the offset is no multiple of the width (R477, R537). -/
def badSpan (o n : Nat) : Bool := o % n ≠ 0 || (regsIn o n).any fun a => !(a.whole o n)

/-- Offset in the register range of an offset in an LD's BAR that lies in its flask's window (R432). -/
def barFlk (ld off : Nat) : Option Nat :=
  if 0x2_0000 ≤ off ∧ off < 0x3_0000 then some (0x100_0000 + 0x1_0000 * ld + (off - 0x2_0000)) else none

/-- A host read of `n` bytes at an offset of its LD's BAR (R432, R433): in the flask's window the registers it may read and covers
whole. -/
def State.barRead (s : State) (ld off n : Nat) : Nat × State :=
  match barFlk ld off with
  | some o => s.readRegs o n (cxlMay ld)
  | none => ((List.range n).foldl (fun a k => a + s.barByte ld (off + k) * 256 ^ k) 0, s)

/-- The host's write of registers of its flask's window (R433). -/
def State.hostWrite (s : State) (ld off width v : Nat) : State :=
  if !(s.hostUp ld) then s
  else (((regsIn off width).filter fun a => a.whole off width).filter (cxlMay ld)).foldl (fun s a => s.wreg a (a.part off v)) s

/-- A host write in its LD's BAR (R432): the flask's window; the MSI-X table; component and device registers; elsewhere nothing. -/
def State.barStore (s : State) (ld off width v : Nat) : State :=
  if !(s.hostUp ld) then s
  else
    match barFlk ld off with
    | some o => s.hostWrite ld o width v
    | none =>
      if 0x3_0000 ≤ off ∧ off + width ≤ 0x3_0040 then
        let k := off % 16
        let old := (Sparse.get (1#128 <<< 96) s.msix (4 * ld + (off - 0x3_0000) / 16)).toNat
        s.via (execMsixTableWrite ld ((off - 0x3_0000) / 16)
          (BitVec.ofNat 128 (setFld old (8 * (k + width) - 1) (8 * k) (v % 256 ^ width))))
      else s.barWrite ld off (leBytes width v)

/-- REGISTER_WRITE (R12, R41, R432, R433, R537): a write of 2, 4 or 8 bytes: of management at an offset of the register range, of the
host of an LD at the offset of its flask's window in that range or at an offset of its BAR. -/
def execRegisterWrite (p : RegPath) (off width : Nat) (v : BitVec 64) (s : State) : Host.Outcome State Fault Refusal :=
  let rs := (regsIn off width).filter fun a => a.whole off width
  .next (if width ≠ 2 ∧ width ≠ 4 ∧ width ≠ 8 then s
    else
      match p with
      | .mgmt =>
        if rs.any s.sleeps then s
        else if badSpan off width then s.refuse off v.toNat else rs.foldl (fun s a => s.mgtWrite off v.toNat a) s
      | .cxl ld => s.hostWrite ld off width v.toNat
      | .bar ld => s.barStore ld off width v.toNat)

end Sys2Proof.Machine
end

