-- ==== Sys2Proof/Machine/Mgmt.lean ====
section
/-! DEFINITION. The management controller (R470 to R477, R524, R535 to R548): message paths, attestation, image updates, job
installs, register access, records and telemetry. -/

namespace Sys2Proof.Machine

/-! ### Taking and answering a message (R536 to R541) -/

/-- The controller runs: from boot stage 1 on, in no reset (R541). -/
def State.mgtOn (s : State) : Bool :=
  s.pins.alive && !s.pins.por && s.pins.mrst = 0 && s.rf .BOOT 0 0 3 0 ≠ 0

/-- Codes of R473 and R537. -/
def mgtCodes : List Nat := [1, 2, 3, 4, 5, 6, 0x10, 0x11, 0x20, 0x21, 0x22, 0x30, 0x40, 0x41, 0x50]

/-- Codes served from ROM, before boot ends too (R541). -/
def romCodes : List Nat := [1, 2, 3, 4, 5, 0x10, 0x40, 0x41, 0x50]

/-- Session `n`. -/
def State.sess (s : State) (n : Nat) : Option Sess := Sparse.get none s.mgt.sess n
/-- Session `n` replaced. -/
def State.setSess (s : State) (n : Nat) (e : Option Sess) : State :=
  { s with mgt := { s.mgt with sess := Sparse.set none s.mgt.sess n e } }

/-- A session ends, and the image transfer it owns (R475, R540). -/
def State.endSess (s : State) (n : Nat) : State :=
  let s := s.setSess n none
  match s.mgt.xfer with
  | some (k, _, _) => if k = n + 1 then { s with mgt := { s.mgt with xfer := none } } else s
  | none => s

/-- A response (R473, R537): inside SECURE when the request was and its session is open, under the next response SEQ. -/
def State.respond (s : State) (m : MgtMsg) (code : Nat) (body : List Byte) : State :=
  match (if m.sess = 0 then none else s.sess (m.sess - 1)) with
  | none => { s with out := .mgt m.src m.mid 0 code body :: s.out }
  | some e =>
    let c := Config.gcmSeal e.k2 e.tx ([BitVec.ofNat 8 code, BitVec.ofNat 8 m.sid, 0, 0] ++ body)
    let s := s.setSess (m.sess - 1) (some { e with tx := e.tx + 1 })
    { s with out := .mgt m.src m.mid m.sess 0x84 (leBytes 8 e.tx ++ c.1 ++ c.2) :: s.out }

/-- The response to a request. -/
def State.reply (s : State) (m : MgtMsg) (body : List Byte) : State := s.respond m (m.code + 0x80) body
/-- ERROR with a code. -/
def State.err (s : State) (m : MgtMsg) (e : Nat) : State := s.respond m 0xFF [BitVec.ofNat 8 e]
/-- A response that is a STATUS. -/
def State.status (s : State) (m : MgtMsg) (e : Nat) : State := s.reply m [BitVec.ofNat 8 e]

/-- The path can carry the message now: Ethernet and sessions through the inbox, in order; DOE only R473's codes. -/
def State.carries (s : State) (m : MgtMsg) : Bool :=
  if m.sess ≠ 0 then s.mgt.inbox.head? = some m
  else
    match m.src.path with
    | .eth => s.mgt.inbox.head? = some m
    | .i3c => true
    | .doe ld => s.fnUp ld

/-- A message of DOE whose code is none of R473's is unknown there. -/
def mKnown (m : MgtMsg) : Bool :=
  match m.src.path with
  | .doe _ => 1 ≤ m.code && m.code ≤ 5
  | _ => mgtCodes.contains m.code

/-- The message leaves the inbox. -/
def State.taken (s : State) (m : MgtMsg) : State :=
  { s with mgt := { s.mgt with inbox := s.mgt.inbox.erase m } }

/-- Serve a message of a code (R539, R541): before boot ends only what the ROM serves. -/
def State.serveMgt (s : State) (m : MgtMsg) (code : Nat) (f : State → State) : State :=
  if !s.mgtOn || m.code ≠ code || !(s.carries m) || !(mKnown m) then s
  else
    let t := s.taken m
    if !(romCodes.contains code) && t.rf .BOOT 0 0 6 6 = 0 then t.err m 4 else f t

/-- The message came inside SECURE in an authorised session (R538). -/
def State.authorised (s : State) (m : MgtMsg) : Bool :=
  m.sess ≠ 0 && (s.sess (m.sess - 1)).any fun e => e.auth

/-- Serve a message that needs an authorised session (R537, R538). -/
def State.serveAuth (s : State) (m : MgtMsg) (code : Nat) (f : State → State) : State :=
  s.serveMgt m code fun s => if s.authorised m then f s else s.err m 5

/-- UNKNOWN_CODE (R473, R537, R541). -/
def execUnknownCode (m : MgtMsg) (s : State) : Host.Outcome State Fault Refusal :=
  .next (if !s.mgtOn || mKnown m || !(s.carries m) then s
    else (s.taken m).err m (if s.rf .BOOT 0 0 6 6 = 0 then 4 else 1))

/-! ### Datagrams, neighbours, I3C (R524, R535, R536) -/

/-- A link-local address (R535). -/
def linkLocal (a : Nat) : Bool := a / 2 ^ 118 = 0x3FA && a < 2 ^ 128

/-- The module's own link-local address: modified EUI-64 of its MAC address. -/
def State.ownAddr (s : State) : Nat :=
  let m := s.rf .NET 0 0 47 0
  0xFE80 * 2 ^ 112 + (m / 2 ^ 40 ^^^ 2) * 2 ^ 56 + m / 2 ^ 24 % 2 ^ 16 * 2 ^ 40 + 0xFFFE * 2 ^ 24 + m % 2 ^ 24

/-- Ethernet is up (R550). -/
def State.netUp (s : State) : Bool := s.rf .NET 0 0 48 48 = 1

/-- A complete message enters the inbox. -/
def State.arriveMsg (s : State) (src : Peer) (mid : Nat) (bs : List Byte) : State :=
  if bs.length < 4 then s
  else
    let m : MgtMsg := { src := src, mid := mid, sess := 0, code := leAt bs 0 1, sid := leAt bs 1 1, body := bs.drop 4 }
    { s with mgt := { s.mgt with inbox := s.mgt.inbox ++ [m] } }

/-- The fragments of a message, in order. -/
def Frags.bytes (r : Frags) : List Byte :=
  ((List.range r.nfrag).map fun k => ((r.got.find? fun e => e.1 = k).map (·.2)).getD []).flatten

/-- MANAGEMENT_DATAGRAM (R535, R536). -/
def execManagementDatagram (src : Peer) (d : List (BitVec 8)) (s : State) : Host.Outcome State Fault Refusal :=
  let mid := leAt d 0 2
  let k := leAt d 2 2
  let n := leAt d 4 2
  .next (if !s.mgtOn || !s.netUp || src.path ≠ .eth || !(linkLocal src.addr) || d.length ≤ 8 || 1032 < d.length || n = 0
        || 128 < n || n ≤ k then s
    else
      let same (r : Frags) : Bool := r.src.addr = src.addr && r.mid = mid
      let old := (s.mgt.frags.find? same).getD { src := src, mid := mid, nfrag := n, got := [] }
      if old.nfrag ≠ n || old.got.any fun e => e.1 = k then s
      else
        let r := { old with got := old.got ++ [(k, d.drop 8)] }
        let rest := s.mgt.frags.filter fun r => !(same r)
        if r.got.length < n then { s with mgt := { s.mgt with frags := rest ++ [r] } }
        else State.arriveMsg { s with mgt := { s.mgt with frags := rest } } src mid r.bytes)

/-- REASSEMBLY_TIMEOUT (R536). -/
def execReassemblyTimeout (src : Peer) (mid : Nat) (s : State) : Host.Outcome State Fault Refusal :=
  .next { s with mgt := { s.mgt with frags := s.mgt.frags.filter fun r => !(r.src.addr = src.addr && r.mid = mid) } }

/-- NEIGHBOUR_DISCOVERY (R535): a solicitation of the module's own address (ICMPv6 type 135) is answered with its MAC
address, an echo request (128) with its payload. -/
def execNeighbourDiscovery (src : Peer) (kind : Nat) (target : List (BitVec 8)) (s : State) : Host.Outcome State Fault Refusal :=
  .next (if !s.mgtOn || !s.netUp || src.path ≠ .eth || !(linkLocal src.addr) then s
    else if kind = 135 then
      if leNat target.reverse = s.ownAddr ∧ target.length = 16 then
        { s with out := .net src 136 (leBytes 6 (s.rf .NET 0 0 47 0)).reverse :: s.out }
      else s
    else if kind = 128 then { s with out := .net src 129 target :: s.out }
    else s)

/-- SETDASA (R524): the static address is 0x20 + SLOT. -/
def execSetdasa (static dyn : Nat) (s : State) : Host.Outcome State Fault Refusal :=
  .next (if !s.mgtOn || static ≠ 0x20 + s.rf .PINS 0 0 28 24 || s.mgt.i3cAddr.isSome then s
    else { s with mgt := { s.mgt with i3cAddr := some (dyn % 128) } })

/-- ENTDAA (R524). -/
def execEntdaa (dyn : Nat) (s : State) : Host.Outcome State Fault Refusal :=
  .next (if !s.mgtOn || s.mgt.i3cAddr.isSome then s else { s with mgt := { s.mgt with i3cAddr := some (dyn % 128) } })

/-- The in-band interrupt of R547: a record is held that has not been read over I3C. -/
def State.ibi (s : State) : Bool := s.records.any fun r => !r.i3c

/-! ### Attestation (R471 to R475) -/

/-- Bytes of the certificate (R471). -/
def certLen : Nat := 9893

/-- The certificate, stored at manufacture at flash offset 0x01F0_0000 behind its length (R471); no write reaches it (R470). -/
def certificate : List Byte := (List.range certLen).map Config.certificate

/-- GET_ID (R471, R473). -/
def execGetId (m : MgtMsg) (s : State) : Host.Outcome State Fault Refusal :=
  .next (s.serveMgt m 1 fun s =>
    s.reply m (leBytes 16 Config.serial.toNat ++ Config.identityKey ++ leBytes 4 certLen ++ certificate))

/-- A request waits for the signer. -/
def State.toSign (s : State) (m : MgtMsg) : State := { s with mgt := { s.mgt with signing := s.mgt.signing ++ [m] } }

/-- GET_MEAS (R473, R475): the request waits for its signature. -/
def execGetMeas (m : MgtMsg) (s : State) : Host.Outcome State Fault Refusal :=
  .next (s.serveMgt m 2 fun s => if m.body.length ≠ 32 then s.err m 6 else s.toSign m)

/-- Sessions open, or to be opened by a request that waits for the signer. -/
def State.sessUsed (s : State) : Nat :=
  ((List.range 4).filter fun n => (s.sess n).isSome).length + (s.mgt.signing.filter fun q => q.code = 3).length

/-- KEY_EXCH (R475): a fifth session is refused; else the request waits for its signature. -/
def execKeyExch (m : MgtMsg) (s : State) : Host.Outcome State Fault Refusal :=
  .next (s.serveMgt m 3 fun s =>
    if m.body.length ≠ 32 + 1184 then s.err m 6 else if 4 ≤ s.sessUsed then s.err m 4 else s.toSign m)

/-- Cores in service (R474, R548). -/
def State.inService (s : State) : Nat := (List.range 64).foldl (fun a k => a + popcount 64 (s.rn .QMAP 0 k)) 0

/-- JOBHASH (R474): LNK_NODE, then FLK_JACT and the 32 active windows of each flask. -/
def State.jobHash (s : State) : BitVec 256 :=
  let win (f w : Nat) : List Byte :=
    leBytes 8 (s.rn .JWBASE f (32 + w)) ++ leBytes 8 (s.rn .JWSIZE f (32 + w)) ++ leBytes 8 (s.rn .JWTGT f (32 + w))
  let flask (f : Nat) : List Byte := leBytes 8 (s.rn .JACT f 0) ++ ((List.range 32).map (win f)).flatten
  Config.shake256 (leBytes 4 (s.rn .NODE 0 0) ++ ((List.range 16).map flask).flatten)

/-- The four words of MGT_IMGHASH. -/
def State.imgHash (s : State) : List Byte := ((List.range 4).map fun i => leBytes 8 (s.rn .IMGHASH 0 i)).flatten

/-- REPORT (R474). -/
def State.reportBytes (s : State) (nonce : List Byte) (idx : Nat) : List Byte :=
  leBytes 16 Config.serial.toNat ++ slice nonce 0 32 ++ leBytes 8 idx ++ leBytes 4 (s.rn .BOOTNUM 0 0)
    ++ leBytes 4 (s.rn .MINVER 0 0) ++ leBytes 4 (s.rn .IMGVER 0 0) ++ leBytes 4 (s.rf .BOOT 0 0 7 7)
    ++ leBytes 2 s.inService ++ leBytes 6 (s.rf .MSDCFG 0 0 4 3) ++ s.imgHash ++ leBytes 32 s.jobHash.toNat
    ++ leBytes 112 0

/-- The bytes of a message with its header. -/
def mBytes (m : MgtMsg) : List Byte := [BitVec.ofNat 8 m.code, BitVec.ofNat 8 m.sid, 0, 0] ++ m.body

/-- A session opens (R475): number, keys, the hash its AUTH must sign; the response is signed with index `idx`. -/
def State.openSess (s : State) (m : MgtMsg) (n idx : Nat) : State :=
  let kem := Config.mlkemEncap (m.body.drop 32) s.freeCtr
  let s := { s with freeCtr := s.freeCtr + 1 }
  let resp := [0x83, BitVec.ofNat 8 n, 0, 0] ++ kem.1
  let both := mBytes m ++ resp
  let sig := Config.identitySign idx both
  let k := Config.shakeKeys (kem.2 ++ both)
  let e : Sess := { k1 := k.extractLsb' 0 256, k2 := k.extractLsb' 256 256, rx := 0, tx := 0,
                    hash := Config.shake256 (both ++ sig), auth := false, check := none, peer := m.src }
  let s := s.setSess n (some e)
  { s with out := .mgt m.src m.mid 0 0x83 ([BitVec.ofNat 8 n, 0, 0] ++ kem.1 ++ sig) :: s.out }

/-- A job install's writes are being applied (R474). -/
def State.installing (s : State) : Bool := s.mgt.installs.any fun e => e.ok

/-- IDENTITY_SIGNATURE (R472, R474, R475): the request that waits longest is signed with the next index; a block of 1,024
is reserved first when none is left; an exhausted signer refuses. -/
def execIdentitySignature (s : State) : Host.Outcome State Fault Refusal :=
  .next (match s.mgt.signing with
    | [] => s
    | m :: rest =>
      if m.code = 2 && s.installing then s
      else
        let s := { s with mgt := { s.mgt with signing := rest } }
        let ctr := s.rn .IDCTR 0 0
        if s.mgt.sigLeft = 0 && 2 ^ 40 < ctr + 1024 then s.err m 3
        else
          let s := if s.mgt.sigLeft = 0 then
              State.wn { s with mgt := { s.mgt with sigIdx := ctr, sigLeft := 1024 } } .IDCTR 0 0 (ctr + 1024)
            else s
          let idx := s.mgt.sigIdx
          let s := { s with mgt := { s.mgt with sigIdx := idx + 1, sigLeft := s.mgt.sigLeft - 1 } }
          if m.code = 2 then
            let r := s.reportBytes m.body idx
            s.reply m (r ++ Config.identitySign idx r)
          else
            match (List.range 4).find? fun n => (s.sess n).isNone with
            | some n => s.openSess m n idx
            | none => s.err m 4)

/-- SECURE (R436, R475): the session's next message is opened; in a session of LD 0 it carries IDE key management, in another
a message to be served next. -/
def execSecure (m : MgtMsg) (s : State) : Host.Outcome State Fault Refusal :=
  let seq := leAt m.body 0 8
  let n := m.body.length
  let ct := (m.body.drop 8).take (n - 24)
  let tag := m.body.drop (n - 16)
  .next (s.serveMgt m 4 fun s =>
    match s.sess m.sid with
    | none => s.err m 2
    | some e =>
      if n < 24 then s.err m 6
      else if seq ≠ e.rx then (s.endSess m.sid).err m 2
      else
        match Config.gcmOpen e.k1 seq ct tag with
        | none => s.err m 2
        | some p =>
          let s := s.setSess m.sid (some { e with rx := e.rx + 1 })
          let inner : MgtMsg :=
            { src := m.src, mid := m.mid, sess := m.sid + 1, code := leAt p 0 1, sid := leAt p 1 1, body := p.drop 4 }
          if e.peer.path = .doe 0 then
            let k := Config.ideKeys p % 4
            let s := s.ideKeyed k
            s.respond { m with sess := m.sid + 1 } 0x84 []
          else if p.length < 4 then s.err m 6
          else { s with mgt := { s.mgt with inbox := inner :: s.mgt.inbox } })

/-- END (R473). -/
def execEndSession (m : MgtMsg) (s : State) : Host.Outcome State Fault Refusal :=
  .next (s.serveMgt m 5 fun s => if (s.sess m.sid).isSome then (s.reply m []).endSess m.sid else s.err m 2)

/-- JAKEY, the job authority's public key (R464). -/
def State.jaKey (s : State) : List Byte := (List.range 68).map fun i => BitVec.ofNat 8 (s.secB 1 (8 + i))

/-- AUTH (R537, R538): inside SECURE its signature check starts; outside it ends the session. -/
def execAuth (m : MgtMsg) (s : State) : Host.Outcome State Fault Refusal :=
  .next (s.serveMgt m 6 fun s =>
    if m.sess = 0 then (s.endSess m.sid).err m 5
    else
      match s.sess (m.sess - 1) with
      | some e => s.setSess (m.sess - 1) (some { e with check := some m })
      | none => s.err m 2)

/-- AUTH_CHECK_COMPLETE (R538). -/
def execAuthCheckComplete (sess : Nat) (s : State) : Host.Outcome State Fault Refusal :=
  .next (match s.sess sess with
    | none => s
    | some e =>
      match e.check with
      | none => s
      | some m =>
        if Config.xmssMtVerify s.jaKey (leBytes 32 e.hash.toNat) m.body then
          (s.setSess sess (some { e with auth := true, check := none })).status m 0
        else (s.endSess sess).err m 5)

/-! ### Image updates (R470, R540) -/

/-- Bytes of an image slot. -/
def slotSpan (k : Nat) : Nat := if k = 0 then 16 * 2 ^ 20 else 15 * 2 ^ 20

/-- The slot booted. -/
def State.bootedSlot (s : State) : Nat := s.rf .BOOT 0 0 7 7

/-- IMAGE_BEGIN (R470, R540): the slot that did not boot is erased, and the session owns the transfer. -/
def execImageBegin (m : MgtMsg) (s : State) : Host.Outcome State Fault Refusal :=
  let k := leAt m.body 0 1
  .next (s.serveAuth m 0x20 fun s =>
    if m.body.length ≠ 1 || 1 < k then s.err m 6
    else if s.mgt.xfer.any fun x => x.1 ≠ m.sess then s.err m 4
    else if k = s.bootedSlot then (s.refuseCmd 0x20 1).status m 1
    else
      let b := slotBase k
      let nor := s.mgt.nor.filter fun e => e.1 < b || b + slotSpan k ≤ e.1
      State.status { s with mgt := { s.mgt with nor := nor, xfer := some (m.sess, k, List.replicate 4 0xFF) } } m 0)

/-- Program bytes: a NOR cell only loses ones (PRESUMED). -/
def programNor (nor : Sparse Byte) (a : Nat) : List Byte → Sparse Byte
  | [] => nor
  | b :: bs => programNor (Sparse.set 0xFF nor a (Sparse.get 0xFF nor a &&& b)) (a + 1) bs

/-- IMAGE_WRITE (R470, R540): bytes are programmed at once, but for image bytes 0 to 3, which are held; a write past the slot, as into
the certificate region, is refused and logged. -/
def execImageWrite (m : MgtMsg) (s : State) : Host.Outcome State Fault Refusal :=
  let o := leAt m.body 0 4
  let d := m.body.drop 4
  .next (s.serveAuth m 0x21 fun s =>
    match s.mgt.xfer with
    | none => s.status m 1
    | some (own, k, held) =>
      if own ≠ m.sess then s.err m 4
      else if o % 256 ≠ 0 || d = [] || 1024 < d.length then s.err m 6
      else if slotSpan k < o + d.length then (s.refuseCmd 0x21 2).err m 6
      else if k = s.bootedSlot then (s.refuseCmd 0x21 1).status m 1
      else
        let h := if o = 0 then (List.range 4).map fun i => d.getD i (held.getD i 0xFF) else held
        let skip := if o = 0 then 4 else 0
        let nor := programNor s.mgt.nor (slotBase k + o + skip) (d.drop skip)
        State.status { s with mgt := { s.mgt with nor := nor, xfer := some (own, k, h) } } m 0)

/-- IMAGE_END (R540): the held bytes are written, and the transfer closes. -/
def execImageEnd (m : MgtMsg) (s : State) : Host.Outcome State Fault Refusal :=
  .next (s.serveAuth m 0x22 fun s =>
    match s.mgt.xfer with
    | none => s.status m 1
    | some (own, k, held) =>
      if own ≠ m.sess then s.err m 4
      else if k = s.bootedSlot then (s.refuseCmd 0x22 1).status m 1
      else
        let nor := programNor s.mgt.nor (slotBase k) held
        State.status { s with mgt := { s.mgt with nor := nor, xfer := none } } m 0)

/-! ### Job installs (R476, R477) -/

/-- NW of an install message. -/
def mNw (m : MgtMsg) : Nat := leAt m.body 20 4

/-- JOB_INSTALL (R477): the message is taken; its signature check starts when those before it are done. -/
def execJobInstall (m : MgtMsg) (s : State) : Host.Outcome State Fault Refusal :=
  .next (s.serveMgt m 0x30 fun s =>
    if mNw m = 0 || 4096 < mNw m || m.body.length ≠ 32 + 16 * (mNw m) + 9893 then s.err m 6
    else
      let e : Install := { msg := m, ok := false, next := 0, applied := 0, skipped := none }
      { s with mgt := { s.mgt with installs := s.mgt.installs ++ [e] } })

/-- The response of an install: the count applied, the index of the first skipped write (NW where none was). -/
def State.installReply (s : State) (e : Install) : State :=
  s.reply e.msg (leBytes 4 e.applied ++ leBytes 4 (e.skipped.getD (mNw e.msg)))

/-- Why an install is not applied: 1 signature, 2 SERIAL or BOOTNUM, 3 JSEQ. -/
def State.installBad (s : State) (m : MgtMsg) : Option Nat :=
  let n := 32 + 16 * mNw m
  if !(Config.xmssMtVerify s.jaKey ((mBytes m).take (4 + n)) (m.body.drop n)) then some 1
  else if leAt m.body 0 16 ≠ Config.serial.toNat || leAt m.body 16 4 ≠ s.rn .BOOTNUM 0 0 then some 2
  else if leAt m.body 24 8 ≤ s.rn .JSEQ 0 0 then some 3
  else none

/-- JOB_INSTALL_VERIFY (R477): an install whose checks pass sets MGT_JSEQ; of another nothing is applied. -/
def execJobInstallVerify (s : State) : Host.Outcome State Fault Refusal :=
  .next (match s.mgt.installs with
    | [] => s
    | e :: rest =>
      if e.ok then s
      else
        match s.installBad e.msg with
        | some why =>
          let s := { s with mgt := { s.mgt with installs := rest } }
          (s.refuseCmd 0x30 why).installReply { e with skipped := some 0 }
        | none =>
          let s := s.wn .JSEQ 0 0 (leAt e.msg.body 24 8)
          { s with mgt := { s.mgt with installs := { e with ok := true } :: rest } })

/-- One write record: the registers applied, whether the record was skipped, in whole or for a register (R477). -/
def State.installOne (s : State) (o w v : Nat) : Nat × Bool × State :=
  let rs := (regsIn o w).filter fun a => a.whole o w
  if (w ≠ 2 && w ≠ 4 && w ≠ 8) || badSpan o w || rs = [] then (0, true, s.refuse o v)
  else
    rs.foldl (fun (r : Nat × Bool × State) a =>
      let t := r.2.2
      if !a.r.jobScoped then (r.1, true, t.refuse a.base (a.part o v))
      else
        let u := t.wreg a (a.part o v)
        if refusedBetween t u then (r.1, true, u) else (r.1 + 1, r.2.1, u)) (0, false, s)

/-- JOB_INSTALL_WRITE (R477): the next record of the install under way; after the last, the response. -/
def execJobInstallWrite (s : State) : Host.Outcome State Fault Refusal :=
  .next (match s.mgt.installs with
    | [] => s
    | e :: rest =>
      if !e.ok then s
      else
        let b := 32 + 16 * e.next
        let r := s.installOne (leAt e.msg.body b 4) (leAt e.msg.body (b + 4) 4) (leAt e.msg.body (b + 8) 8)
        let e := { e with next := e.next + 1, applied := e.applied + r.1,
                          skipped := e.skipped <|> (if r.2.1 then some e.next else none) }
        if e.next < mNw e.msg then { r.2.2 with mgt := { r.2.2.mgt with installs := e :: rest } }
        else State.installReply { r.2.2 with mgt := { r.2.2.mgt with installs := rest } } e)

/-! ### Register access (R537, R539) -/

/-- REG_READ (R537, R539): it waits while a core it reads from sleeps. -/
def execRegRead (m : MgtMsg) (s : State) : Host.Outcome State Fault Refusal :=
  let o := leAt m.body 0 4
  let w := leAt m.body 4 1
  let rs := regsIn o w
  .next (if rs.any s.sleeps then s
    else s.serveMgt m 0x10 fun s =>
      if m.body.length ≠ 5 || (w ≠ 2 && w ≠ 4 && w ≠ 8) then s.err m 6
      else if badSpan o w then s.reply m (4 :: leBytes 8 0)
      else if rs = [] then s.reply m (2 :: leBytes 8 0)
      else
        let v := s.readRegs o w s.reachable
        v.2.reply m (0 :: leBytes 8 v.1))

/-- REG_WRITE (R476, R537). -/
def execRegWrite (m : MgtMsg) (s : State) : Host.Outcome State Fault Refusal :=
  let o := leAt m.body 0 4
  let w := leAt m.body 4 1
  let v := leAt m.body 5 8
  let rs := regsIn o w
  .next (if rs.any s.sleeps then s
    else s.serveAuth m 0x11 fun s =>
      if m.body.length ≠ 13 || (w ≠ 2 && w ≠ 4 && w ≠ 8) then s.err m 6
      else if badSpan o w then (s.refuse o v).status m 4
      else if rs = [] then s.status m 2
      else
        let t := rs.foldl (fun s a => s.mgtWrite o v a) s
        t.status m (if rs.any fun a => a.r.jobScoped then 3 else if refusedBetween s t then 1 else 0))

/-! ### Records and telemetry (R542, R545 to R548) -/

/-- The 64 bytes of a record (R542). -/
def Record.bytes (r : Record) : List Byte :=
  leBytes 3 0x14556 ++ leBytes 1 r.cls ++ leBytes 4 r.rseq ++ leBytes 4 r.boot ++ leBytes 2 r.slot ++ leBytes 2 r.node
    ++ leBytes 8 r.acnt ++ leBytes 8 (Config.serial.toNat % 2 ^ 64) ++ leBytes 2 r.code ++ leBytes 1 r.src
    ++ leBytes 1 (match r.flask with
        | some f => 0x80 + f
        | none => 0)
    ++ leBytes 4 r.inst ++ leBytes 8 r.d0 ++ leBytes 8 r.d1 ++ leBytes 8 r.d2

/-- REC_GET (R537, R547): up to MAX held records from FROM on; read over I3C they no longer raise its interrupt. -/
def execRecGet (m : MgtMsg) (s : State) : Host.Outcome State Fault Refusal :=
  let n := leAt m.body 4 1
  .next (s.serveMgt m 0x40 fun s =>
    if m.body.length ≠ 5 || n = 0 || 16 < n then s.err m 6
    else
      let rs := (s.records.filter fun r => leAt m.body 0 4 ≤ r.rseq).take n
      let s := if m.src.path = .i3c then
          { s with records := s.records.map fun r => if rs.contains r then { r with i3c := true } else r }
        else s
      s.reply m (rs.map Record.bytes).flatten)

/-- REC_ACK (R546): every record up to UPTO is acknowledged; one below ERR_RACK is ignored. -/
def execRecAck (m : MgtMsg) (s : State) : Host.Outcome State Fault Refusal :=
  let u := leAt m.body 0 4
  .next (s.serveMgt m 0x41 fun s =>
    if m.body.length ≠ 4 then s.err m 6
    else
      let s := if u < s.rn .RACK 0 0 then s
        else State.wn { s with records := s.records.map fun r => if r.rseq ≤ u then { r with acked := true } else r }
          .RACK 0 0 u
      s.status m 0)

/-- Sum of a counter over all cores, saturating. -/
def State.coreSum (s : State) (r : Reg) : Nat :=
  min (2 ^ 32 - 1) (s.regs.foldl (fun a e => if e.1 % 256 = r.ctorIdx then a + e.2.toNat else a) 0)

/-- The telemetry block (R548). -/
def State.telemetry (s : State) : List Byte :=
  let temps := ((List.range 14).map fun i => leBytes 1 (s.pwr.temps.getD i 0)).flatten
  let ports := (List.range 16).foldl (fun a p => a + s.rf .LNKSTAT p 0 0 0 * 2 ^ p) 0
  leBytes 8 s.acnt ++ leBytes 4 (s.rn .BOOTNUM 0 0) ++ leBytes 4 (s.rn .MEAS 0 0) ++ leBytes 4 (s.rn .PSTAT 0 0) ++ temps
    ++ leBytes 2 s.inService ++ leBytes 2 ports ++ leBytes 4 (s.rn .LSTAT 0 0) ++ leBytes 4 (s.rn .RSEQ 0 0)
    ++ leBytes 4 (s.rn .RDROP 0 0) ++ leBytes 4 (s.coreSum .LSCORR) ++ leBytes 4 (s.coreSum .CCCORR)
    ++ leBytes 4 (s.rn .BOOT 0 0) ++ leBytes 66 0

/-- TELEM (R548). -/
def execTelem (m : MgtMsg) (s : State) : Host.Outcome State Fault Refusal :=
  .next (s.serveMgt m 0x50 fun s => s.reply m s.telemetry)

/-- TELEMETRY_SEND (R548): PERIOD seconds have passed. -/
def execTelemetrySend (s : State) : Host.Outcome State Fault Refusal :=
  .next (if s.mgtOn && s.netUp && s.rf .TELEM 0 0 7 0 ≠ 0 then { s with out := .telem s.telemetry :: s.out } else s)

/-- Records sent once more. -/
def State.sendRecords (s : State) (t : Record → Bool) : State :=
  { s with out := ((s.records.filter t).map fun r => Out.record r.rseq).reverse ++ s.out,
           records := s.records.map fun r => if t r then { r with sent := r.sent + 1 } else r }

/-- FATAL_RECORD_RESEND (R547): fatal records sent and not acknowledged are sent again, up to 16 times in all. -/
def execFatalRecordResend (s : State) : Host.Outcome State Fault Refusal :=
  .next (if s.netUp then s.sendRecords fun r => r.cls = 4 && !r.acked && 1 ≤ r.sent && r.sent < 16 else s)

/-- ETHERNET_LINK_UP (R547, R550): unacknowledged records made while the link was down are sent, up to 256. -/
def execEthernetLinkUp (s : State) : Host.Outcome State Fault Refusal :=
  .next (if !s.pins.alive || s.pins.por || s.netUp then s
    else
      let due := ((s.records.filter fun r => r.sent = 0 && !r.acked).take 256).map (·.rseq)
      (s.wf .NET 0 0 48 48 1).sendRecords fun r => due.contains r.rseq && r.sent = 0)

/-- ETHERNET_LINK_DOWN (R550). -/
def execEthernetLinkDown (s : State) : Host.Outcome State Fault Refusal := .next (s.wf .NET 0 0 48 48 0)

end Sys2Proof.Machine
end

