-- ==== Sys2Proof/Machine/Vec.lean ====
section
/-! DEFINITION. The vector instructions (R176): lane arithmetic, masks, binary32, the approximated functions, cross-lane
moves, and W80 with its canonical tree (R144, R145). -/

namespace Sys2Proof.Machine

/-- Present a vector instruction: its form, its effect on the group (given the group at issue), and whether a poisoned
value is read. -/
def vector (x : Who) (q : VForm) (f : Group → Nat → Group → Group) (rp : Group → Nat → Bool) (w : BitVec 56) (s : State) :
    State :=
  let n := w.toNat
  presentReg x (q.regs n) (fun s _ => need (q.ok (s.rpl x) n))
    (fun s gr => s.regEff x (f gr n) (rp gr n)) s

/-- Form of a row of one, two or three lane sources and a lane destination. -/
def laneForm (k : Nat) : VForm :=
  { d := .lane, a := .lane, b := if 2 ≤ k then .lane else .none, c := if 3 ≤ k then .lane else .none, flags := true,
    imm := 1, usesMk := true }

/-- vd = f va. -/
def lane1 (x : Who) (f : Word32 → Word32) (w : BitVec 56) (s : State) : State :=
  vector x (laneForm 1) (fun gr n h => { h with
      v := (gr.mapLanes n fun l => (f (gr.srcA n l).1, (gr.srcA n l).2)).v
      vp := (gr.mapLanes n fun l => (f (gr.srcA n l).1, (gr.srcA n l).2)).vp })
    (fun gr n => gr.readP n fun l => (gr.srcA n l).2) w s

/-- vd = f va vb. -/
def lane2 (x : Who) (f : Word32 → Word32 → Word32) (w : BitVec 56) (s : State) : State :=
  vector x (laneForm 2) (fun gr n h =>
      let r := gr.mapLanes n fun l => (f (gr.srcA n l).1 (gr.srcB n l).1, (gr.srcA n l).2 || (gr.srcB n l).2)
      { h with v := r.v, vp := r.vp })
    (fun gr n => gr.readP n fun l => (gr.srcA n l).2 || (gr.srcB n l).2) w s

/-- vd = f va vb vc. -/
def lane3 (x : Who) (f : Word32 → Word32 → Word32 → Word32) (w : BitVec 56) (s : State) : State :=
  vector x (laneForm 3) (fun gr n h =>
      let r := gr.mapLanes n fun l => (f (gr.srcA n l).1 (gr.srcB n l).1 (gr.srcC n l).1,
        (gr.srcA n l).2 || (gr.srcB n l).2 || (gr.srcC n l).2)
      { h with v := r.v, vp := r.vp })
    (fun gr n => gr.readP n fun l => (gr.srcA n l).2 || (gr.srcB n l).2 || (gr.srcC n l).2) w s

/-! ### Integer lanes -/

/-- IADD (R176), modulo 2^32. -/
def execIadd (x : Who) (w : BitVec 56) (s : State) : Host.Outcome State Fault Refusal :=
  .next (lane2 x (fun a b => a + b) w s)
/-- ISUB (R176), modulo 2^32. -/
def execIsub (x : Who) (w : BitVec 56) (s : State) : Host.Outcome State Fault Refusal :=
  .next (lane2 x (fun a b => a - b) w s)
/-- IAND (R176). -/
def execIand (x : Who) (w : BitVec 56) (s : State) : Host.Outcome State Fault Refusal :=
  .next (lane2 x (fun a b => a &&& b) w s)
/-- IOR (R176). -/
def execIor (x : Who) (w : BitVec 56) (s : State) : Host.Outcome State Fault Refusal :=
  .next (lane2 x (fun a b => a ||| b) w s)
/-- IXOR (R176). -/
def execIxor (x : Who) (w : BitVec 56) (s : State) : Host.Outcome State Fault Refusal :=
  .next (lane2 x (fun a b => a ^^^ b) w s)
/-- ISHL (R176), by vb bits 4:0. -/
def execIshl (x : Who) (w : BitVec 56) (s : State) : Host.Outcome State Fault Refusal :=
  .next (lane2 x (fun a b => a <<< (b.toNat % 32)) w s)
/-- ISHR (R176), logical. -/
def execIshr (x : Who) (w : BitVec 56) (s : State) : Host.Outcome State Fault Refusal :=
  .next (lane2 x (fun a b => a >>> (b.toNat % 32)) w s)
/-- ISAR (R176), arithmetic. -/
def execIsar (x : Who) (w : BitVec 56) (s : State) : Host.Outcome State Fault Refusal :=
  .next (lane2 x (fun a b => a.sshiftRight (b.toNat % 32)) w s)
/-- IMOV (R176). -/
def execImov (x : Who) (w : BitVec 56) (s : State) : Host.Outcome State Fault Refusal :=
  .next (lane1 x (fun a => a) w s)
/-- SEL (R176): va where bit l of the mask register in VC is 1, else vb. -/
def execSel (x : Who) (w : BitVec 56) (s : State) : Host.Outcome State Fault Refusal :=
  .next (vector x { laneForm 2 with c := .mask } (fun gr n h =>
      let k := fld n 28 21
      let r := gr.mapLanes n fun l =>
        let p := if gr.on k l then gr.srcA n l else gr.srcB n l
        (p.1, p.2 || gr.maskP k)
      { h with v := r.v, vp := r.vp })
    (fun gr n => gr.maskP (fld n 28 21)
      || gr.readP n fun l => (gr.srcA n l).2 || (gr.srcB n l).2) w s)
/-- LID (R176): the lane index. -/
def execLid (x : Who) (w : BitVec 56) (s : State) : Host.Outcome State Fault Refusal :=
  .next (vector x { laneForm 1 with a := .none, flags := false } (fun gr n h =>
      let r := gr.mapLanes n fun l => (BitVec.ofNat 32 l, false)
      { h with v := r.v, vp := r.vp })
    (fun gr n => gr.readP n fun _ => false) w s)
/-- FABS (R176): clears bit 31 of any value. -/
def execFabs (x : Who) (w : BitVec 56) (s : State) : Host.Outcome State Fault Refusal :=
  .next (lane1 x (fun a => a &&& 0x7FFF_FFFF) w s)
/-- FNEG (R176): inverts bit 31 of any value. -/
def execFneg (x : Who) (w : BitVec 56) (s : State) : Host.Outcome State Fault Refusal :=
  .next (lane1 x (fun a => a ^^^ 0x8000_0000) w s)

/-! ### Masks -/

/-- Form of a compare: COND below `k` in VC. -/
def cmpForm (k : Nat) : VForm := { laneForm 2 with d := .mask, c := .code k }

/-- ICMP (R176, R170). -/
def execIcmp (x : Who) (w : BitVec 56) (s : State) : Host.Outcome State Fault Refusal :=
  .next (vector x (cmpForm 6) (fun gr n h =>
      let r := gr.mapMask n fun l => (condI (fld n 28 21) (gr.srcA n l).1 (gr.srcB n l).1, (gr.srcA n l).2 || (gr.srcB n l).2)
      { h with k := r.k, kp := r.kp })
    (fun gr n => gr.readP n fun l => (gr.srcA n l).2 || (gr.srcB n l).2) w s)
/-- FCMP (R176, R170). -/
def execFcmp (x : Who) (w : BitVec 56) (s : State) : Host.Outcome State Fault Refusal :=
  .next (vector x (cmpForm 5) (fun gr n h =>
      let r := gr.mapMask n fun l => (condF (fld n 28 21) (gr.srcA n l).1 (gr.srcB n l).1, (gr.srcA n l).2 || (gr.srcB n l).2)
      { h with k := r.k, kp := r.kp })
    (fun gr n => gr.readP n fun l => (gr.srcA n l).2 || (gr.srcB n l).2) w s)
/-- Result of KOP on two masks: and, or, xor, and-not. -/
def kop (c : Nat) (a b : Word64) : Word64 :=
  if c = 0 then a &&& b else if c = 1 then a ||| b else if c = 2 then a ^^^ b else a &&& ~~~b
/-- KOP (R176, R170). -/
def execKop (x : Who) (w : BitVec 56) (s : State) : Host.Outcome State Fault Refusal :=
  .next (vector x { d := .mask, a := .mask, b := .mask, c := .code 4, flags := true, imm := 1, usesMk := true } (fun gr n h =>
      let a := fld n 44 37
      let b := fld n 36 29
      let v := kop (fld n 28 21) (gr.mask a) (gr.mask b)
      let r := gr.mapMask n fun l => (v.getLsbD l, gr.maskP a || gr.maskP b)
      { h with k := r.k, kp := r.kp })
    (fun gr n => gr.readP n fun _ => gr.maskP (fld n 44 37) || gr.maskP (fld n 36 29)) w s)
/-- KMOVU (R176, R170): bits of a uniform. -/
def execKmovu (x : Who) (w : BitVec 56) (s : State) : Host.Outcome State Fault Refusal :=
  .next (vector x { d := .mask, a := .unif, b := .none, c := .none, flags := true, imm := 1, usesMk := true } (fun gr n h =>
      let a := fld n 44 37
      let r := gr.mapMask n fun l => ((gr.unif a).getLsbD l, gr.unifP a)
      { h with k := r.k, kp := r.kp })
    (fun gr n => gr.readP n fun _ => gr.unifP (fld n 44 37)) w s)
/-- UMOVK (R176): the whole mask; MK is reserved (R170). -/
def execUmovk (x : Who) (w : BitVec 56) (s : State) : Host.Outcome State Fault Refusal :=
  .next (vector x { d := .unif, a := .mask, b := .none, c := .none, flags := true, imm := 1, usesMk := false } (fun gr n h =>
      h.setUnif (fld n 52 45) (gr.mask (fld n 44 37)) (gr.maskP (fld n 44 37)))
    (fun gr n => gr.maskP (fld n 44 37)) w s)

/-! ### binary32 (R49) -/

/-- FADD (R176). -/
def execFadd (x : Who) (w : BitVec 56) (s : State) : Host.Outcome State Fault Refusal :=
  .next (lane2 x fAdd w s)
/-- FSUB (R176). -/
def execFsub (x : Who) (w : BitVec 56) (s : State) : Host.Outcome State Fault Refusal :=
  .next (lane2 x fSub w s)
/-- FMUL (R176). -/
def execFmul (x : Who) (w : BitVec 56) (s : State) : Host.Outcome State Fault Refusal :=
  .next (lane2 x fMul w s)
/-- FFMA (R176): rounded once. -/
def execFfma (x : Who) (w : BitVec 56) (s : State) : Host.Outcome State Fault Refusal :=
  .next (lane3 x fFma w s)
/-- FMIN (R176). -/
def execFmin (x : Who) (w : BitVec 56) (s : State) : Host.Outcome State Fault Refusal :=
  .next (lane2 x fMin w s)
/-- FMAX (R176). -/
def execFmax (x : Who) (w : BitVec 56) (s : State) : Host.Outcome State Fault Refusal :=
  .next (lane2 x fMax w s)
/-- ITOF (R176). -/
def execItof (x : Who) (w : BitVec 56) (s : State) : Host.Outcome State Fault Refusal :=
  .next (lane1 x iToF w s)
/-- UTOF (R176). -/
def execUtof (x : Who) (w : BitVec 56) (s : State) : Host.Outcome State Fault Refusal :=
  .next (lane1 x uToF w s)
/-- FTOI (R176). -/
def execFtoi (x : Who) (w : BitVec 56) (s : State) : Host.Outcome State Fault Refusal :=
  .next (lane1 x fToI w s)
/-- FTOU (R176). -/
def execFtou (x : Who) (w : BitVec 56) (s : State) : Host.Outcome State Fault Refusal :=
  .next (lane1 x fToU w s)
/-- WIDH (R50, R176): bits 15:0 as binary16. -/
def execWidh (x : Who) (w : BitVec 56) (s : State) : Host.Outcome State Fault Refusal :=
  .next (lane1 x (fun a => widenH (a.toNat % 2 ^ 16)) w s)
/-- WIDB (R50, R176): bits 15:0 as bfloat16. -/
def execWidb (x : Who) (w : BitVec 56) (s : State) : Host.Outcome State Fault Refusal :=
  .next (lane1 x (fun a => widenB (a.toNat % 2 ^ 16)) w s)
/-- FEXP2 (R178). -/
def execFexp2 (x : Who) (w : BitVec 56) (s : State) : Host.Outcome State Fault Refusal :=
  .next (lane1 x fExp2 w s)
/-- FLOG2 (R178). -/
def execFlog2 (x : Who) (w : BitVec 56) (s : State) : Host.Outcome State Fault Refusal :=
  .next (lane1 x fLog2 w s)
/-- FRCP (R178). -/
def execFrcp (x : Who) (w : BitVec 56) (s : State) : Host.Outcome State Fault Refusal :=
  .next (lane1 x fRcp w s)
/-- FRSQ (R178). -/
def execFrsq (x : Who) (w : BitVec 56) (s : State) : Host.Outcome State Fault Refusal :=
  .next (lane1 x fRsq w s)
/-- FDIV (R176). -/
def execFdiv (x : Who) (w : BitVec 56) (s : State) : Host.Outcome State Fault Refusal :=
  .next (lane2 x fDiv w s)
/-- FSQRT (R176). -/
def execFsqrt (x : Who) (w : BitVec 56) (s : State) : Host.Outcome State Fault Refusal :=
  .next (lane1 x fSqrt w s)

/-! ### Across lanes -/

/-- PERM (R176): va of lane (vb bits 5:0), from values before the write. -/
def execPerm (x : Who) (w : BitVec 56) (s : State) : Host.Outcome State Fault Refusal :=
  .next (vector x { laneForm 2 with flags := false } (fun gr n h =>
      let r := gr.mapLanes n fun l =>
        let b := gr.srcB n l
        let a := gr.srcA n (b.1.toNat % 64)
        (a.1, a.2 || b.2)
      { h with v := r.v, vp := r.vp })
    (fun gr n => gr.readP n fun l => (gr.srcA n ((gr.srcB n l).1.toNat % 64)).2 || (gr.srcB n l).2) w s)
/-- BCST (R176): va of lane (IMM bits 5:0). -/
def execBcst (x : Who) (w : BitVec 56) (s : State) : Host.Outcome State Fault Refusal :=
  .next (vector x { laneForm 1 with flags := false, imm := 64 } (fun gr n h =>
      let r := gr.mapLanes n fun _ => gr.srcA n (fld n 5 0)
      { h with v := r.v, vp := r.vp })
    (fun gr n => gr.readP n fun _ => (gr.srcA n (fld n 5 0)).2) w s)
/-- RDL (R176): a uniform from va of lane (IMM bits 5:0), zero-extended; MK is reserved (R170). -/
def execRdl (x : Who) (w : BitVec 56) (s : State) : Host.Outcome State Fault Refusal :=
  .next (vector x { d := .unif, a := .lane, b := .none, c := .none, flags := false, imm := 64, usesMk := false } (fun gr n h =>
      h.setUnif (fld n 52 45) ((gr.srcA n (fld n 5 0)).1.setWidth 64) (gr.srcA n (fld n 5 0)).2)
    (fun gr n => (gr.srcA n (fld n 5 0)).2) w s)

/-! ### W80 -/

/-- Form of WADD and WMUL. -/
def quadForm : VForm :=
  { d := .quad, a := .quad, b := .quad, c := .none, flags := false, imm := 1, usesMk := true }

/-- Quad vd = f (quad va) (quad vb) (R144). -/
def quad2 (x : Who) (f : Wide → Wide → Wide) (w : BitVec 56) (s : State) : State :=
  vector x quadForm (fun gr n h =>
      let a := fld n 44 37
      let b := fld n 36 29
      let r := gr.mapQuads n fun l => (f (gr.quad a l) (gr.quad b l), gr.quadP a l || gr.quadP b l)
      { h with v := r.v, vp := r.vp })
    (fun gr n => gr.readP n fun l => gr.quadP (fld n 44 37) l || gr.quadP (fld n 36 29) l) w s

/-- WADD (R53, R176). -/
def execWadd (x : Who) (w : BitVec 56) (s : State) : Host.Outcome State Fault Refusal := .next (quad2 x wAdd w s)
/-- WMUL (R53, R176). -/
def execWmul (x : Who) (w : BitVec 56) (s : State) : Host.Outcome State Fault Refusal := .next (quad2 x wMul w s)

/-- wtree of R145: the canonical tree over values with their poison; the result is written in canonical form (R52), a lone
node's too. -/
def wtree (nodes : List (Wide × Bool)) : Wide × Bool :=
  let r := ((treeFold (fun a b => (wAdd a.1 b.1, a.2 || b.2)) nodes.length nodes).head?).getD (wZero, false)
  (toW (wVal r.1), r.2)

/-- Local-store offset of node `i` of lane `l` (R145). -/
def nodeAt (lb st i l : Nat) : Nat := lb + (i * st + l) * 16

/-- WTREE (R145, R176): VA names the descriptor, IMM bits 9:0 = n - 1. -/
def execWtree (x : Who) (w : BitVec 56) (s : State) : Host.Outcome State Fault Refusal :=
  let n := w.toNat
  let q : VForm := { d := .quad, a := .unif, b := .none, c := .none, flags := false, imm := 1024, usesMk := true }
  let cnt := fld n 9 0 + 1
  let g := x.core
  .next (presentReg x (q.regs n)
    (fun s gr =>
      let de := (gr.unif (fld n 44 37)).toNat
      let lb := fld de 19 0
      let st := fld de 35 20
      if !(q.ok (s.rpl x) n) || lb % 16 ≠ 0 || st < 64 then some (illegal, 0)
      else
        match (gr.onLanes (mkOf n)).find? fun l =>
            !((List.range cnt).all fun i => s.lsOk g (isG x.strm) (nodeAt lb st i l) 16) with
        | some l =>
          match (List.range cnt).find? fun i => !(s.lsOk g (isG x.strm) (nodeAt lb st i l) 16) with
          | some i => some (addrFault, nodeAt lb st i l)
          | none => none
        | none => none)
    (fun s gr =>
      let de := (gr.unif (fld n 44 37)).toNat
      let lb := fld de 19 0
      let st := fld de 35 20
      let on := gr.onLanes (mkOf n)
      let s := on.foldl (fun s l => (List.range cnt).foldl (fun s i => s.scrub (lsAt g (nodeAt lb st i l)) 16) s) s
      let read := on.foldl (fun (p : List (Nat × List (Wide × Bool)) × State) l =>
        let r := (List.range cnt).foldl (fun (q : List (Wide × Bool) × State) i =>
          let b := q.2.lsBytes g (nodeAt lb st i l) 10
          (q.1 ++ [(wOfBytes b.1, s.poisoned (lsAt g (nodeAt lb st i l)) 16)], b.2)) ([], p.2)
        (p.1 ++ [(l, r.1)], r.2)) ([], s)
      let s := read.2
      let node (l : Nat) : Wide × Bool :=
        let r := wtree (((read.1.find? fun e => e.1 = l).map (·.2)).getD [])
        (r.1, r.2 || gr.unifP (fld n 44 37))
      let r := gr.mapQuads n node
      s.regEff x (fun h => { h with v := r.v, vp := r.vp }) (gr.readP n fun l => (node l).2)) s)

end Sys2Proof.Machine
end

