-- ==== Sys2Proof/Machine/Dispatch.lean ====
section
/-! DEFINITION. The effect of each command: one arm per constructor, one meaning per arm. -/

namespace Sys2Proof.Machine

def exec (i : Instr) (s : State) : Host.Outcome State Fault Refusal :=
  match i with
  | .linkFailed c => Sys2Proof.Machine.execLinkFailed c s
  | .registerWrite p off width v => Sys2Proof.Machine.execRegisterWrite p off width v s
  | .nop x w => Sys2Proof.Machine.execNop x w s
  | .umov x w => Sys2Proof.Machine.execUmov x w s
  | .umovh x w => Sys2Proof.Machine.execUmovh x w s
  | .uadd x w => Sys2Proof.Machine.execUadd x w s
  | .usub x w => Sys2Proof.Machine.execUsub x w s
  | .umul x w => Sys2Proof.Machine.execUmul x w s
  | .uand x w => Sys2Proof.Machine.execUand x w s
  | .uor x w => Sys2Proof.Machine.execUor x w s
  | .uxor x w => Sys2Proof.Machine.execUxor x w s
  | .ushl x w => Sys2Proof.Machine.execUshl x w s
  | .ushr x w => Sys2Proof.Machine.execUshr x w s
  | .usar x w => Sys2Proof.Machine.execUsar x w s
  | .umin x w => Sys2Proof.Machine.execUmin x w s
  | .umax x w => Sys2Proof.Machine.execUmax x w s
  | .uslt x w => Sys2Proof.Machine.execUslt x w s
  | .ugid x w => Sys2Proof.Machine.execUgid x w s
  | .br x w => Sys2Proof.Machine.execBr x w s
  | .brc x w => Sys2Proof.Machine.execBrc x w s
  | .brm x w => Sys2Proof.Machine.execBrm x w s
  | .exit x w => Sys2Proof.Machine.execExit x w s
  | .mwait x w => Sys2Proof.Machine.execMwait x w s
  | .unlistedOpcode x w => Sys2Proof.Machine.execUnlistedOpcode x w s
  | .iadd x w => Sys2Proof.Machine.execIadd x w s
  | .isub x w => Sys2Proof.Machine.execIsub x w s
  | .iand x w => Sys2Proof.Machine.execIand x w s
  | .ior x w => Sys2Proof.Machine.execIor x w s
  | .ixor x w => Sys2Proof.Machine.execIxor x w s
  | .ishl x w => Sys2Proof.Machine.execIshl x w s
  | .ishr x w => Sys2Proof.Machine.execIshr x w s
  | .isar x w => Sys2Proof.Machine.execIsar x w s
  | .imov x w => Sys2Proof.Machine.execImov x w s
  | .sel x w => Sys2Proof.Machine.execSel x w s
  | .lid x w => Sys2Proof.Machine.execLid x w s
  | .fabs x w => Sys2Proof.Machine.execFabs x w s
  | .fneg x w => Sys2Proof.Machine.execFneg x w s
  | .icmp x w => Sys2Proof.Machine.execIcmp x w s
  | .fcmp x w => Sys2Proof.Machine.execFcmp x w s
  | .kop x w => Sys2Proof.Machine.execKop x w s
  | .kmovu x w => Sys2Proof.Machine.execKmovu x w s
  | .umovk x w => Sys2Proof.Machine.execUmovk x w s
  | .fadd x w => Sys2Proof.Machine.execFadd x w s
  | .fsub x w => Sys2Proof.Machine.execFsub x w s
  | .fmul x w => Sys2Proof.Machine.execFmul x w s
  | .ffma x w => Sys2Proof.Machine.execFfma x w s
  | .fmin x w => Sys2Proof.Machine.execFmin x w s
  | .fmax x w => Sys2Proof.Machine.execFmax x w s
  | .itof x w => Sys2Proof.Machine.execItof x w s
  | .utof x w => Sys2Proof.Machine.execUtof x w s
  | .ftoi x w => Sys2Proof.Machine.execFtoi x w s
  | .ftou x w => Sys2Proof.Machine.execFtou x w s
  | .widh x w => Sys2Proof.Machine.execWidh x w s
  | .widb x w => Sys2Proof.Machine.execWidb x w s
  | .fexp2 x w => Sys2Proof.Machine.execFexp2 x w s
  | .flog2 x w => Sys2Proof.Machine.execFlog2 x w s
  | .frcp x w => Sys2Proof.Machine.execFrcp x w s
  | .frsq x w => Sys2Proof.Machine.execFrsq x w s
  | .fdiv x w => Sys2Proof.Machine.execFdiv x w s
  | .fsqrt x w => Sys2Proof.Machine.execFsqrt x w s
  | .perm x w => Sys2Proof.Machine.execPerm x w s
  | .bcst x w => Sys2Proof.Machine.execBcst x w s
  | .rdl x w => Sys2Proof.Machine.execRdl x w s
  | .wadd x w => Sys2Proof.Machine.execWadd x w s
  | .wmul x w => Sys2Proof.Machine.execWmul x w s
  | .wtree x w => Sys2Proof.Machine.execWtree x w s
  | .ld x w => Sys2Proof.Machine.execLd x w s
  | .ldh x w => Sys2Proof.Machine.execLdh x w s
  | .ldb x w => Sys2Proof.Machine.execLdb x w s
  | .st x w => Sys2Proof.Machine.execSt x w s
  | .ldu x w => Sys2Proof.Machine.execLdu x w s
  | .stu x w => Sys2Proof.Machine.execStu x w s
  | .atom x w => Sys2Proof.Machine.execAtom x w s
  | .fence x w => Sys2Proof.Machine.execFence x w s
  | .pfset x w => Sys2Proof.Machine.execPfset x w s
  | .cvt x w => Sys2Proof.Machine.execCvt x w s
  | .castl x w => Sys2Proof.Machine.execCastl x w s
  | .casts x w => Sys2Proof.Machine.execCasts x w s
  | .castm x w => Sys2Proof.Machine.execCastm x w s
  | .rcset x w => Sys2Proof.Machine.execRcset x w s
  | .rcget x w => Sys2Proof.Machine.execRcget x w s
  | .rcclr x w => Sys2Proof.Machine.execRcclr x w s
  | .mload x w => Sys2Proof.Machine.execMload x w s
  | .mstream x w => Sys2Proof.Machine.execMstream x w s
  | .mdrain x w => Sys2Proof.Machine.execMdrain x w s
  | .lcmk x w => Sys2Proof.Machine.execLcmk x w s
  | .bar x w => Sys2Proof.Machine.execBar x w s
  | .signal x w => Sys2Proof.Machine.execSignal x w s
  | .swait x w => Sys2Proof.Machine.execSwait x w s
  | .dma x w => Sys2Proof.Machine.execDma x w s
  | .qput x w => Sys2Proof.Machine.execQput x w s
  | .qtake x w => Sys2Proof.Machine.execQtake x w s
  | .rnext x w => Sys2Proof.Machine.execRnext x w s
  | .rfree x w => Sys2Proof.Machine.execRfree x w s
  | .loadResponse id => Sys2Proof.Machine.execLoadResponse id s
  | .atomResponse id => Sys2Proof.Machine.execAtomResponse id s
  | .storeAcknowledgement id => Sys2Proof.Machine.execStoreAcknowledgement id s
  | .mloadGrant g => Sys2Proof.Machine.execMloadGrant g s
  | .planeReady g pl => Sys2Proof.Machine.execPlaneReady g pl s
  | .mstreamGrant g => Sys2Proof.Machine.execMstreamGrant g s
  | .edgeLanding g => Sys2Proof.Machine.execEdgeLanding g s
  | .mdrainGrant g => Sys2Proof.Machine.execMdrainGrant g s
  | .arrayZeroingEnd g => Sys2Proof.Machine.execArrayZeroingEnd g s
  | .mxclrGate g => Sys2Proof.Machine.execMxclrGate g s
  | .mxclrVec g => Sys2Proof.Machine.execMxclrVec g s
  | .mxclrEdge g => Sys2Proof.Machine.execMxclrEdge g s
  | .mxclrAln g => Sys2Proof.Machine.execMxclrAln g s
  | .rcclrClear g slot => Sys2Proof.Machine.execRcclrClear g slot s
  | .exclrAtom g => Sys2Proof.Machine.execExclrAtom g s
  | .exclrIssue g => Sys2Proof.Machine.execExclrIssue g s
  | .syncclrPoll g => Sys2Proof.Machine.execSyncclrPoll g s
  | .launchAccept g guest => Sys2Proof.Machine.execLaunchAccept g guest s
  | .splitZeroingEnd g => Sys2Proof.Machine.execSplitZeroingEnd g s
  | .guaranteedModeStart g => Sys2Proof.Machine.execGuaranteedModeStart g s
  | .guaranteedModeEnd g => Sys2Proof.Machine.execGuaranteedModeEnd g s
  | .sequencerMismatch g st => Sys2Proof.Machine.execSequencerMismatch g st s
  | .quarantineReset g => Sys2Proof.Machine.execQuarantineReset g s
  | .cacheFill id => Sys2Proof.Machine.execCacheFill id s
  | .llcRequest id => Sys2Proof.Machine.execLlcRequest id s
  | .nearMemoryRequest id => Sys2Proof.Machine.execNearMemoryRequest id s
  | .prefetchLineRequest g => Sys2Proof.Machine.execPrefetchLineRequest g s
  | .bankSlot c slot => Sys2Proof.Machine.execBankSlot c slot s
  | .dramDataArrival line => Sys2Proof.Machine.execDramDataArrival line s
  | .refreshSlot c status shorter => Sys2Proof.Machine.execRefreshSlot c status shorter s
  | .scrubSlot c => Sys2Proof.Machine.execScrubSlot c s
  | .backingRestoreComplete line => Sys2Proof.Machine.execBackingRestoreComplete line s
  | .dgctlSnap m mask => Sys2Proof.Machine.execDgctlSnap m mask s
  | .msdClrRest m => Sys2Proof.Machine.execMsdClrRest m s
  | .msdClrPois m => Sys2Proof.Machine.execMsdClrPois m s
  | .msdClrLlc m => Sys2Proof.Machine.execMsdClrLlc m s
  | .chnClrPin c => Sys2Proof.Machine.execChnClrPin c s
  | .chnClrScrub c => Sys2Proof.Machine.execChnClrScrub c s
  | .chnClrRs c => Sys2Proof.Machine.execChnClrRs c s
  | .barrierArrival id => Sys2Proof.Machine.execBarrierArrival id s
  | .barrierDeparture id => Sys2Proof.Machine.execBarrierDeparture id s
  | .signalUpdate id => Sys2Proof.Machine.execSignalUpdate id s
  | .pollReturn id => Sys2Proof.Machine.execPollReturn id s
  | .watchdogFault x => Sys2Proof.Machine.execWatchdogFault x s
  | .dmaStart g e => Sys2Proof.Machine.execDmaStart g e s
  | .dmaSignalUpdate g e => Sys2Proof.Machine.execDmaSignalUpdate g e s
  | .landingNotice src tsl gen => Sys2Proof.Machine.execLandingNotice src tsl gen s
  | .remoteRequestIntake id => Sys2Proof.Machine.execRemoteRequestIntake id s
  | .flitSlot p => Sys2Proof.Machine.execFlitSlot p s
  | .dataFlit p fec flit => Sys2Proof.Machine.execDataFlit p fec flit s
  | .keepalive p fec flit => Sys2Proof.Machine.execKeepalive p fec flit s
  | .skip p fec flit => Sys2Proof.Machine.execSkip p fec flit s
  | .idle p fec flit => Sys2Proof.Machine.execIdle p fec flit s
  | .keepaliveTimeout p => Sys2Proof.Machine.execKeepaliveTimeout p s
  | .electricalIdle p => Sys2Proof.Machine.execElectricalIdle p s
  | .portTraining p ok c => Sys2Proof.Machine.execPortTraining p ok c s
  | .moduleStartTimeout p => Sys2Proof.Machine.execModuleStartTimeout p s
  | .portUp p => Sys2Proof.Machine.execPortUp p s
  | .rd p m => Sys2Proof.Machine.execRd p m s
  | .wr p m => Sys2Proof.Machine.execWr p m s
  | .wrm p m => Sys2Proof.Machine.execWrm p m s
  | .atomMessage p m => Sys2Proof.Machine.execAtomMessage p m s
  | .floor p m => Sys2Proof.Machine.execFloor p m s
  | .cmp p m => Sys2Proof.Machine.execCmp p m s
  | .rdrsp p m => Sys2Proof.Machine.execRdrsp p m s
  | .atrsp p m => Sys2Proof.Machine.execAtrsp p m s
  | .unreach p m => Sys2Proof.Machine.execUnreach p m s
  | .unknownOpcodeMessage p m => Sys2Proof.Machine.execUnknownOpcodeMessage p m s
  | .floorSend d => Sys2Proof.Machine.execFloorSend d s
  | .copyAgeDiscard p m => Sys2Proof.Machine.execCopyAgeDiscard p m s
  | .lnkCtlEn p en => Sys2Proof.Machine.execLnkCtlEn p en s
  | .portReset p => Sys2Proof.Machine.execPortReset p s
  | .lnkClrFlit p => Sys2Proof.Machine.execLnkClrFlit p s
  | .lnkClrDrop p => Sys2Proof.Machine.execLnkClrDrop p s
  | .lnkClrReject p => Sys2Proof.Machine.execLnkClrReject p s
  | .lnkClrDown p => Sys2Proof.Machine.execLnkClrDown p s
  | .lnkClrReplay p => Sys2Proof.Machine.execLnkClrReplay p s
  | .lnkClrFec p => Sys2Proof.Machine.execLnkClrFec p s
  | .lnkNodeWrite v => Sys2Proof.Machine.execLnkNodeWrite v s
  | .lnkRouteWrite d mask => Sys2Proof.Machine.execLnkRouteWrite d mask s
  | .jobCommit f => Sys2Proof.Machine.execJobCommit f s
  | .gradientMark m => Sys2Proof.Machine.execGradientMark m s
  | .layerReductionStart lad g layer => Sys2Proof.Machine.execLayerReductionStart lad g layer s
  | .leaf p m cr => Sys2Proof.Machine.execLeaf p m cr s
  | .part p m cr => Sys2Proof.Machine.execPart p m cr s
  | .late p m cr => Sys2Proof.Machine.execLate p m cr s
  | .lateCreditReturn lad g => Sys2Proof.Machine.execLateCreditReturn lad g s
  | .layerAbandon lad g layer => Sys2Proof.Machine.execLayerAbandon lad g layer s
  | .updateMark m => Sys2Proof.Machine.execUpdateMark m s
  | .tund p m => Sys2Proof.Machine.execTund p m s
  | .ldlClrChk lad => Sys2Proof.Machine.execLdlClrChk lad s
  | .ldlClrNf lad => Sys2Proof.Machine.execLdlClrNf lad s
  | .ldlClrLate lad => Sys2Proof.Machine.execLdlClrLate lad s
  | .ldlClrDup lad => Sys2Proof.Machine.execLdlClrDup lad s
  | .ldlClrStale lad => Sys2Proof.Machine.execLdlClrStale lad s
  | .ldlGcfgWrite g v => Sys2Proof.Machine.execLdlGcfgWrite g v s
  | .runClrDup lad => Sys2Proof.Machine.execRunClrDup lad s
  | .rblkSend ctx => Sys2Proof.Machine.execRblkSend ctx s
  | .rblk p m => Sys2Proof.Machine.execRblk p m s
  | .rcrd p m => Sys2Proof.Machine.execRcrd p m s
  | .qrdy p m => Sys2Proof.Machine.execQrdy p m s
  | .qcrd p m => Sys2Proof.Machine.execQcrd p m s
  | .ldlVcfgWrite v val => Sys2Proof.Machine.execLdlVcfgWrite v val s
  | .bindingNotice f g => Sys2Proof.Machine.execBindingNotice f g s
  | .stepEventNotice k => Sys2Proof.Machine.execStepEventNotice k s
  | .faultNotice k => Sys2Proof.Machine.execFaultNotice k s
  | .stepEndPoll v => Sys2Proof.Machine.execStepEndPoll v s
  | .riserCopyComplete v => Sys2Proof.Machine.execRiserCopyComplete v s
  | .moduleTerm v => Sys2Proof.Machine.execModuleTerm v s
  | .voteUp p m => Sys2Proof.Machine.execVoteUp p m s
  | .voteWaitExpiry v level => Sys2Proof.Machine.execVoteWaitExpiry v level s
  | .voteDecision p m => Sys2Proof.Machine.execVoteDecision p m s
  | .probeTimer v => Sys2Proof.Machine.execProbeTimer v s
  | .jobctlProbe p m => Sys2Proof.Machine.execJobctlProbe p m s
  | .jobctlAbort p m => Sys2Proof.Machine.execJobctlAbort p m s
  | .stepCompletion v => Sys2Proof.Machine.execStepCompletion v s
  | .completionNotice f g => Sys2Proof.Machine.execCompletionNotice f g s
  | .strikeQuarantine g => Sys2Proof.Machine.execStrikeQuarantine g s
  | .replayResponsePoll v => Sys2Proof.Machine.execReplayResponsePoll v s
  | .replayTimeout v => Sys2Proof.Machine.execReplayTimeout v s
  | .pourFinish v step => Sys2Proof.Machine.execPourFinish v step s
  | .riserRestore v cmd => Sys2Proof.Machine.execRiserRestore v cmd s
  | .evalHold f hold => Sys2Proof.Machine.execEvalHold f hold s
  | .tbarWrite f v => Sys2Proof.Machine.execTbarWrite f v s
  | .cxlMemRead ld dpa => Sys2Proof.Machine.execCxlMemRead ld dpa s
  | .cxlMemWrite ld dpa data mask poi => Sys2Proof.Machine.execCxlMemWrite ld dpa data mask poi s
  | .identify => Sys2Proof.Machine.execIdentify s
  | .getLdInfo => Sys2Proof.Machine.execGetLdInfo s
  | .getLdAllocations => Sys2Proof.Machine.execGetLdAllocations s
  | .setLdAllocations alloc => Sys2Proof.Machine.execSetLdAllocations alloc s
  | .getQosControl => Sys2Proof.Machine.execGetQosControl s
  | .unsupportedCommand ld code => Sys2Proof.Machine.execUnsupportedCommand ld code s
  | .getEventRecords ld log => Sys2Proof.Machine.execGetEventRecords ld log s
  | .clearEventRecords ld log handles => Sys2Proof.Machine.execClearEventRecords ld log handles s
  | .getEventInterruptPolicy ld => Sys2Proof.Machine.execGetEventInterruptPolicy ld s
  | .setEventInterruptPolicy ld policy => Sys2Proof.Machine.execSetEventInterruptPolicy ld policy s
  | .getFwInfo ld => Sys2Proof.Machine.execGetFwInfo ld s
  | .getSupportedLogs ld => Sys2Proof.Machine.execGetSupportedLogs ld s
  | .getLog ld => Sys2Proof.Machine.execGetLog ld s
  | .identifyMemoryDevice ld => Sys2Proof.Machine.execIdentifyMemoryDevice ld s
  | .getHealthInfo ld => Sys2Proof.Machine.execGetHealthInfo ld s
  | .getPoisonList ld dpa len => Sys2Proof.Machine.execGetPoisonList ld dpa len s
  | .clearPoison ld dpa data => Sys2Proof.Machine.execClearPoison ld dpa data s
  | .discovery ld => Sys2Proof.Machine.execDiscovery ld s
  | .cxlTableAccess ld => Sys2Proof.Machine.execCxlTableAccess ld s
  | .ideIntegrityFailure => Sys2Proof.Machine.execIdeIntegrityFailure s
  | .queueEnable f v => Sys2Proof.Machine.execQueueEnable f v s
  | .sqDoorbell f v => Sys2Proof.Machine.execSqDoorbell f v s
  | .cqHeadWrite f v => Sys2Proof.Machine.execCqHeadWrite f v s
  | .descriptorTake f => Sys2Proof.Machine.execDescriptorTake f s
  | .seqReread f => Sys2Proof.Machine.execSeqReread f s
  | .queueNop f => Sys2Proof.Machine.execQueueNop f s
  | .launch f => Sys2Proof.Machine.execLaunch f s
  | .glaunch f => Sys2Proof.Machine.execGlaunch f s
  | .queueSignal f => Sys2Proof.Machine.execQueueSignal f s
  | .wait f => Sys2Proof.Machine.execWait f s
  | .waitPoll f => Sys2Proof.Machine.execWaitPoll f s
  | .waitTimeout f => Sys2Proof.Machine.execWaitTimeout f s
  | .copy f => Sys2Proof.Machine.execCopy f s
  | .save f => Sys2Proof.Machine.execSave f s
  | .restore f => Sys2Proof.Machine.execRestore f s
  | .launchComplete f tag => Sys2Proof.Machine.execLaunchComplete f tag s
  | .imodTimer f => Sys2Proof.Machine.execImodTimer f s
  | .shakeOut f => Sys2Proof.Machine.execShakeOut f s
  | .shakeOutDrainEnd f => Sys2Proof.Machine.execShakeOutDrainEnd f s
  | .ldReset f => Sys2Proof.Machine.execLdReset f s
  | .qclrHerr f => Sys2Proof.Machine.execQclrHerr f s
  | .cxlPerst low => Sys2Proof.Machine.execCxlPerst low s
  | .cxlLinkStateChange up width speed bound => Sys2Proof.Machine.execCxlLinkStateChange up width speed bound s
  | .powerOnResetRelease => Sys2Proof.Machine.execPowerOnResetRelease s
  | .parameterTableRead ok => Sys2Proof.Machine.execParameterTableRead ok s
  | .slotHeadersRead => Sys2Proof.Machine.execSlotHeadersRead s
  | .imageRead => Sys2Proof.Machine.execImageRead s
  | .signatureVerify => Sys2Proof.Machine.execSignatureVerify s
  | .pllLockAndLinkTraining pllOk linksOk taps failed => Sys2Proof.Machine.execPllLockAndLinkTraining pllOk linksOk taps failed s
  | .lpddr6Training ok => Sys2Proof.Machine.execLpddr6Training ok s
  | .dramZeroing => Sys2Proof.Machine.execDramZeroing s
  | .registerLoad => Sys2Proof.Machine.execRegisterLoad s
  | .imageBegin m => Sys2Proof.Machine.execImageBegin m s
  | .imageWrite m => Sys2Proof.Machine.execImageWrite m s
  | .imageEnd m => Sys2Proof.Machine.execImageEnd m s
  | .getId m => Sys2Proof.Machine.execGetId m s
  | .getMeas m => Sys2Proof.Machine.execGetMeas m s
  | .keyExch m => Sys2Proof.Machine.execKeyExch m s
  | .secure m => Sys2Proof.Machine.execSecure m s
  | .endSession m => Sys2Proof.Machine.execEndSession m s
  | .unknownCode m => Sys2Proof.Machine.execUnknownCode m s
  | .identitySignature => Sys2Proof.Machine.execIdentitySignature s
  | .jobInstall m => Sys2Proof.Machine.execJobInstall m s
  | .jobInstallVerify => Sys2Proof.Machine.execJobInstallVerify s
  | .jobInstallWrite => Sys2Proof.Machine.execJobInstallWrite s
  | .auth m => Sys2Proof.Machine.execAuth m s
  | .authCheckComplete sess => Sys2Proof.Machine.execAuthCheckComplete sess s
  | .regRead m => Sys2Proof.Machine.execRegRead m s
  | .regWrite m => Sys2Proof.Machine.execRegWrite m s
  | .recGet m => Sys2Proof.Machine.execRecGet m s
  | .recAck m => Sys2Proof.Machine.execRecAck m s
  | .telem m => Sys2Proof.Machine.execTelem m s
  | .telemetrySend => Sys2Proof.Machine.execTelemetrySend s
  | .managementDatagram src d => Sys2Proof.Machine.execManagementDatagram src d s
  | .reassemblyTimeout src mid => Sys2Proof.Machine.execReassemblyTimeout src mid s
  | .neighbourDiscovery src kind target => Sys2Proof.Machine.execNeighbourDiscovery src kind target s
  | .setdasa static dyn => Sys2Proof.Machine.execSetdasa static dyn s
  | .entdaa dyn => Sys2Proof.Machine.execEntdaa dyn s
  | .fatalRecordResend => Sys2Proof.Machine.execFatalRecordResend s
  | .ethernetLinkUp => Sys2Proof.Machine.execEthernetLinkUp s
  | .errClrRdrop => Sys2Proof.Machine.execErrClrRdrop s
  | .errClrCc => Sys2Proof.Machine.execErrClrCc s
  | .errClrLs => Sys2Proof.Machine.execErrClrLs s
  | .pllLockLoss u => Sys2Proof.Machine.execPllLockLoss u s
  | .crystalLoss => Sys2Proof.Machine.execCrystalLoss s
  | .wakeEvent g => Sys2Proof.Machine.execWakeEvent g s
  | .wakeComplete g => Sys2Proof.Machine.execWakeComplete g s
  | .holdEntry g => Sys2Proof.Machine.execHoldEntry g s
  | .napEntry k => Sys2Proof.Machine.execNapEntry k s
  | .restEntry k => Sys2Proof.Machine.execRestEntry k s
  | .coldEntry k => Sys2Proof.Machine.execColdEntry k s
  | .pwrCmdWake => Sys2Proof.Machine.execPwrCmdWake s
  | .pwrCmdStandby => Sys2Proof.Machine.execPwrCmdStandby s
  | .rotaStop c => Sys2Proof.Machine.execRotaStop c s
  | .standbyExit => Sys2Proof.Machine.execStandbyExit s
  | .rotaRestart => Sys2Proof.Machine.execRotaRestart s
  | .powerWindowEnd watts volts temps => Sys2Proof.Machine.execPowerWindowEnd watts volts temps s
  | .thermalTrip dram temp => Sys2Proof.Machine.execThermalTrip dram temp s
  | .rstCmdModule => Sys2Proof.Machine.execRstCmdModule s
  | .moduleResetPin low => Sys2Proof.Machine.execModuleResetPin low s
  | .inputRising => Sys2Proof.Machine.execInputRising s
  | .undervoltage => Sys2Proof.Machine.execUndervoltage s
  | .overvoltage => Sys2Proof.Machine.execOvervoltage s
  | .overcurrent => Sys2Proof.Machine.execOvercurrent s
  | .powerOnResetAssert => Sys2Proof.Machine.execPowerOnResetAssert s
  | .hardwareShutdown die temp => Sys2Proof.Machine.execHardwareShutdown die temp s
  | .leakDetected => Sys2Proof.Machine.execLeakDetected s
  | .cageInsertion p c => Sys2Proof.Machine.execCageInsertion p c s
  | .cageRemoval p => Sys2Proof.Machine.execCageRemoval p s
  | .cageOvercurrent p => Sys2Proof.Machine.execCageOvercurrent p s
  | .moduleResetRelease => Sys2Proof.Machine.execModuleResetRelease s
  | .alwaysOnSupplyStart => Sys2Proof.Machine.execAlwaysOnSupplyStart s
  | .alwaysOnSupplyLoss => Sys2Proof.Machine.execAlwaysOnSupplyLoss s
  | .apertureAccess id => Sys2Proof.Machine.execApertureAccess id s
  | .broadcastWaitExpiry lad g layer => Sys2Proof.Machine.execBroadcastWaitExpiry lad g layer s
  | .cmisModuleReady p => Sys2Proof.Machine.execCmisModuleReady p s
  | .configurationRequest ld off write v => Sys2Proof.Machine.execConfigurationRequest ld off write v s
  | .msixTableWrite ld vec entry => Sys2Proof.Machine.execMsixTableWrite ld vec entry s
  | .ethernetLinkDown => Sys2Proof.Machine.execEthernetLinkDown s

end Sys2Proof.Machine
end

