-- ==== Sys2Proof/Machine/Tick.lean ====
section
/-! DEFINITION. One ac with no command: the counters that time drives (R487, R497, R542), the counts of waits (R290), and the
errors that arise in stored bits (R107, R195, R201, R210, R223). -/

namespace Sys2Proof.Machine

/-- A latent error arises, or none: 1 a local-store word, 2 an edge entry, 3 a core-cache word, 4 an LLC sector, 5 a symbol of
a DRAM access, 6 the parity of a plane's row. Kinds 1 to 4 carry 1 single-bit or 2 double-bit. -/
def State.upset (s : State) (u : Nat × Nat × Nat × Nat) : State :=
  let k := u.2.1
  let n := 1 + u.2.2.1 % 2
  match u.1 with
  | 1 =>
    let w := (aper (k % 4096) + 4 * (k / 4096 % 131072)) / 4
    { s with m := { s.m with lerr := Sparse.set 0 s.m.lerr w n } }
  | 2 => { s with m := { s.m with eerr := Sparse.set 0 s.m.eerr (k % 2 ^ 26) n } }
  | 3 => { s with m := { s.m with cerr := Sparse.set 0 s.m.cerr (k % 2 ^ 29) n } }
  | 4 =>
    if s.m.llc.any fun e => e.line = k / 4 then { s with m := { s.m with serr := Sparse.set 0 s.m.serr k n } } else s
  | 5 =>
    let a := k % (dramEnd / 64)
    let e := Sparse.get [] s.m.derr a
    let x := u.2.2.1 % 72
    { s with m := { s.m with derr := Sparse.set [] s.m.derr a (e.filter (fun y => y.1 ≠ x) ++ [(x, 1 + u.2.2.2 % 255)]) } }
  | 6 =>
    s.modCore (k % 4096) fun c =>
      { c with planes := c.planes.set (k / 4096 % 2) { c.plane (k / 4096 % 2) with
          bad := NSet.add (u.2.2.1 % 64) (c.plane (k / 4096 % 2)).bad } }
  | _ => s

/-- Cluster clocks have been started: boot stage 6 has run, and no module reset holds the module (R468, R485). -/
def State.clocked (s : State) : Bool := s.pins.mrst = 0 && (s.booted || s.mgt.boot.six)

/-- A running cluster's counts: its live fc and its skipped fc of this ac; one whose clock does not run yet (R487) comes an ac
nearer to it. -/
def State.tickCluster (s : State) (k : Nat) : State :=
  if s.clu k ≠ 0 then s
  else if Sparse.get 0 s.pwr.lock k ≠ 0 then
    { s with pwr := { s.pwr with lock := Sparse.set 0 s.pwr.lock k (Sparse.get 0 s.pwr.lock k - 1) } }
  else
    let l := s.rf .PSTAT 0 0 6 0
    (s.addWrap .FCNT k 0 (144 - l)).addWrap .SKIP k 0 l

/-- The waits of a running core count their fc, and what its casts wrote is settled (R186). -/
def Core.tick (n : Nat) (c : Core) : Core :=
  if c.power ≠ 0 then c
  else { c with fresh := [], groups := c.groups.map fun gr => { gr with wait := gr.wait.map fun w => { w with count := w.count + n } } }

/-- One ac passes; stage 1 of boot takes 16 (R468, R480). -/
def State.tick (s : State) : State :=
  if !s.pins.alive || s.pins.por then s
  else
    let s := { s with acnt := s.acnt + 1 }
    if !s.powered then s
    else
      let n := 144 - s.rf .PSTAT 0 0 6 0
      let s := if s.mgt.boot.at' = 1 ∧ s.rf .BOOT 0 0 3 0 = 1 ∧ s.mgt.boot.start + 16 ≤ s.acnt then s.wf .BOOT 0 0 3 0 2 else s
      let s := if s.clocked then (List.range 64).foldl State.tickCluster s else s
      let u := Config.upset s.freeCtr
      State.upset { s with cores := s.cores.map fun e => (e.1, e.2.tick n), freeCtr := s.freeCtr + 1 } u

end Sys2Proof.Machine
end

