-- ==== Sys2Proof/Safety.lean ====
section
/-! DEFINITION. The terms the statements about the block are written in: memory in canonical form, a group that may issue, what the
issue of an instruction leaves alone. -/

namespace Sys2Proof.Machine

/-- Memory is in its canonical form: offsets strictly rising, no byte listed that reads as an unlisted one does. -/
abbrev Memory.wf (m : List Host.Cell) : Prop := Sparse.wf 0 m

/-- A poison set lists each granule once, rising. -/
abbrev Poison.wf (p : List Nat) : Prop := p.Pairwise (· < ·)

/-- Group `x` is resident as `gr`, its stream runs, its program counter lies in its fetch region, and nothing keeps an
instruction with the registers `regs` from issuing (R135, R162, R168); `memSyn` for a MEM or SYN instruction, which
also waits for the group's acquires (R254). -/
structure Issues (s : State) (x : Who) (gr : Group) (memSyn : Bool) (regs : List Nat) : Prop where
  here : s.group x = some gr
  runs : (s.core x.core).runs x.strm = true
  fetch : s.fetchOk x gr.pc = true
  free : gr.held memSyn regs = false

/-- What the issue of an instruction that only changes its own group does, from `s` to `t` (R132, R135, R160): the group goes
from `gr` to `gr'`; COR_ISSUE of the stream counts one; the stream's round-robin pointer is the group; POIS leaves for
the home die when `p`; every other group, core, register, byte and unit is as it was (COR_GSTARVE may change, R141). -/
structure Retired (x : Who) (gr' : Group) (p : Bool) (s t : State) : Prop where
  only : t = { s with regs := t.regs, cores := t.cores, notices := t.notices }
  count : t.rd .ISSUE x.core (streamNum x.strm) = s.rd .ISSUE x.core (streamNum x.strm) + 1
  regs : ∀ d k, k ≠ Reg.key .ISSUE x.core (streamNum x.strm) → k ≠ Reg.key .GSTARVE x.core 0 →
    Sparse.get d t.regs k = Sparse.get d s.regs k
  group : t.group x = some gr'
  peers : ∀ y, y ≠ x → t.group y = s.group y
  others : ∀ g, g ≠ x.core → t.core g = s.core g
  core : t.core x.core = { s.core x.core with
    groups := (t.core x.core).groups, lastq := (s.core x.core).lastq.set (streamNum x.strm) x.grp }
  notes : t.notices = s.notices ++ if p then [.stepEv (s.flaskOf x) 0] else []

end Sys2Proof.Machine
end

