-- ==== Sys2Proof/Certificates/Slice0/Obligations.lean ====
section
/-! DEFINITION. The statements about the block, for the provers. Each cites the rules of spec/ it formalises. -/

open Sys2Proof Sys2Proof.Machine

namespace Sys2Proof.Machine

/-! ### Vocabulary of the instruction statements -/

/-- The group after the sequential advance of R138, but for what its instruction wrote in its registers. -/
def Advanced (gr gr' : Group) : Prop :=
  gr' = { gr with pc := gr.pc + 8, win := max gr.win (gr.pc - 256), v := gr'.v, vp := gr'.vp, k := gr'.k, kp := gr'.kp,
                  u := gr'.u, up := gr'.up }

/-- No lane register and no mask register changed. -/
def KeepsLanes (gr gr' : Group) : Prop := gr'.v = gr.v ∧ gr'.vp = gr.vp ∧ gr'.k = gr.k ∧ gr'.kp = gr.kp

/-- Uniform register `d` alone was written: with `v`, poisoned when `p` (R131). -/
def WroteUnif (gr gr' : Group) (d : Nat) (v : Word64) (p : Bool) : Prop :=
  Advanced gr gr' ∧ KeepsLanes gr gr' ∧ gr'.unif d = v ∧ gr'.unifP d = p
    ∧ ∀ i, i ≠ d → gr'.unif i = gr.unif i ∧ gr'.unifP i = gr.unifP i

/-- What a fault at issue does, from `s` to `t` (R133): the issue is counted, every stream of the faulting flask on that core is
stopped (a quarantined one stays so), a fault notice leaves, and nothing else changes: no group, no other core, no register but
COR_ISSUE and COR_GSTARVE, no byte. -/
structure Faulted (x : Who) (cause pc addr : Nat) (s t : State) : Prop where
  only : t = { s with regs := t.regs, cores := t.cores, notices := t.notices }
  count : t.rd .ISSUE x.core (streamNum x.strm) = s.rd .ISSUE x.core (streamNum x.strm) + 1
  regs : ∀ d k, k ≠ Reg.key .ISSUE x.core (streamNum x.strm) → k ≠ Reg.key .GSTARVE x.core 0 →
    Sparse.get d t.regs k = Sparse.get d s.regs k
  groups : ∀ y, t.group y = s.group y
  others : ∀ g, g ≠ x.core → t.core g = s.core g
  core : t.core x.core = { s.core x.core with stop := (t.core x.core).stop }
  stopped : ∀ st, isG st = isG x.strm → (s.core x.core).runs st = true → (t.core x.core).runs st = false
  notes : t.notices = s.notices ++ [.fault (s.flaskOf x) cause x.core x.strm x.grp pc addr]

/-- The opcode map of R175. -/
def opcodeCtl : List (Nat × (Who → BitVec 56 → Instr)) :=
  [(0x00, .nop), (0x01, .umov), (0x02, .umovh), (0x03, .uadd), (0x04, .usub), (0x05, .umul), (0x06, .uand), (0x07, .uor),
   (0x08, .uxor), (0x09, .ushl), (0x0A, .ushr), (0x0B, .usar), (0x0C, .umin), (0x0D, .umax), (0x0E, .uslt), (0x0F, .ugid),
   (0x10, .br), (0x11, .brc), (0x12, .brm), (0x13, .exit), (0x14, .mwait)]

/-- The opcode map of R176. -/
def opcodeVec : List (Nat × (Who → BitVec 56 → Instr)) :=
  [(0x20, .iadd), (0x21, .isub), (0x22, .iand), (0x23, .ior), (0x24, .ixor), (0x25, .ishl), (0x26, .ishr), (0x27, .isar),
   (0x28, .imov), (0x29, .sel), (0x2A, .lid), (0x2B, .fabs), (0x2C, .fneg), (0x2D, .icmp), (0x2E, .fcmp), (0x2F, .kop),
   (0x30, .kmovu), (0x31, .umovk), (0x32, .fadd), (0x33, .fsub), (0x34, .fmul), (0x35, .ffma), (0x36, .fmin), (0x37, .fmax),
   (0x38, .itof), (0x39, .utof), (0x3A, .ftoi), (0x3B, .ftou), (0x3C, .widh), (0x3D, .widb), (0x3E, .fexp2), (0x3F, .flog2),
   (0x40, .frcp), (0x41, .frsq), (0x42, .fdiv), (0x43, .fsqrt), (0x44, .perm), (0x45, .bcst), (0x46, .rdl), (0x47, .wadd),
   (0x48, .wmul), (0x49, .wtree)]

/-- The opcode map of R177. -/
def opcodeMem : List (Nat × (Who → BitVec 56 → Instr)) :=
  [(0x60, .ld), (0x61, .ldh), (0x62, .ldb), (0x63, .st), (0x64, .ldu), (0x65, .stu), (0x66, .atom), (0x67, .fence),
   (0x68, .pfset), (0x70, .cvt), (0x71, .castl), (0x72, .casts), (0x73, .castm), (0x74, .rcset), (0x75, .rcget),
   (0x76, .rcclr), (0x80, .mload), (0x81, .mstream), (0x82, .mdrain), (0x90, .lcmk), (0x91, .bar), (0x92, .signal),
   (0x93, .swait), (0x94, .dma), (0x95, .qput), (0x96, .qtake), (0x97, .rnext), (0x98, .rfree)]

/-- The opcode map (R175 to R177): each opcode and its row. -/
def opcodeMap : List (Nat × (Who → BitVec 56 → Instr)) := opcodeCtl ++ opcodeVec ++ opcodeMem

/-- A two-operand uniform row: for every legal word whose group may issue, it completes with `f ua s` in ud. -/
def uniformRow (c : Who → BitVec 56 → Instr) (f : Word64 → Word64 → Word64) : Prop :=
  ∀ (x : Who) (w : BitVec 56) (s : State) (gr : Group),
    Issues s x gr false (uForm2.regs w.toNat) → fld w.toNat 39 32 = 0 →
    (if bit w.toNat 40 = 1 then fld w.toNat 45 41 = 0 else fld w.toNat 31 0 = 0) →
    let ua := gr.unif (fld w.toNat 50 46)
    let sv := if bit w.toNat 40 = 1 then (BitVec.ofNat 32 w.toNat).signExtend 64 else gr.unif (fld w.toNat 45 41)
    let p := gr.unifP (fld w.toNat 50 46) || (bit w.toNat 40 = 0 && gr.unifP (fld w.toNat 45 41))
    ∃ t gr', exec (c x w) s = .next t ∧ Retired x gr' p (s.fetched x gr.pc) t
      ∧ WroteUnif gr gr' (fld w.toNat 55 51) (f ua sv) p

/-- A row that breaks R163 faults. -/
def illegalRow (c : Who → BitVec 56 → Instr) (regs : Nat → List Nat) (bad : Nat → Prop) : Prop :=
  ∀ (x : Who) (w : BitVec 56) (s : State) (gr : Group), Issues s x gr false (regs w.toNat) → bad w.toNat →
    ∃ t, exec (c x w) s = .next t ∧ Faulted x 1 gr.pc 0 (s.fetched x gr.pc) t

end Sys2Proof.Machine

/-- R175: UADD to USLT complete with ud = ua op s over 64 bits, and change nothing else of the group or the machine. -/
def Obligations.UniformArithmetic : Prop :=
  uniformRow .uadd (fun a b => BitVec.ofNat 64 (a.toNat + b.toNat))
  ∧ uniformRow .usub (fun a b => BitVec.ofInt 64 ((a.toNat : Int) - b.toNat))
  ∧ uniformRow .umul (fun a b => BitVec.ofNat 64 (a.toNat * b.toNat))
  ∧ uniformRow .uand (fun a b => a &&& b) ∧ uniformRow .uor (fun a b => a ||| b) ∧ uniformRow .uxor (fun a b => a ^^^ b)
  ∧ uniformRow .ushl (fun a b => BitVec.ofNat 64 (a.toNat * 2 ^ (b.toNat % 64)))
  ∧ uniformRow .ushr (fun a b => BitVec.ofNat 64 (a.toNat / 2 ^ (b.toNat % 64)))
  ∧ uniformRow .usar (fun a b => BitVec.ofInt 64 (a.toInt / 2 ^ (b.toNat % 64)))
  ∧ uniformRow .umin (fun a b => if a.toInt ≤ b.toInt then a else b)
  ∧ uniformRow .umax (fun a b => if a.toInt ≤ b.toInt then b else a)
  ∧ uniformRow .uslt (fun a b => if a.toInt < b.toInt then 1 else 0)

/-- R175: NOP, UMOV, UMOVH and UGID complete; NOP writes nothing. -/
def Obligations.UniformMoves : Prop :=
  ∀ (x : Who) (w : BitVec 56) (s : State) (gr : Group),
    (Issues s x gr false [] → w = 0 →
      ∃ t gr', exec (.nop x w) s = .next t ∧ Retired x gr' false (s.fetched x gr.pc) t
        ∧ gr' = { gr with pc := gr.pc + 8, win := max gr.win (gr.pc - 256) })
    ∧ (Issues s x gr false [256 + fld w.toNat 55 51, 256 + fld w.toNat 50 46] → fld w.toNat 45 41 = 0 →
        fld w.toNat 39 32 = 0 → (if bit w.toNat 40 = 1 then fld w.toNat 50 46 = 0 else fld w.toNat 31 0 = 0) →
        let p := decide (bit w.toNat 40 = 0) && gr.unifP (fld w.toNat 50 46)
        ∃ t gr', exec (.umov x w) s = .next t ∧ Retired x gr' p (s.fetched x gr.pc) t
          ∧ WroteUnif gr gr' (fld w.toNat 55 51)
              (if bit w.toNat 40 = 1 then (BitVec.ofNat 32 w.toNat).signExtend 64 else gr.unif (fld w.toNat 50 46)) p)
    ∧ (Issues s x gr false [256 + fld w.toNat 55 51] → fld w.toNat 50 40 = 0 → fld w.toNat 39 32 = 0 →
        ∃ t gr', exec (.umovh x w) s = .next t
          ∧ Retired x gr' (gr.unifP (fld w.toNat 55 51)) (s.fetched x gr.pc) t
          ∧ WroteUnif gr gr' (fld w.toNat 55 51)
              (BitVec.ofNat 64 (fld w.toNat 31 0 * 2 ^ 32 + (gr.unif (fld w.toNat 55 51)).toNat % 2 ^ 32))
              (gr.unifP (fld w.toNat 55 51)))
    ∧ (Issues s x gr false [256 + fld w.toNat 55 51] → fld w.toNat 50 0 = 0 →
        ∃ t gr', exec (.ugid x w) s = .next t ∧ Retired x gr' false (s.fetched x gr.pc) t
          ∧ WroteUnif gr gr' (fld w.toNat 55 51) (BitVec.ofNat 64 gr.q) false)

/-- R138, R162, R175: BR, BRC and BRM set the program counter: to the target when taken, past the word otherwise; a taken branch to a
target that is misaligned or outside the fetch region faults and does not branch. -/
def Obligations.Branches : Prop :=
  ∀ (x : Who) (w : BitVec 56) (s : State) (gr : Group) (c : Who → BitVec 56 → Instr) (regs : List Nat) (taken p : Bool),
    ((c = .br ∧ regs = [] ∧ fld w.toNat 55 32 = 0 ∧ taken = true ∧ p = false)
     ∨ (c = .brc ∧ regs = [256 + fld w.toNat 55 51, 256 + fld w.toNat 50 46] ∧ fld w.toNat 45 43 = 0
        ∧ fld w.toNat 39 32 = 0
        ∧ (let a := gr.unif (fld w.toNat 55 51)
           let b := gr.unif (fld w.toNat 50 46)
           (fld w.toNat 42 40 = 0 ∧ taken = decide (a = b)) ∨ (fld w.toNat 42 40 = 1 ∧ taken = decide (a ≠ b))
           ∨ (fld w.toNat 42 40 = 2 ∧ taken = decide (a.toInt < b.toInt))
           ∨ (fld w.toNat 42 40 = 3 ∧ taken = decide (b.toInt ≤ a.toInt))
           ∨ (fld w.toNat 42 40 = 4 ∧ taken = decide (a.toNat < b.toNat))
           ∨ (fld w.toNat 42 40 = 5 ∧ taken = decide (b.toNat ≤ a.toNat)))
        ∧ p = (gr.unifP (fld w.toNat 55 51) || gr.unifP (fld w.toNat 50 46)))
     ∨ (c = .brm ∧ regs = [] ∧ fld w.toNat 55 46 = 0 ∧ fld w.toNat 39 32 = 0
        ∧ (let k := gr.mask (fld w.toNat 45 43)
           (fld w.toNat 42 40 = 0 ∧ (taken = true ↔ ∃ l, l < 64 ∧ k.getLsbD l = true))
           ∨ (fld w.toNat 42 40 = 1 ∧ (taken = true ↔ ∀ l, l < 64 → k.getLsbD l = true))
           ∨ (fld w.toNat 42 40 = 2 ∧ (taken = true ↔ ∀ l, l < 64 → k.getLsbD l = false)))
        ∧ p = gr.maskP (fld w.toNat 45 43))) →
    Issues s x gr false regs →
    let tgt : Int := gr.pc + 8 * sgn 32 w.toNat
    (taken = false → ∃ t gr', exec (c x w) s = .next t ∧ Retired x gr' p (s.fetched x gr.pc) t
        ∧ gr' = { gr with pc := gr.pc + 8, win := max gr.win (gr.pc - 256) })
    ∧ (taken = true → 0 ≤ tgt → tgt % 8 = 0 → s.fetchOk x tgt.toNat = true →
        ∃ t gr', exec (c x w) s = .next t ∧ Retired x gr' p (s.fetched x gr.pc) t
          ∧ gr' = { gr with pc := tgt.toNat,
                            win := if gr.win ≤ tgt.toNat ∧ tgt.toNat ≤ gr.win + 504 then gr.win else tgt.toNat })
    ∧ (taken = true → (tgt < 0 ∨ tgt % 8 ≠ 0 ∨ s.fetchOk x tgt.toNat = false) →
        ∃ t, exec (c x w) s = .next t
          ∧ Faulted x 2 gr.pc (fld (if tgt < 0 then wrap 64 tgt else tgt.toNat) 43 0) (s.fetched x gr.pc) t)

/-- R175, R154, R287, R163, R133: EXIT ends the group and sends one departure for each object of its barrier list; MWAIT issues once
the stream's matrix operations are complete, and not before; a word that breaks R163 faults at issue, an unlisted opcode always. -/
def Obligations.ExitMwaitAndIllegal : Prop :=
  (∀ (x : Who) (s : State) (gr : Group), Issues s x gr false [] →
    ((∀ a ∈ gr.blist, s.addrBad (some x.core) (s.flaskOf x) 2 a 16 = false) → ∃ t, exec (.exit x 0) s = .next t
      ∧ (∀ h ∈ (t.core x.core).groups, Group.is x h = false)
      ∧ (∀ h, h ∈ (t.core x.core).groups ↔ h ∈ (s.core x.core).groups ∧ Group.is x h = false)
      ∧ t.reqs.length = s.reqs.length + gr.blist.length
      ∧ (∀ i, i < gr.blist.length → ∃ r, t.reqs[s.reqs.length + i]? = some r ∧ r.kind = .depart ∧ r.id = s.nextId + i
          ∧ r.addr = gr.blist.getD i 0 ∧ r.rel = gr.stores)
      ∧ ((∀ h ∈ (t.core x.core).groups, isG h.strm = true) → t.rf .SHAPE x.core 0 17 0 = 0)
      ∧ t.mem = s.mem)
    ∧ (∀ a, gr.blist.find? (fun a => s.addrBad (some x.core) (s.flaskOf x) 2 a 16) = some a →
        ∃ t, exec (.exit x 0) s = .next t ∧ Faulted x 2 gr.pc (fld a 43 0) (s.fetched x gr.pc) t)
    ∧ ((s.core x.core).mxIdle x.strm = true → ∃ t gr', exec (.mwait x 0) s = .next t
        ∧ Retired x gr' false (s.fetched x gr.pc) t ∧ gr' = { gr with pc := gr.pc + 8, win := max gr.win (gr.pc - 256) })
    ∧ ((s.core x.core).mxIdle x.strm = false → exec (.mwait x 0) s = .next s))
  ∧ (∀ (x : Who) (w : BitVec 64) (s : State) (gr : Group), s.group x = some gr → (s.core x.core).runs x.strm = true →
      s.fetchOk x gr.pc = true → gr.wait = none →
      (let op := fld w.toNat 63 56
       ¬(op ≤ 0x14) ∧ ¬(0x20 ≤ op ∧ op ≤ 0x49) ∧ ¬(0x60 ≤ op ∧ op ≤ 0x68) ∧ ¬(0x70 ≤ op ∧ op ≤ 0x76)
        ∧ ¬(0x80 ≤ op ∧ op ≤ 0x82) ∧ ¬(0x90 ≤ op ∧ op ≤ 0x98)) →
      rowOf x w = .unlistedOpcode x w
      ∧ ∃ t, exec (.unlistedOpcode x w) s = .next t ∧ Faulted x 1 gr.pc 0 (s.fetched x gr.pc) t)
  ∧ (∀ (x : Who) (b : BitVec 56), opcodeMap.all fun e => rowOf x (BitVec.ofNat 8 e.1 ++ b) = e.2 x b)
  ∧ illegalRow .nop (fun _ => []) (fun n => n ≠ 0) ∧ illegalRow .exit (fun _ => []) (fun n => n ≠ 0)
  ∧ illegalRow .uadd uForm2.regs (fun n => fld n 39 32 ≠ 0)
  ∧ illegalRow .brc (fun n => [256 + fld n 55 51, 256 + fld n 50 46]) (fun n => 6 ≤ fld n 42 40)
  ∧ illegalRow .brm (fun _ => []) (fun n => 3 ≤ fld n 42 40)
  ∧ illegalRow .lid (fun n => [fld n 52 45]) (fun n => fld n 44 0 ≠ 0)

namespace Sys2Proof.Machine

/-- The governing mask `mk` let lanes of register `d` be written: lane `l` with `val l`, poisoned as `val l` says or when the mask
is; every other lane register, and every mask and uniform, is as it was (R132). -/
def WroteLanes (gr gr' : Group) (d mk : Nat) (val : Nat → Word32 × Bool) : Prop :=
  Advanced gr gr' ∧ gr'.k = gr.k ∧ gr'.kp = gr.kp ∧ gr'.u = gr.u ∧ gr'.up = gr.up
    ∧ ∀ r l, l < 64 →
        (gr'.lane r l = if r = d ∧ gr.on mk l = true then (val l).1 else gr.lane r l)
        ∧ (gr'.laneP r l = if r = d ∧ gr.on mk l = true then (val l).2 || gr.maskP mk else gr.laneP r l)

/-- The same for an aligned quad (R144): S in the first two registers, E in the third, zero in the fourth. -/
def WroteQuads (gr gr' : Group) (d mk : Nat) (val : Nat → Wide × Bool) : Prop :=
  Advanced gr gr' ∧ gr'.k = gr.k ∧ gr'.kp = gr.kp ∧ gr'.u = gr.u ∧ gr'.up = gr.up
    ∧ (∀ l, l < 64 → gr.on mk l = true → gr'.quad d l = (val l).1 ∧ gr'.lane (d + 3) l = 0
        ∧ (gr'.lane (d + 2) l).toNat < 2 ^ 16 ∧ ∀ i, i < 4 → gr'.laneP (d + i) l = ((val l).2 || gr.maskP mk))
    ∧ ∀ r l, l < 64 → ¬(d ≤ r ∧ r < d + 4 ∧ gr.on mk l = true) → gr'.lane r l = gr.lane r l ∧ gr'.laneP r l = gr.laneP r l

/-- Bits of mask register `d` were written for the lanes `mk` governs (R170); k0 stays all ones (R131). -/
def WroteMask (gr gr' : Group) (d mk : Nat) (val : Nat → Bool) : Prop :=
  Advanced gr gr' ∧ gr'.v = gr.v ∧ gr'.vp = gr.vp ∧ gr'.u = gr.u ∧ gr'.up = gr.up
    ∧ ∀ i l, l < 64 → (gr'.mask i).getLsbD l
        = if i = d ∧ d ≠ 0 ∧ gr.on mk l = true then val l else (gr.mask i).getLsbD l

/-- A row of one lane source: it completes with vd = f va in every unmasked lane. -/
def laneRow1 (c : Who → BitVec 56 → Instr) (f : Word32 → Word32) : Prop :=
  ∀ (x : Who) (w : BitVec 56) (s : State) (gr : Group), Issues s x gr false ((laneForm 1).regs w.toNat) →
    (laneForm 1).ok (s.rpl x) w.toNat = true →
    ∃ t gr', exec (c x w) s = .next t
      ∧ Retired x gr' (gr.readP w.toNat fun l => (gr.srcA w.toNat l).2) (s.fetched x gr.pc) t
      ∧ WroteLanes gr gr' (fld w.toNat 52 45) (fld w.toNat 55 53)
          (fun l => (f (gr.srcA w.toNat l).1, (gr.srcA w.toNat l).2))

/-- A row of two lane sources: vd = f va vb. -/
def laneRow2 (c : Who → BitVec 56 → Instr) (f : Word32 → Word32 → Word32) : Prop :=
  ∀ (x : Who) (w : BitVec 56) (s : State) (gr : Group), Issues s x gr false ((laneForm 2).regs w.toNat) →
    (laneForm 2).ok (s.rpl x) w.toNat = true →
    ∃ t gr', exec (c x w) s = .next t
      ∧ Retired x gr' (gr.readP w.toNat fun l => (gr.srcA w.toNat l).2 || (gr.srcB w.toNat l).2) (s.fetched x gr.pc) t
      ∧ WroteLanes gr gr' (fld w.toNat 52 45) (fld w.toNat 55 53)
          (fun l => (f (gr.srcA w.toNat l).1 (gr.srcB w.toNat l).1, (gr.srcA w.toNat l).2 || (gr.srcB w.toNat l).2))

/-- A mask row: bit l of k(VD) = val for every lane governed, poison apart. -/
def maskRow (c : Who → BitVec 56 → Instr) (q : VForm) (p : Group → Nat → Bool) (val : Group → Nat → Nat → Bool) : Prop :=
  ∀ (x : Who) (w : BitVec 56) (s : State) (gr : Group), Issues s x gr false (q.regs w.toNat) →
    q.ok (s.rpl x) w.toNat = true →
    ∃ t gr', exec (c x w) s = .next t ∧ Retired x gr' (p gr w.toNat) (s.fetched x gr.pc) t
      ∧ WroteMask gr gr' (fld w.toNat 52 45) (fld w.toNat 55 53) (val gr w.toNat)

end Sys2Proof.Machine

/-- R132, R176: the integer and move rows complete with their operation in every unmasked lane of vd. -/
def Obligations.VectorInteger : Prop :=
  laneRow2 .iadd (fun a b => BitVec.ofNat 32 (a.toNat + b.toNat))
  ∧ laneRow2 .isub (fun a b => BitVec.ofInt 32 ((a.toNat : Int) - b.toNat))
  ∧ laneRow2 .iand (fun a b => a &&& b) ∧ laneRow2 .ior (fun a b => a ||| b) ∧ laneRow2 .ixor (fun a b => a ^^^ b)
  ∧ laneRow2 .ishl (fun a b => BitVec.ofNat 32 (a.toNat * 2 ^ (b.toNat % 32)))
  ∧ laneRow2 .ishr (fun a b => BitVec.ofNat 32 (a.toNat / 2 ^ (b.toNat % 32)))
  ∧ laneRow2 .isar (fun a b => BitVec.ofInt 32 (a.toInt / 2 ^ (b.toNat % 32)))
  ∧ laneRow1 .imov (fun a => a)
  ∧ laneRow1 .fabs (fun a => BitVec.ofNat 32 (a.toNat % 2 ^ 31))
  ∧ laneRow1 .fneg (fun a => BitVec.ofNat 32 (a.toNat + 2 ^ 31))
  ∧ (∀ (x : Who) (w : BitVec 56) (s : State) (gr : Group),
      Issues s x gr false ([fld w.toNat 52 45]) → fld w.toNat 52 45 < s.rpl x → fld w.toNat 44 0 = 0 →
      ∃ t gr', exec (.lid x w) s = .next t ∧ Retired x gr' (gr.maskP (fld w.toNat 55 53)) (s.fetched x gr.pc) t
        ∧ WroteLanes gr gr' (fld w.toNat 52 45) (fld w.toNat 55 53) (fun l => (BitVec.ofNat 32 l, false)))
  ∧ (∀ (x : Who) (w : BitVec 56) (s : State) (gr : Group),
      let q : VForm := { laneForm 2 with c := .mask }
      let k := fld w.toNat 28 21
      Issues s x gr false (q.regs w.toNat) → q.ok (s.rpl x) w.toNat = true →
      ∃ t gr' p, exec (.sel x w) s = .next t ∧ Retired x gr' p (s.fetched x gr.pc) t
        ∧ WroteLanes gr gr' (fld w.toNat 52 45) (fld w.toNat 55 53) (fun l =>
            ((if gr.on k l then (gr.srcA w.toNat l).1 else (gr.srcB w.toNat l).1),
             (if gr.on k l then (gr.srcA w.toNat l).2 else (gr.srcB w.toNat l).2) || gr.maskP k)))

/-- R49, R176, R178: the binary32 rows complete with the value of the exact result rounded once, in every unmasked lane of vd. -/
def Obligations.VectorFloat : Prop :=
  laneRow2 .fadd (fun a b => toF32 (vAdd (f32 a) (f32 b)))
  ∧ laneRow2 .fsub (fun a b => toF32 (vAdd (f32 a) (vNeg (f32 b))))
  ∧ laneRow2 .fmul (fun a b => toF32 (vMul (f32 a) (f32 b)))
  ∧ laneRow2 .fdiv (fun a b => toF32 (vDiv (f32 a) (f32 b)))
  ∧ laneRow2 .fmin (fun a b =>
      if vNaN (f32 a) || vNaN (f32 b) then 0x7FC0_0000 else if f32Key b < f32Key a then b else a)
  ∧ laneRow2 .fmax (fun a b =>
      if vNaN (f32 a) || vNaN (f32 b) then 0x7FC0_0000 else if f32Key a < f32Key b then b else a)
  ∧ laneRow1 .fsqrt (fun a => toF32 (vSqrt (f32 a)))
  ∧ laneRow1 .itof (fun a => toF32 (.fin (decide (a.toInt < 0)) a.toInt.natAbs 0))
  ∧ laneRow1 .utof (fun a => toF32 (.fin false a.toNat 0))
  ∧ laneRow1 .ftoi fToI ∧ laneRow1 .ftou fToU
  ∧ laneRow1 .widh (fun a => toF32 (binVal fmtF16 (a.toNat % 2 ^ 16)))
  ∧ laneRow1 .widb (fun a => toF32 (binVal fmtBF16 (a.toNat % 2 ^ 16)))
  ∧ laneRow1 .fexp2 fExp2 ∧ laneRow1 .flog2 fLog2 ∧ laneRow1 .frcp fRcp ∧ laneRow1 .frsq fRsq
  ∧ (∀ (x : Who) (w : BitVec 56) (s : State) (gr : Group), Issues s x gr false ((laneForm 3).regs w.toNat) →
      (laneForm 3).ok (s.rpl x) w.toNat = true →
      ∃ t gr' p, exec (.ffma x w) s = .next t ∧ Retired x gr' p (s.fetched x gr.pc) t
        ∧ WroteLanes gr gr' (fld w.toNat 52 45) (fld w.toNat 55 53) (fun l =>
            (toF32 (vAdd (vMul (f32 (gr.srcA w.toNat l).1) (f32 (gr.srcB w.toNat l).1)) (f32 (gr.srcC w.toNat l).1)),
             (gr.srcA w.toNat l).2 || (gr.srcB w.toNat l).2 || (gr.srcC w.toNat l).2)))

/-- R170, R131, R176: the rows that write a mask register write it only for the lanes governed, and k0 never; UMOVK copies a whole mask. -/
def Obligations.MaskRows : Prop :=
  maskRow .icmp (cmpForm 6) (fun gr n => gr.readP n fun l => (gr.srcA n l).2 || (gr.srcB n l).2)
    (fun gr n l =>
      let a := (gr.srcA n l).1
      let b := (gr.srcB n l).1
      let c := fld n 28 21
      if c = 0 then decide (a = b) else if c = 1 then decide (a ≠ b) else if c = 2 then decide (a.toInt < b.toInt)
      else if c = 3 then decide (b.toInt ≤ a.toInt) else if c = 4 then decide (a.toNat < b.toNat)
      else decide (b.toNat ≤ a.toNat))
  ∧ maskRow .fcmp (cmpForm 5) (fun gr n => gr.readP n fun l => (gr.srcA n l).2 || (gr.srcB n l).2)
    (fun gr n l =>
      let a := f32 (gr.srcA n l).1
      let b := f32 (gr.srcB n l).1
      let c := fld n 28 21
      if vNaN a || vNaN b then decide (c = 1 ∨ c = 4)
      else if c = 0 then vEq a b else if c = 1 then !(vEq a b) else if c = 2 then vLt a b
      else if c = 3 then vLt a b || vEq a b else false)
  ∧ maskRow .kop { d := .mask, a := .mask, b := .mask, c := .code 4, flags := true, imm := 1, usesMk := true }
    (fun gr n => gr.readP n fun _ => gr.maskP (fld n 44 37) || gr.maskP (fld n 36 29))
    (fun gr n l =>
      let a := (gr.mask (fld n 44 37)).getLsbD l
      let b := (gr.mask (fld n 36 29)).getLsbD l
      let c := fld n 28 21
      if c = 0 then a && b else if c = 1 then a || b else if c = 2 then Bool.xor a b else a && !b)
  ∧ maskRow .kmovu { d := .mask, a := .unif, b := .none, c := .none, flags := true, imm := 1, usesMk := true }
    (fun gr n => gr.readP n fun _ => gr.unifP (fld n 44 37)) (fun gr n l => (gr.unif (fld n 44 37)).getLsbD l)
  ∧ (∀ (x : Who) (w : BitVec 56) (s : State) (gr : Group),
      Issues s x gr false [256 + fld w.toNat 52 45] → fld w.toNat 55 50 = 0 → fld w.toNat 44 40 = 0 → fld w.toNat 36 0 = 0 →
      ∃ t gr', exec (.umovk x w) s = .next t ∧ Retired x gr' (gr.maskP (fld w.toNat 44 37)) (s.fetched x gr.pc) t
        ∧ WroteUnif gr gr' (fld w.toNat 52 45) (gr.mask (fld w.toNat 44 37)) (gr.maskP (fld w.toNat 44 37)))

/-- R144, R145, R176: PERM, BCST and RDL move lane values; WADD, WMUL and WTREE write aligned quads. -/
def Obligations.CrossLaneAndW80 : Prop :=
  ∀ (x : Who) (w : BitVec 56) (s : State) (gr : Group),
    let n := w.toNat
    let d := fld n 52 45
    let mk := fld n 55 53
    let va := fld n 44 37
    let vb := fld n 36 29
    (Issues s x gr false [d, va, vb] → d < s.rpl x → va < s.rpl x → vb < s.rpl x → fld n 28 0 = 0 →
      ∃ t gr' p, exec (.perm x w) s = .next t ∧ Retired x gr' p (s.fetched x gr.pc) t
        ∧ WroteLanes gr gr' d mk (fun l => (gr.lane va ((gr.lane vb l).toNat % 64),
            gr.laneP va ((gr.lane vb l).toNat % 64) || gr.laneP vb l)))
    ∧ (Issues s x gr false [d, va] → d < s.rpl x → va < s.rpl x → fld n 36 6 = 0 →
      ∃ t gr' p, exec (.bcst x w) s = .next t ∧ Retired x gr' p (s.fetched x gr.pc) t
        ∧ WroteLanes gr gr' d mk (fun _ => (gr.lane va (fld n 5 0), gr.laneP va (fld n 5 0))))
    ∧ (Issues s x gr false [256 + d, va] → d < 32 → va < s.rpl x → fld n 36 6 = 0 → mk = 0 →
      ∃ t gr', exec (.rdl x w) s = .next t ∧ Retired x gr' (gr.laneP va (fld n 5 0)) (s.fetched x gr.pc) t
        ∧ WroteUnif gr gr' d ((gr.lane va (fld n 5 0)).setWidth 64) (gr.laneP va (fld n 5 0)))
    ∧ (∀ c f, ((c = Instr.wadd ∧ f = wAdd) ∨ (c = Instr.wmul ∧ f = wMul)) →
      Issues s x gr false (quadForm.regs n) → quadForm.ok (s.rpl x) n = true →
      ∃ t gr' p, exec (c x w) s = .next t ∧ Retired x gr' p (s.fetched x gr.pc) t
        ∧ WroteQuads gr gr' d mk (fun l => (f (gr.quad va l) (gr.quad vb l), gr.quadP va l || gr.quadP vb l)))
    ∧ (let de := (gr.unif va).toNat
       let at' (i l : Nat) := fld de 19 0 + (i * fld de 35 20 + l) * 16
       Issues s x gr false [d, d + 1, d + 2, d + 3, 256 + va % 32] → d % 4 = 0 → d < s.rpl x → va < 32 →
       fld n 36 10 = 0 → s.m.lerr = [] → (s.core x.core).calm = true →
       ((fld de 19 0 % 16 ≠ 0 ∨ fld de 35 20 < 64) →
          ∃ t, exec (.wtree x w) s = .next t ∧ Faulted x 1 gr.pc 0 (s.fetched x gr.pc) t)
       ∧ (fld de 19 0 % 16 = 0 → 64 ≤ fld de 35 20 →
          (∀ l i, l < 64 → gr.on mk l = true → i ≤ fld n 9 0 → s.lsOk x.core (isG x.strm) (at' i l) 16 = true) →
          ∃ t gr' p, exec (.wtree x w) s = .next t ∧ Retired x gr' p (s.fetched x gr.pc) t
            ∧ WroteQuads gr gr' d mk (fun l =>
                let r := wtree ((List.range (fld n 9 0 + 1)).map fun i =>
                  (wOfBytes (s.bytes (lsAt x.core (at' i l)) 10), s.poisoned (lsAt x.core (at' i l)) 16))
                (r.1, r.2 || gr.unifP va))))

namespace Sys2Proof.Machine

/-- Every unmasked lane of an access of `sz` bytes reaches the core's own local store, mapped and aligned, no word of it with a
latent error, nothing that goes first waits there, and no output of the core is on its way to its local store (R125, R179, R182,
R186, R190, R251). -/
structure OwnStore (s : State) (x : Who) (perm sz : Nat) (as : List (Nat × Nat)) : Prop where
  mine : ∀ e ∈ as, own x.core e.2 = true
  good : ∀ e ∈ as, s.addrBad (some x.core) (s.flaskOf x) perm e.2 sz = false
  idle : ∀ e ∈ as, s.ownQueued x (e.2 / 128) = false
  calm : (s.core x.core).calm = true
  whole : s.m.lerr = []

/-- Registers `d` to `d + k - 1` of every lane in `as` were written with `val`, without poison; nothing else of the group was. -/
def WroteSpan (gr gr' : Group) (d k : Nat) (as : List (Nat × Nat)) (val : Nat → Nat → Word32) : Prop :=
  Advanced gr gr' ∧ gr'.k = gr.k ∧ gr'.kp = gr.kp ∧ gr'.u = gr.u ∧ gr'.up = gr.up
    ∧ (∀ e ∈ as, ∀ i, i < k → gr'.lane (d + i) e.1 = val e.2 i ∧ gr'.laneP (d + i) e.1 = false)
    ∧ ∀ r l, l < 64 → ¬(d ≤ r ∧ r < d + k ∧ ∃ e ∈ as, e.1 = l) → gr'.lane r l = gr.lane r l ∧ gr'.laneP r l = gr.laneP r l

/-- The byte a store instruction leaves at offset `o`: that of the highest lane which covers it (R263), else the old one. -/
def storedByte (s : State) (sz : Nat) (es : List (Nat × List Byte)) (o : Nat) : Byte :=
  match (es.filter fun e => fld e.1 47 0 ≤ o && o < fld e.1 47 0 + sz).getLast? with
  | some e => e.2.getD (o - fld e.1 47 0) 0
  | none => s.byte o

/-- The lanes of a format-M access with their addresses (R179): u(UB), the lane offset unless NOV (scaled when LSC), IMM. -/
def lanesM (gr : Group) (n : Nat) : List (Nat × Nat) :=
  (gr.onLanes (fld n 55 53)).map fun l =>
    (l, wrap 64 ((gr.unif (fld n 36 32)).toNat
      + (if bit n 23 = 1 then 0 else (gr.lane (fld n 44 37) l).toNat * (if bit n 22 = 1 then 2 ^ fld n 31 29 else 1))
      + sgn 22 n))

/-- Nothing a format-M instruction reads to form its addresses is poisoned. -/
def cleanM (gr : Group) (n : Nat) : Prop :=
  gr.maskP (fld n 55 53) = false ∧ gr.unifP (fld n 36 32) = false ∧ ∀ l, l < 64 → gr.laneP (fld n 44 37) l = false

end Sys2Proof.Machine

/-- R180, R182: a plain load whose lanes all lie in the core's own local store completes with the data in VD. -/
def Obligations.LocalLoads : Prop :=
  (∀ (x : Who) (w : BitVec 56) (s : State) (gr : Group) (c : Who → BitVec 56 → Instr) (conv : Nat → Nat),
    let n := w.toNat
    let sz := 2 ^ fld n 31 29
    ((c = .ld ∧ conv = fun v => v) ∨ (c = .ldh ∧ sz = 2 ∧ conv = fun v => (toF32 (binVal fmtF16 v)).toNat)
      ∨ (c = .ldb ∧ sz = 2 ∧ conv = fun v => (toF32 (binVal fmtBF16 v)).toNat)) →
    Issues s x gr true (regsM n sz) → fld n 31 29 ≤ 4 → formM (s.rpl x) n sz = true → fld n 28 27 = 0 →
    cleanM gr n → OwnStore s x 0 sz (lanesM gr n) →
    (∀ e ∈ lanesM gr n, s.poisoned (fld e.2 47 0) sz = false) →
    ∃ t gr', exec (c x w) s = .next t ∧ Retired x gr' false (s.fetched x gr.pc) t
      ∧ WroteSpan gr gr' (fld n 52 45) ((sz + 3) / 4) (lanesM gr n)
          (fun a i => BitVec.ofNat 32 (conv (s.le (fld a 47 0) sz) / 2 ^ (32 * i))))
  ∧ (∀ (x : Who) (w : BitVec 56) (s : State) (gr : Group),
    let n := w.toNat
    let a := wrap 64 ((gr.unif (fld n 36 32)).toNat + sgn 22 n)
    Issues s x gr true [256 + fld n 49 45, 256 + fld n 36 32] → formU n = true → fld n 28 27 = 0 →
    gr.unifP (fld n 36 32) = false → OwnStore s x 0 8 [(0, a)] → s.poisoned (fld a 47 0) 8 = false →
    ∃ t gr', exec (.ldu x w) s = .next t ∧ Retired x gr' false (s.fetched x gr.pc) t
      ∧ WroteUnif gr gr' (fld n 49 45) (BitVec.ofNat 64 (s.le (fld a 47 0) 8)) false)

/-- R181, R250: a plain load elsewhere sends one request for each line its lanes touch, and VD waits for the data. -/
def Obligations.RemoteLoads : Prop :=
  ∀ (x : Who) (w : BitVec 56) (s : State) (gr : Group) (c : Who → BitVec 56 → Instr),
    let n := w.toNat
    let sz := 2 ^ fld n 31 29
    (c = .ld ∨ (sz = 2 ∧ (c = .ldh ∨ c = .ldb))) →
    Issues s x gr true (regsM n sz) → fld n 31 29 ≤ 4 → formM (s.rpl x) n sz = true → fld n 28 27 = 0 →
    cleanM gr n → s.ccSize x.core = 0 → s.paramHeld x (lanesM gr n) = false →
    (∀ e ∈ lanesM gr n, own x.core e.2 = false ∧ s.addrBad (some x.core) (s.flaskOf x) 0 e.2 sz = false) →
    let b := s.fetched x gr.pc
    ∃ t gr' rs, exec (c x w) s = .next t ∧ t = { b with regs := t.regs, cores := t.cores, reqs := b.reqs ++ rs, nextId := b.nextId + rs.length }
      ∧ rs.map Req.addr = (lanesM gr n |>.map (fun e => e.2 / 128)).eraseDups.map (· * 128)
      ∧ (∀ r ∈ rs, r.kind = .read ∧ r.size = 128 ∧ r.src = .grp x ∧ r.flask = s.flaskOf x ∧ r.rel = []
          ∧ r.lanes = (lanesM gr n).filter fun e => e.2 / 128 = r.addr / 128)
      ∧ t.group x = some gr' ∧ gr'.pc = gr.pc + 8 ∧ gr'.v = gr.v ∧ gr'.u = gr.u ∧ gr'.k = gr.k
      ∧ gr'.loads = gr.loads ++ rs.map Req.id ∧ (∀ r ∈ rs, (r.id, regSpan (fld n 52 45) sz) ∈ gr'.busy)

/-- R180, R182, R263: a plain store whose lanes all lie in the core's own local store writes the lanes' bytes there at once, the highest
lane's where lanes overlap, and no other byte. -/
def Obligations.LocalStores : Prop :=
  (∀ (x : Who) (w : BitVec 56) (s : State) (gr : Group),
    let n := w.toNat
    let sz := 2 ^ fld n 31 29
    let d := fld n 52 45
    Issues s x gr true (regsM n sz) → fld n 31 29 ≤ 4 → formM (s.rpl x) n sz = true → fld n 28 27 = 0 →
    OwnStore s x 1 sz (lanesM gr n) →
    let es := (lanesM gr n).map fun e => (e.2, leBytes sz
      ((gr.lane d e.1).toNat + (gr.lane (d + 1) e.1).toNat * 2 ^ 32 + (gr.lane (d + 2) e.1).toNat * 2 ^ 64
        + (gr.lane (d + 3) e.1).toNat * 2 ^ 96))
    ∃ t gr', exec (.st x w) s = .next t ∧ t.group x = some gr' ∧ Advanced gr gr' ∧ gr'.u = gr.u ∧ gr'.v = gr.v
      ∧ gr'.k = gr.k ∧ t.reqs.length = s.reqs.length ∧ (∀ y, y ≠ x → t.group y = s.group y)
      ∧ ∀ o, t.byte o = storedByte s sz es o)
  ∧ (∀ (x : Who) (w : BitVec 56) (s : State) (gr : Group),
    let n := w.toNat
    let a := wrap 64 ((gr.unif (fld n 36 32)).toNat + sgn 22 n)
    Issues s x gr true [256 + fld n 49 45, 256 + fld n 36 32] → formU n = true → fld n 28 27 = 0 →
    OwnStore s x 1 8 [(0, a)] →
    ∃ t gr', exec (.stu x w) s = .next t ∧ t.group x = some gr' ∧ Advanced gr gr' ∧ gr'.u = gr.u ∧ gr'.v = gr.v
      ∧ gr'.k = gr.k ∧ t.reqs.length = s.reqs.length ∧ (∀ y, y ≠ x → t.group y = s.group y)
      ∧ ∀ o, t.byte o = storedByte s 8 [(a, leBytes 8 (gr.unif (fld n 49 45)).toNat)] o)

/-- R149 to R151, R183: an atomic on the core's own local store applies the lanes one at a time in ascending order at each address. -/
def Obligations.LocalAtomics : Prop :=
  ∀ (x : Who) (w : BitVec 56) (s : State) (gr : Group),
    let n := w.toNat
    let sz := 2 ^ fld n 11 10
    let aop := fld n 15 12
    let ret := bit n 4 = 1
    let regs := (if ret then regSpan (fld n 52 45) sz else []) ++ [fld n 44 37] ++ regSpan (fld n 36 29) sz
      ++ (if aop = 0xC then regSpan (fld n 28 21) sz else []) ++ [256 + fld n 20 16]
    let val (r l : Nat) : Nat := (gr.lane r l).toNat + (if sz = 8 then (gr.lane (r + 1) l).toNat * 2 ^ 32 else 0)
    let as := (gr.onLanes (fld n 55 53)).map fun l =>
      (l, ((gr.unif (fld n 20 16)).toNat + (gr.lane (fld n 44 37) l).toNat) % 2 ^ 64)
    let ops (a : Nat) : List (Nat × Nat) := (as.filter fun e => e.2 = a).map fun e =>
      (val (fld n 36 29) e.1, if aop = 0xC then val (fld n 28 21) e.1 else 0)
    Issues s x gr true regs → formA (s.rpl x) n = true → fld n 6 5 = 0 → OwnStore s x 2 sz as →
    ∃ t gr', exec (.atom x w) s = .next t ∧ t.group x = some gr'
      ∧ (∀ e ∈ as, t.le (fld e.2 47 0) sz = (atomList aop sz (s.le (fld e.2 47 0) sz) (ops e.2)).2 % 2 ^ (8 * sz))
      ∧ (∀ o, (∀ e ∈ as, o < fld e.2 47 0 ∨ fld e.2 47 0 + sz ≤ o) → t.byte o = s.byte o)
      ∧ (ret → ∀ e ∈ as, ∀ i, i < sz / 4 → gr'.lane (fld n 52 45 + i) e.1
          = BitVec.ofNat 32 ((atomList aop sz (s.le (fld e.2 47 0) sz) (ops e.2)).1.getD
              ((as.filter fun f => f.2 = e.2 && f.1 < e.1).length) 0 / 2 ^ (32 * i)))
      ∧ (¬ret → gr'.v = gr.v) ∧ gr'.u = gr.u ∧ gr'.k = gr.k
      ∧ t.rn .ATOM x.core 0 = min (2 ^ 32 - 1) (s.rn .ATOM x.core 0 + (as.length - (as.map Prod.snd).eraseDups.length))

/-- R180, R200, R213, R254, R255: FENCE invalidates the core cache when it acquires and waits for the group's stores when it releases;
PFSET loads a prefetch stream from its descriptor. -/
def Obligations.FenceAndPrefetch : Prop :=
  (∀ (x : Who) (w : BitVec 56) (s : State) (gr : Group),
    let n := w.toNat
    let ord := fld n 28 27
    let scp := fld n 26 24
    Issues s x gr true [] → fld n 55 29 = 0 → fld n 23 0 = 0 → ord ≠ 0 → scp ≤ 4 →
    (1 < ord → 1 ≤ scp → gr.stores ≠ [] → exec (.fence x w) s = .next s)
    ∧ ((ord = 1 ∨ scp = 0 ∨ gr.stores = []) →
        ∃ t gr', exec (.fence x w) s = .next t ∧ t.mem = s.mem ∧ t.group x = some gr' ∧ Advanced gr { gr' with acq := gr.acq }
          ∧ gr'.v = gr.v ∧ gr'.u = gr.u ∧ gr'.k = gr.k
          ∧ (ord ≠ 2 → gr'.acq = gr.acq ++ gr.loads.map fun i => (i, decide (1 ≤ scp)))
          ∧ (ord ≠ 2 → 1 ≤ scp → isG x.strm = false → (t.core x.core).cc = [])
          ∧ (ord = 2 ∨ scp = 0 ∨ isG x.strm = true → (t.core x.core).cc = (s.core x.core).cc)))
  ∧ (∀ (x : Who) (w : BitVec 56) (s : State) (gr : Group),
    let n := w.toNat
    let u := fld n 36 32
    let d := (gr.unif (u + 1)).toNat
    Issues s x gr true [256 + u, 257 + u] → isG x.strm = false → fld n 55 49 = 0 → fld n 44 37 = 0 → fld n 31 0 = 0 →
    u ≤ 30 → fld d 49 48 ≤ 1 → (gr.unif u).toNat % 128 = 0 → fld d 23 0 ≠ 0 →
    ∃ t p, exec (.pfset x w) s = .next t ∧ t.mem = s.mem
      ∧ Sparse.get none (t.core x.core).pf (fld n 48 45) = some p ∧ p.addr = (gr.unif u).toNat
      ∧ p.nlines = fld d 23 0 ∧ p.stride = sgn 24 (fld d 47 24) ∧ p.tgt = fld d 49 48
      ∧ ∀ k, k ≠ fld n 48 45 → Sparse.get none (t.core x.core).pf k = Sparse.get none (s.core x.core).pf k)

namespace Sys2Proof.Machine

/-- The bits of an element of format `df` in register `r` of lane `l` (R184). -/
def Group.elemBits (gr : Group) (df r l : Nat) : Nat := if df = 0x14 then (gr.quad r l).toNat else (gr.lane r l).toNat

/-- What the issue of an instruction that writes special registers of its core does, from `s` to `t` (R132, R135, R160): as
`Retired`, but the registers whose keys `mine` names may change too. -/
structure RetiredReg (x : Who) (gr' : Group) (p : Bool) (mine : Nat → Prop) (s t : State) : Prop where
  only : t = { s with regs := t.regs, cores := t.cores, notices := t.notices }
  count : t.rd .ISSUE x.core (streamNum x.strm) = s.rd .ISSUE x.core (streamNum x.strm) + 1
  regs : ∀ d k, ¬mine k → k ≠ Reg.key .ISSUE x.core (streamNum x.strm) → k ≠ Reg.key .GSTARVE x.core 0 →
    Sparse.get d t.regs k = Sparse.get d s.regs k
  group : t.group x = some gr'
  peers : ∀ y, y ≠ x → t.group y = s.group y
  others : ∀ g, g ≠ x.core → t.core g = s.core g
  core : t.core x.core = { s.core x.core with
    groups := (t.core x.core).groups, lastq := (s.core x.core).lastq.set (streamNum x.strm) x.grp }
  notes : t.notices = s.notices ++ if p then [.stepEv (s.flaskOf x) 0] else []

/-- The keys of the counts and the histogram of slot `sl` of core `g` (R77). -/
def slotKeys (g sl k : Nat) : Prop :=
  k = Reg.key .RCOVF g sl ∨ k = Reg.key .RCFLU g sl ∨ k = Reg.key .RCNF g sl ∨ k = Reg.key .RCMAX g sl
    ∨ ∃ b, b < 32 ∧ k = Reg.key .RCHIST g (32 * sl + b)

/-- The counts a cast adds to its slot, saturating (R71). -/
def SlotCounted (s t : State) (g sl : Nat) (c : CastCount) : Prop :=
  t.rn .RCOVF g sl = min (2 ^ 32 - 1) (s.rn .RCOVF g sl + c.1)
  ∧ t.rn .RCFLU g sl = min (2 ^ 32 - 1) (s.rn .RCFLU g sl + c.2.1)
  ∧ t.rn .RCNF g sl = min (2 ^ 32 - 1) (s.rn .RCNF g sl + c.2.2.1)

end Sys2Proof.Machine

/-- R45, R46, R57, R59, R61: what the caster writes is a BSm block: mantissas in range, zero under scale 0xFF; the ceiling bounds the
scale; only a non-finite input, or an overflow in propagate mode, marks a block non-finite. -/
def Obligations.CastBlockRange : Prop :=
  ∀ (m : Nat) (sr prop en : Bool) (ceil : Nat) (key : CastKey) (j0 : Nat) (xs : List (Val × Bool)),
    2 ≤ m → m ≤ 16 → ceil ≤ 254 → xs.length = 32 →
    let r := castToBs m (sr, prop, en, ceil) key j0 xs
    r.2.1.length = 32
    ∧ (∀ q ∈ r.2.1, -(2 : Int) ^ (m - 1) ≤ q ∧ q ≤ 2 ^ (m - 1) - 1)
    ∧ (r.1 = 0xFF → ∀ q ∈ r.2.1, q = 0)
    ∧ (r.1 ≠ 0xFF → r.1 ≤ 254 ∧ (en = true → r.1 ≤ ceil))
    ∧ ((xs.any fun x => vNonfin x.1) = true → r.1 = 0xFF)
    ∧ ((xs.any fun x => vNonfin x.1) = false → prop = false → r.1 ≠ 0xFF)
    ∧ (xs.any Prod.snd = true → r.2.2.1 = true ∧ r.2.2.2 = (0, 0, 0, []))

/-- R45, R57 to R60: a block whose largest magnitude fills its scale is reproduced bit for bit by the cast to its own width, with nothing
counted but the block. -/
def Obligations.CastRoundTrip : Prop :=
  ∀ (m scale : Nat) (ms : List Int) (prop : Bool) (ceil : Nat) (key : CastKey) (j0 : Nat),
    2 ≤ m → m ≤ 16 → scale ≤ 254 → ms.length = 32 →
    (∀ q ∈ ms, -((2 : Int) ^ (m - 1) - 1) ≤ q ∧ q ≤ 2 ^ (m - 1) - 1) → (∃ q ∈ ms, (2 : Int) ^ (m - 2) ≤ |q|) →
    castToBs m (false, prop, false, ceil) key j0 (ms.map fun q => (bsVal m scale q, false))
      = (scale, ms, false, (0, 0, 0, [(scale, scale)]))

/-- R71, R132, R184: CVT and CASTL write the cast elements of the unmasked lanes and add the counts to the slot. -/
def Obligations.RegisterCasts : Prop :=
  ∀ (x : Who) (w : BitVec 56) (s : State) (gr : Group) (c : Who → BitVec 56 → Instr) (elem : Nat → Val × Bool) (regs : List Nat),
    let n := w.toNat
    let df := fld n 26 22
    let vr := fld n 52 45
    let sl := (if isG x.strm then 56 else 0) + fld n 21 16
    let d := gr.unif (fld n 36 32)
    let on := gr.onLanes (fld n 55 53)
    ((c = .cvt ∧ fld n 36 32 = 0 ∧ cvtPair (fld n 31 27) df = true ∧ elemReg (s.rpl x) (fld n 31 27) (fld n 44 37) = true
        ∧ regs = elemSpan df vr ++ elemSpan (fld n 31 27) (fld n 44 37) ++ keyRegs n
        ∧ elem = fun l => gr.elemOf (fld n 31 27) (fld n 44 37) l)
     ∨ (c = .castl ∧ fld n 44 37 = 0 ∧ castlPair (fld n 31 27) df = true ∧ fld d.toNat 19 0 % 4 = 0
        ∧ s.elemsBad x (fld n 31 27) d on = none ∧ (s.core x.core).calm = true ∧ regs = elemSpan df vr ++ [256 + fld n 36 32] ++ keyRegs n
        ∧ elem = fun l =>
            let mb := lsAt x.core (fld d.toNat 19 0 + l / 32 * blockBytes (fld n 31 27))
            let sb := lsAt x.core (fld d.toNat 39 20 + l / 32)
            (blockVal (fld n 31 27) (s.byte sb).toNat (s.le mb (blockBytes (fld n 31 27))) (l % 32),
             s.elemP x.core (fld n 31 27) d (l / 32) (l % 32) || gr.unifP (fld n 36 32)))) →
    Issues s x gr false regs → convOk x.strm n false = true → elemReg (s.rpl x) df vr = true → s.m.lerr = [] →
    let key : CastKey := (gr.unif (fld n 15 11), BitVec.ofNat 64 ((gr.unif (fld n 15 11 + 1)).toNat % 2 ^ 32),
      s.rd .RCTID x.core sl, (gr.unif (fld n 15 11 + 2)).toNat % 2 ^ 48)
    let kp := gr.keyP (fld n 15 11) || gr.maskP (fld n 55 53)
    let r := castScalars df (castCfg (s.rn .RCCFG x.core sl)) key
      (on.map fun l => (key.2.2.2 + l, (elem l).1, (elem l).2 || kp))
    ∃ t gr', exec (c x w) s = .next t ∧ t.group x = some gr' ∧ Advanced gr gr' ∧ gr'.u = gr.u ∧ gr'.k = gr.k
      ∧ t.mem = s.mem ∧ (∀ y, y ≠ x → t.group y = s.group y)
      ∧ (∀ i, i < on.length → gr'.elemBits df vr (on.getD i 0)
            = (r.1.getD i (0, 0, false)).2.1 % 2 ^ (if df = 0x14 then 80 else 32))
      ∧ (∀ v l, l < 64 → ¬(v ∈ elemSpan df vr ∧ gr.on (fld n 55 53) l = true) → gr'.lane v l = gr.lane v l)
      ∧ SlotCounted s t x.core sl r.2

/-- R48, R132, R184: CASTS and CASTM write whole blocks: the mantissa field and the scale byte at their places, and no other byte. -/
def Obligations.BlockCasts : Prop :=
  ∀ (x : Who) (w : BitVec 56) (s : State) (gr : Group) (c : Who → BitVec 56 → Instr) (elem : Nat → Val × Bool) (regs : List Nat),
    let n := w.toNat
    let m := fld n 26 22
    let sf := fld n 31 27
    let vr := fld n 52 45
    let sl := (if isG x.strm then 56 else 0) + fld n 21 16
    let d := gr.unif (fld n 36 32)
    let a := gr.unif (vr % 32)
    let k := if bit n 10 = 1 then 1 else 2
    let on := gr.onLanes (fld n 55 53)
    let kp := gr.keyP (fld n 15 11) || gr.maskP (fld n 55 53) || gr.unifP (fld n 36 32)
    ((c = .casts ∧ castsPair sf m = true ∧ elemReg (s.rpl x) sf vr = true
        ∧ regs = elemSpan sf vr ++ [256 + fld n 36 32] ++ keyRegs n
        ∧ elem = fun l => if gr.on (fld n 55 53) l then ((gr.elemOf sf vr l).1, (gr.elemOf sf vr l).2 || kp)
            else (.fin false 0 0, kp))
     ∨ (c = .castm ∧ vr < 32 ∧ castmPair sf m = true ∧ ¬(m = 0x15) ∧ ¬(sf = 0x15 ∧ m = 8) ∧ fld a.toNat 19 0 % 4 = 0
        ∧ s.elemsBad x sf a (on.filter (· < 32 * k)) = none ∧ (s.core x.core).calm = true ∧ regs = [256 + vr % 32, 256 + fld n 36 32] ++ keyRegs n
        ∧ elem = fun l =>
            let mb := lsAt x.core (fld a.toNat 19 0 + l / 32 * blockBytes sf)
            let sb := lsAt x.core (fld a.toNat 39 20 + l / 32)
            if gr.on (fld n 55 53) l then
              (blockVal sf (s.byte sb).toNat (s.le mb (blockBytes sf)) (l % 32),
               s.elemP x.core sf a (l / 32) (l % 32) || (kp || gr.unifP (vr % 32)))
            else (.fin false 0 0, kp || gr.unifP (vr % 32)))) →
    Issues s x gr false regs → convOk x.strm n true = true → fld n 44 37 = 0 → fld d.toNat 19 0 % 4 = 0 →
    s.blocksOk x m d k = true → s.m.lerr = [] →
    (∀ i, i < k → fld d.toNat 39 20 + i < fld d.toNat 19 0 ∨ fld d.toNat 19 0 + k * 4 * m ≤ fld d.toNat 39 20 + i) →
    let key : CastKey := (gr.unif (fld n 15 11), BitVec.ofNat 64 ((gr.unif (fld n 15 11 + 1)).toNat % 2 ^ 32),
      s.rd .RCTID x.core sl, (gr.unif (fld n 15 11 + 2)).toNat % 2 ^ 48)
    let blk (b : Nat) : CastBlock := castToBs m (castCfg (s.rn .RCCFG x.core sl)) key (key.2.2.2 + 32 * b)
      ((List.range 32).map fun i => elem (32 * b + i))
    ∃ t gr', exec (c x w) s = .next t ∧ t.group x = some gr' ∧ Advanced gr gr' ∧ gr'.u = gr.u ∧ gr'.k = gr.k ∧ gr'.v = gr.v
      ∧ (∀ b, b < k → t.le (lsAt x.core (fld d.toNat 19 0 + b * 4 * m)) (4 * m) = packMants m (blk b).2.1
          ∧ (t.byte (lsAt x.core (fld d.toNat 39 20 + b))).toNat = (blk b).1)
      ∧ (∀ o, (o < lsAt x.core (fld d.toNat 19 0) ∨ lsAt x.core (fld d.toNat 19 0) + k * 4 * m ≤ o) →
          (∀ b, b < k → o ≠ lsAt x.core (fld d.toNat 39 20 + b)) → t.byte o = s.byte o)
      ∧ (t.core x.core).fresh = (s.core x.core).fresh ++ [(fld d.toNat 19 0, k * 4 * m), (fld d.toNat 39 20, k)]
      ∧ (∀ y, y ≠ x → t.group y = s.group y) ∧ ∀ h, h ≠ x.core → t.core h = s.core h

/-- R70, R77, R78, R187: RCSET writes a slot's configuration, RCGET reads a counter, RCCLR and a management clear zero the slot. -/
def Obligations.RangeCounters : Prop :=
  (∀ (x : Who) (w : BitVec 56) (s : State) (gr : Group),
    let n := w.toNat
    let sl := (if isG x.strm then 56 else 0) + fld n 21 16
    let v := (gr.unif (fld n 36 32)).toNat
    (if isG x.strm then fld n 21 16 < 8 else fld n 21 16 < 56) →
    let gr' : Group := { gr with pc := gr.pc + 8, win := max gr.win (gr.pc - 256) }
    (Issues s x gr false [256 + fld n 36 32] → fld n 55 37 = 0 → fld n 31 22 = 0 → fld n 15 0 = 0 →
      ∃ t, exec (.rcset x w) s = .next t
        ∧ RetiredReg x gr' (gr.unifP (fld n 36 32)) (fun k => k = Reg.key .RCCFG x.core sl ∨ k = Reg.key .RCTID x.core sl)
            (s.fetched x gr.pc) t
        ∧ t.rf .RCCFG x.core sl 2 0 = fld v 2 0 ∧ t.rf .RCCFG x.core sl 15 8 = fld v 15 8
        ∧ t.rf .RCCFG x.core sl 7 3 = 0 ∧ t.rf .RCCFG x.core sl 31 16 = 0 ∧ t.rn .RCTID x.core sl = fld v 63 32)
    ∧ (Issues s x gr false [256 + fld n 52 45 % 32] → (s.core x.core).slotBusy x.strm sl = false → fld n 55 50 = 0 →
        fld n 44 32 = 0 → fld n 15 0 = 0 → fld n 31 27 ≤ 4 → (fld n 31 27 = 4 ∨ fld n 26 22 = 0) →
        ∃ t gu, exec (.rcget x w) s = .next t ∧ Retired x gu false (s.fetched x gr.pc) t
          ∧ WroteUnif gr gu (fld n 52 45)
              (if fld n 31 27 = 0 then s.rd .RCOVF x.core sl else if fld n 31 27 = 1 then s.rd .RCFLU x.core sl
               else if fld n 31 27 = 2 then s.rd .RCNF x.core sl else if fld n 31 27 = 3 then s.rd .RCMAX x.core sl
               else s.rd .RCHIST x.core (32 * sl + fld n 26 22)) false)
    ∧ (Issues s x gr false [] → (s.core x.core).slotBusy x.strm sl = false → fld n 55 22 = 0 → fld n 15 0 = 0 →
        ∃ t, exec (.rcclr x w) s = .next t ∧ RetiredReg x gr' false (slotKeys x.core sl) (s.fetched x gr.pc) t
          ∧ t.rn .RCOVF x.core sl = 0 ∧ t.rn .RCFLU x.core sl = 0 ∧ t.rn .RCNF x.core sl = 0 ∧ t.rn .RCMAX x.core sl = 0
          ∧ ∀ b, b < 32 → t.rn .RCHIST x.core (32 * sl + b) = 0)
    ∧ (Issues s x gr false [] → (s.core x.core).slotBusy x.strm sl = true → exec (.rcclr x w) s = .next s
        ∧ exec (.rcget x w) s = .next s))
  ∧ (∀ (s : State) (g slot : Nat), slot < 64 → ∃ t, exec (.rcclrClear g slot) s = .next t
      ∧ t.rn .RCOVF g slot = 0 ∧ t.rn .RCFLU g slot = 0 ∧ t.rn .RCNF g slot = 0 ∧ t.rn .RCMAX g slot = 0
      ∧ (∀ b, b < 32 → t.rn .RCHIST g (32 * slot + b) = 0)
      ∧ t = { s with regs := t.regs } ∧ ∀ d k, ¬slotKeys g slot k → Sparse.get d t.regs k = Sparse.get d s.regs k)

namespace Sys2Proof.Machine

/-- Edge entry `e` of column `c` of core `g`, and its poison (R96). -/
def State.edgeAt (s : State) (g c e : Nat) : Wide := Sparse.get 0 (s.core g).edge (256 * c + e)

/-- Core `g` alone changed, as `c` says. -/
def OnlyCore (g : Nat) (s t : State) (c : Core) : Prop := t.core g = c ∧ ∀ h, h ≠ g → t.core h = s.core h

end Sys2Proof.Machine

/-- R82, R136, R188: a legal matrix instruction of a host stream with room enters its port's queue with the parameters of its word and
descriptors; in the G stream it is illegal; without room it is not issued. -/
def Obligations.MatrixIssue : Prop :=
  ∀ (x : Who) (w : BitVec 56) (s : State) (gr : Group) (c : Who → BitVec 56 → Instr) (op : MOp) (regs : List Nat) (port : Nat),
    let n := w.toNat
    let a := fld n 55 51
    let k := fld n 50 46
    let da := (gr.unif a).toNat
    let d1 := (gr.unif (a + 1)).toNat
    ((c = .mload ∧ fld n 36 0 = 0 ∧ port = 0 ∧ regs = [256 + a]
        ∧ op = .load (bit n 50) (decide (bit n 49 = 1)) (fld n 48 44) (fld n 43 38 + 1) (bit n 37 + 1) (fld da 19 0) (fld da 39 20))
     ∨ (c = .mstream ∧ fld n 15 0 = 0 ∧ port = 1
        ∧ regs = (if bit n 22 = 1 then [256 + a, 256 + k] else [256 + a])
        ∧ op = .stream (bit n 45) (decide (bit n 44 = 1)) (fld n 43 39) (fld n 38 31 + 1) (fld n 30 23) (decide (bit n 22 = 1))
            (fld n 21 17) (if bit n 22 = 1 then fld (gr.unif k).toNat 19 0 else 0) (decide (bit n 16 = 1)) (fld da 19 0)
            (fld da 39 20) (fld da 51 40))
     ∨ (c = .mdrain ∧ bit n 0 = 0 ∧ a ≤ 29 ∧ k ≤ 29 ∧ port = 2
        ∧ regs = [256 + a, 257 + a, 258 + a, 256 + k, 257 + k, 258 + k]
        ∧ op = .drain (fld n 45 38) (fld n 37 30 + 1) (decide (bit n 29 = 1)) (fld n 28 24) (fld n 23 18 + 1) (fld n 17 13)
            (fld n 12 7) (fld n 6 5) (fld n 4 3) (fld n 2 1) (fld da 19 0) (fld da 39 20) (fld da 59 40) (fld d1 11 0)
            (fld d1 23 12) (fld d1 44 24) (fld (gr.unif (a + 2)).toNat 31 0) (gr.unif k)
            (BitVec.ofNat 64 ((gr.unif (k + 1)).toNat % 2 ^ 32)) ((gr.unif (k + 2)).toNat % 2 ^ 48)
            (s.rd .RCCFG x.core (fld n 12 7)) (s.rd .RCTID x.core (fld n 12 7)))) →
    Issues s x gr false regs →
    (isG x.strm = true → ∃ t, exec (c x w) s = .next t ∧ Faulted x 1 gr.pc 0 (s.fetched x gr.pc) t)
    ∧ (isG x.strm = false → 4 ≤ ((s.core x.core).mq.filter fun m => m.who.strm = x.strm && m.op.port = port).length →
        exec (c x w) s = .next s)
    ∧ (isG x.strm = false → ((s.core x.core).mq.filter fun m => m.who.strm = x.strm && m.op.port = port).length < 4 →
        op.legal (s.edgeWindow x.core x.strm) = true →
        (∀ r ∈ op.ranges, s.lsOk x.core false r.1 r.2 = true) →
        ∃ t gr', exec (c x w) s = .next t ∧ t.group x = some gr' ∧ Advanced gr gr' ∧ gr'.u = gr.u ∧ gr'.v = gr.v ∧ gr'.k = gr.k
          ∧ (t.core x.core).mq = (s.core x.core).mq ++ [{ who := x, pc := gr.pc, op := op, old := s.operandCells x.core op }]
          ∧ (t.core x.core).planes = (s.core x.core).planes ∧ (t.core x.core).edge = (s.core x.core).edge
          ∧ t.mem = s.mem ∧ (∀ y, y ≠ x → t.group y = s.group y))

/-- R87, R88, R91, R112: a granted MLOAD in ROW mode leaves in its plane every element of its tile, left-aligned to 16 bits, and the scale
of each block; PLANE_READY then makes the plane ready. -/
def Obligations.PlaneLoad : Prop :=
  (∀ (g : Nat) (s : State) (q : MQ) (pl fmt nc kb mb sb : Nat),
    (s.core g).zero = false → (s.core g).mq = [q] → q.op = .load pl false fmt nc kb mb sb → isG q.who.strm = false →
    (s.core g).fresh = [] → q.old = s.operandCells g q.op → pl < (s.core g).planes.length → 2 ≤ elemBits fmt → elemBits fmt ≤ 16 → s.m.lerr = [] →
    let b (col h : Nat) : Nat := 2 * col + h
    ∃ t p, exec (.mloadGrant g) s = .next t ∧ (t.core g).mq = [] ∧ (t.core g).planes = (s.core g).planes.set pl p
      ∧ p.ready = false ∧ p.loading = some q.who.strm ∧ p.quad = false ∧ p.nc = nc ∧ p.kb = kb
      ∧ (∀ col row, col < 64 → row < 64 → p.held row col
          = if col < nc ∧ row / 32 < kb then
              sgn (elemBits fmt) (elemRaw (elemBits fmt)
                (s.le (lsAt g (mb + b col (row / 32) * blockBytes fmt)) (blockBytes fmt)) (row % 32)) * 2 ^ (16 - elemBits fmt)
            else 0)
      ∧ (∀ col h, col < 64 → h < 2 → Sparse.get 0 p.scale (b col h)
          = if col < nc ∧ h < kb then (s.byte (lsAt g (sb + b col h))).toNat else 0)
      ∧ t.mem = s.mem ∧ (t.core g).edge = (s.core g).edge ∧ ∀ h, h ≠ g → t.core h = s.core h)
  ∧ (∀ (g pl : Nat) (s : State), pl < (s.core g).planes.length → ((s.core g).plane pl).loading ≠ none →
      ∃ t, exec (.planeReady g pl) s = .next t
        ∧ OnlyCore g s t { s.core g with
            planes := (s.core g).planes.set pl { (s.core g).plane pl with ready := true, loading := none },
            ports := (s.core g).ports.set 0 none }
        ∧ t = { s with cores := t.cores })

/-- R92 to R96, R110, R121: a granted MSTREAM sends M vectors on their way; a landing under UNSP adds the vector's half-sums to its edge
entry in one rounding, or replaces it when START. -/
def Obligations.StreamAndLanding : Prop :=
  (∀ (g : Nat) (s : State) (q : MQ) (pl fmt m eb lam tix mb sb vs : Nat) (tr pair start : Bool),
    let p := (s.core g).plane pl
    (s.core g).zero = false → (s.core g).mq = [q] → isG q.who.strm = false →
    q.op = .stream pl tr fmt m eb pair lam tix start mb sb vs → p.ready = true → (tr = true → p.quad = true) →
    (s.core g).fresh = [] → q.old = s.operandCells g q.op → s.m.lerr = [] →
    ∃ t ls, exec (.mstreamGrant g) s = .next t ∧ (t.core g).mq = [] ∧ (t.core g).land = (s.core g).land ++ ls
      ∧ ls.length = m
      ∧ (∀ v d, ls[v]? = some d → d.strm = q.who.strm ∧ d.ent = eb + v ∧ d.pair = pair ∧ d.lam = lam ∧ d.tix = tix
          ∧ d.start = start ∧ d.m = m ∧ (d.last = true ↔ v + 1 = m)
          ∧ d.cols = (List.range 64).map fun o => (List.range (p.blocks tr)).map fun h =>
              p.halfSum tr (elemBits fmt) o h
                ((s.byte (lsAt g (sb + (v * vs + h)))).toNat,
                 s.le (lsAt g (mb + (v * vs + h) * blockBytes fmt)) (blockBytes fmt),
                 s.poisoned (lsAt g (mb + (v * vs + h) * blockBytes fmt)) (blockBytes fmt)
                   || s.poisoned (lsAt g (sb + (v * vs + h))) 1))
      ∧ t.rd .MXVEC g 0 = s.rd .MXVEC g 0 + BitVec.ofNat 64 m ∧ (t.core g).edge = (s.core g).edge
      ∧ (t.core g).planes = (s.core g).planes ∧ t.mem = s.mem)
  ∧ (∀ (g : Nat) (s : State) (d : Landing) (l : List Landing), (s.core g).land = d :: l → d.pair = false → d.ent < 256 →
      s.m.eerr = [] →
      ∃ t, exec (.edgeLanding g) s = .next t ∧ (t.core g).land = l
        ∧ (∀ c, c < 64 → t.edgeAt g c d.ent = toW ((d.cols.getD c []).foldl (fun a b => vAdd a (wVal b.1))
              (if d.start then .fin false 0 0 else wVal (s.edgeAt g c d.ent))))
        ∧ (∀ c e, c < 64 → e < 256 → e ≠ d.ent → t.edgeAt g c e = s.edgeAt g c e)
        ∧ t = { s with cores := t.cores } ∧ ∀ h, h ≠ g → t.core h = s.core h)

/-- R99, R101, R115, R122, R161, R307: a granted MDRAIN of an unsplit sum to W80 writes the entries it names; zeroing ends with both planes
ready and empty; each counter clear zeroes its counter alone. -/
def Obligations.DrainAndZeroing : Prop :=
  (∀ (g : Nat) (s : State) (q : MQ) (eb m lam nw slot epf eps db dsb epb drs ers js jb : Nat) (seed step cfg tid : Word64),
    (s.core g).zero = false → (s.core g).mq = [q] → isG q.who.strm = false →
    q.op = .drain eb m false lam nw 0x14 slot 0 epf eps db dsb epb drs ers 1 js seed step jb cfg tid →
    (s.core g).land = [] → nw ≤ 64 → nw ≤ drs → s.m.eerr = [] → s.m.lerr = [] →
    ∃ t, exec (.mdrainGrant g) s = .next t ∧ (t.core g).mq = [] ∧ (t.core g).edge = (s.core g).edge
      ∧ (∀ r c, r < m → c < nw → (s.edgeAt g c (eb + r)).toNat
          = t.le (lsAt g (db + (r * drs + c) * 16)) 16)
      ∧ ∀ o, (∀ r c, r < m → c < nw → o < lsAt g (db + (r * drs + c) * 16) ∨ lsAt g (db + (r * drs + c) * 16) + 16 ≤ o) →
          t.byte o = s.byte o)
  ∧ (∀ (g : Nat) (s : State), (s.core g).zero = true → ∃ t, exec (.arrayZeroingEnd g) s = .next t
      ∧ OnlyCore g s t { s.core g with zero := false, planes := [Plane.zeroTile true, Plane.zeroTile true] }
      ∧ t = { s with cores := t.cores })
  ∧ (∀ (c : Nat → Instr) (r : Reg), ((c = .mxclrGate ∧ r = .MXGATE) ∨ (c = .mxclrVec ∧ r = .MXVEC)
        ∨ (c = .mxclrEdge ∧ r = .MXEDGE) ∨ (c = .mxclrAln ∧ r = .MXALN) ∨ (c = .exclrAtom ∧ r = .ATOM)
        ∨ (c = .syncclrPoll ∧ r = .SYNCPOLL)) →
      ∀ (g : Nat) (s : State), ∃ t, exec (c g) s = .next t ∧ t.rn r g 0 = 0 ∧ t = { s with regs := t.regs }
        ∧ ∀ d k, k ≠ r.key g 0 → Sparse.get d t.regs k = Sparse.get d s.regs k)
  ∧ (∀ (g : Nat) (s : State), ∃ t, exec (.exclrIssue g) s = .next t ∧ (∀ i, i < 4 → t.rn .ISSUE g i = 0)
      ∧ t = { s with regs := t.regs } ∧ ∀ d k, (∀ i, i < 4 → k ≠ Reg.key .ISSUE g i) → Sparse.get d t.regs k = Sparse.get d s.regs k)

/-- R191, R280, R291, R292: BAR, SIGNAL and SWAIT send one request to their object and, BAR and SWAIT, make the group wait; DMA takes the
first free entry. -/
def Obligations.SynchronisationIssue : Prop :=
  ∀ (x : Who) (w : BitVec 56) (s : State) (gr : Group),
    let n := w.toNat
    let ua := fld n 55 51
    let ub := fld n 50 46
    let scp := fld n 45 43
    let a := (gr.unif ua).toNat
    let rel := if 1 ≤ scp then gr.stores else []
    (Issues s x gr true [256 + ua] → fld n 50 46 = 0 → fld n 42 32 = 0 → 1 ≤ scp → scp ≤ 4 → fld n 31 16 = 0 → fld n 15 0 ≠ 0 →
      (a ∈ gr.blist ∨ gr.blist.length < 8) → s.addrBad (some x.core) (s.flaskOf x) 2 a 16 = false →
      s.addrBad (some x.core) (s.flaskOf x) 0 a 16 = false →
      ∃ t gr' r v, exec (.bar x w) s = .next t ∧ t.reqs = (s.taint x.core (some (a / 128))).reqs ++ [r]
        ∧ (∀ e ∈ (t.core x.core).cc, e.line ≠ a / 128) ∧ r.id = s.nextId ∧ r.src = .grp x ∧ r.kind = .arrive
        ∧ r.addr = a ∧ r.ops = [(fld n 15 0, 0)] ∧ r.rel = gr.stores ∧ t.group x = some gr' ∧ gr'.wait = some v
        ∧ v.kind = .bar ∧ v.addr = a ∧ v.scp = scp ∧ v.ready = false ∧ v.count = 0 ∧ a ∈ gr'.blist ∧ gr'.pc = gr.pc + 8
        ∧ gr'.v = gr.v ∧ gr'.u = gr.u ∧ gr'.k = gr.k ∧ t.mem = s.mem)
    ∧ (Issues s x gr true [256 + ua, 256 + ub] → fld n 42 32 = 0 → scp ≤ 4 → fld n 31 0 = 0 →
      s.addrBad (some x.core) (s.flaskOf x) 2 a 8 = false →
      ∃ t gr' r, exec (.signal x w) s = .next t ∧ t.reqs = (s.taint x.core (some (a / 128))).reqs ++ [r]
        ∧ (∀ e ∈ (t.core x.core).cc, e.line ≠ a / 128) ∧ r.id = s.nextId ∧ r.src = .grp x ∧ r.kind = .signal
        ∧ r.addr = a ∧ r.ops = [((gr.unif ub).toNat, 0)] ∧ r.rel = rel ∧ t.group x = some gr'
        ∧ gr'.stores = gr.stores ++ [s.nextId] ∧ gr'.wait = none ∧ gr'.pc = gr.pc + 8 ∧ gr'.v = gr.v ∧ gr'.u = gr.u ∧ gr'.k = gr.k
        ∧ t.mem = s.mem)
    ∧ (Issues s x gr true [256 + ua, 256 + ub] → fld n 39 32 = 0 → scp ≤ 4 → fld n 31 0 = 0 → fld n 42 40 ≤ 2 →
      s.addrBad (some x.core) (s.flaskOf x) 0 a 8 = false → s.paramHeld x [(0, a)] = false →
      ∃ t gr' r v, exec (.swait x w) s = .next t ∧ t.reqs = s.reqs ++ [r] ∧ r.id = s.nextId ∧ r.src = .grp x ∧ r.kind = .poll
        ∧ r.addr = a ∧ r.rel = [] ∧ t.group x = some gr' ∧ gr'.wait = some v ∧ v.kind = .swait ∧ v.addr = a
        ∧ v.cond = fld n 42 40 ∧ v.val = (gr.unif ub).toNat ∧ v.scp = scp ∧ v.ready = false ∧ gr'.pc = gr.pc + 8
        ∧ gr'.v = gr.v ∧ gr'.u = gr.u ∧ gr'.k = gr.k ∧ t.mem = s.mem)
    ∧ (∀ e, Issues s x gr true [256 + ua, 257 + ua, 258 + ua, 259 + ua] → fld n 50 0 = 0 → ua ≤ 28 → e < 16 →
      s.dmaAt x.core e = none → (∀ i, i < e → s.dmaAt x.core i ≠ none) →
      let src := a
      let dst := (gr.unif (ua + 1)).toNat
      let len := fld (gr.unif (ua + 2)).toNat 31 0
      let sig := (gr.unif (ua + 3)).toNat
      ¬(bit src 63 = 1 ∧ bit dst 63 = 1) → (bit src 63 = 1 ∨ bit dst 63 = 1 → s.jobOk (s.flaskOf x) = true) → bit src 62 = 0 → bit dst 62 = 0 → (bit src 63 = 0 → fld src 61 48 = 0) →
      (bit dst 63 = 0 → fld dst 61 48 = 0) →
      (∀ p ∈ pieces src dst (pieceFuel len) len, s.pieceBad (some x.core) (s.flaskOf x) 0 p.1 p.2.2 = false
        ∧ s.pieceBad (some x.core) (s.flaskOf x) 1 p.2.1 p.2.2 = false) →
      (sig = 0 ∨ s.addrBad (some x.core) (s.flaskOf x) 2 sig 8 = false) →
      ∃ t gr' d, exec (.dma x w) s = .next t ∧ t.dmaAt x.core e = some d ∧ d.src = src ∧ d.dst = dst ∧ d.len = len
        ∧ d.sinc = BitVec.ofNat 64 (fld (gr.unif (ua + 2)).toNat 63 32) ∧ d.sig = sig
        ∧ d.mode = s.dmaMode (s.flaskOf x) dst sig ∧ d.after = gr.stores ∧ d.started = false
        ∧ (∀ i, i ≠ e → t.dmaAt x.core i = s.dmaAt x.core i) ∧ t.group x = some gr' ∧ gr'.pc = gr.pc + 8
        ∧ gr'.v = gr.v ∧ gr'.u = gr.u ∧ gr'.k = gr.k ∧ t.mem = s.mem ∧ t.reqs = s.reqs)

/-- R281, R283: with N participants and none departed, N arrivals make one round: the first N - 1 are not released, the last completes
the round: it is released, ARR returns to 0, GEN flips and the round count rises. -/
def Obligations.BarrierRound : Prop :=
  ∀ (o n : Nat), o < 2 ^ 128 → fld o 15 0 = 0 → fld o 31 16 = 0 → 1 ≤ n → n < 2 ^ 16 →
    let after (k : Nat) : Nat := (List.range k).foldl (fun o _ => (barArrive o n).1) o
    (∀ k, k < n → fld (after k) 15 0 = k ∧ bit (after k) 48 = bit o 48 ∧ fld (after k) 127 64 = fld o 127 64)
    ∧ (∀ k, k + 1 < n → (barArrive (after k) n).2 = false)
    ∧ (barArrive (after (n - 1)) n).2 = true
    ∧ fld (after n) 15 0 = 0 ∧ bit (after n) 48 = 1 - bit o 48
    ∧ fld (after n) 127 64 = (fld o 127 64 + 1) % 2 ^ 64

namespace Sys2Proof.Machine

/-- Request `q` of a group is next at its point of coherence and what it asks for is at hand there: its line is in the last-level
cache with no miss pending, good codes and a miss entry free in its bank, or the core that owns the local store serves it and has
no output on its way there; its route crosses no failed link (R32, R190, R196, R208, R209, R250). -/
structure AtHand (s : State) (q : Req) : Prop where
  here : s.reqs.find? (fun r => r.id = q.id) = some q
  core : ∃ x, q.src = .grp x
  turn : s.ready q = true
  route : s.cutRoute q = false
  good : s.m.lerr = [] ∧ s.m.serr = []
  hand : (fld q.addr 47 0 < dramEnd ∧ s.rotaOn (s.chan (s.view (fld q.addr 47 0) / 128)).1 = true
            ∧ (s.llcFind (s.view (fld q.addr 47 0) / 128)).isSome = true
            ∧ s.missUsed (s.view (fld q.addr 47 0) / 128) < 64
            ∧ ∀ e ∈ s.m.miss, e.1 ≠ s.view (fld q.addr 47 0) / 128)
          ∨ (dramEnd ≤ fld q.addr 47 0 ∧ ∃ g, aperOf (fld q.addr 47 0) = some g ∧ s.servesLs g = true ∧ (s.core g).calm = true)

/-- The request has been served: it is gone, and its response, `r`, waits for its core; no core changed. -/
def Served (s t : State) (q : Req) (r : Resp) : Prop :=
  t.reqs = s.reqs.filter (fun p => p.id ≠ q.id) ∧ t.resps = s.resps ++ [r] ∧ r.req = q ∧ r.status = 0 ∧ t.cores = s.cores

end Sys2Proof.Machine

/-- R196, R208, R209, R250: a request at hand at its home, or at the core that owns the local store, is served at once: a read returns the
bytes there, a write leaves its bytes where its mask selects them, and no other byte changes; a narrow miss waits for its line. -/
def Obligations.MemoryReadsAndWrites : Prop :=
  (∀ (c : Nat → Instr) (s : State) (q : Req), let off := fld q.addr 47 0
    ((c = .llcRequest ∧ off < dramEnd) ∨ (c = .apertureAccess ∧ dramEnd ≤ off)) → AtHand s q →
    ((q.kind = .read ∨ q.kind = .poll) →
      ∃ t r, exec (c q.id) s = .next t ∧ Served s t q r ∧ r.data = s.bytes (s.view off) q.size ∧ t.mem = s.mem ∧ t.pois = s.pois)
    ∧ (q.kind = .write →
      ∃ t r, exec (c q.id) s = .next t ∧ Served s t q r
        ∧ ∀ o, t.byte o = if s.view off ≤ o ∧ o < s.view off + q.data.length ∧ q.mask.getD (o - s.view off) true = true
            then q.data.getD (o - s.view off) 0 else s.byte o))
  ∧ (∀ (s : State) (q : Req), let off := fld q.addr 47 0
      let line := s.view off / 128
      s.reqs.find? (fun r => r.id = q.id && [RKind.read, .write, .poll, .prefetch].contains r.kind) = some q →
      s.ready q = true → off < dramEnd → s.rotaOn (s.chan line).1 = true → s.llcFind line = none → s.cutRoute q = false →
      (∀ e ∈ s.m.miss, e.1 ≠ line) → (s.m.miss.filter fun e => s.llcBank e.1 = s.llcBank line).length < 64 → q.kind = .read →
      ∃ t, exec (.llcRequest q.id) s = .next t ∧ t.m.miss = s.m.miss ++ [(line, [q])] ∧ t.resps = s.resps
        ∧ Sparse.get [] t.m.bank (32 * (s.chan line).1 + (s.chan line).2 % 32)
            = Sparse.get [] s.m.bank (32 * (s.chan line).1 + (s.chan line).2 % 32) ++ [{ line := line, write := false }]
        ∧ t.rn .LLCMISS (s.home line) 0 = min (2 ^ 64 - 1) (s.rn .LLCMISS (s.home line) 0 + 1) ∧ t.mem = s.mem)

/-- R150, R211, R281, R283, R292, R562: atomics, barrier arrivals and departures and signal additions update the whole object at once. -/
def Obligations.MemoryUpdates : Prop :=
  ∀ (s : State) (q : Req), AtHand s q →
    let off := fld q.addr 47 0
    let a := s.view off
    (∀ c, ((c = Instr.nearMemoryRequest ∧ off < dramEnd) ∨ (c = Instr.apertureAccess ∧ dramEnd ≤ off)) → q.kind = .atom →
      let r' := atomList q.aop q.sz (s.le a q.sz) (carried q.aop q.sz q.ops)
      ∃ t r, exec (c q.id) s = .next t ∧ Served s t q r ∧ r.olds = r'.1 ∧ t.le a q.sz = r'.2 % 2 ^ (8 * q.sz)
        ∧ ∀ o, (o < a ∨ a + q.sz ≤ o) → t.byte o = s.byte o)
    ∧ (q.kind = .arrive → q.aop = 0xD →
      ∃ t r, exec (.barrierArrival q.id) s = .next t ∧ Served s t q r
        ∧ t.le a 16 = (barArrive (s.le a 16) ((q.ops.headD (0, 0)).1 % 2 ^ 16)).1 % 2 ^ 128
        ∧ r.olds = [s.le a 16, if (barArrive (s.le a 16) ((q.ops.headD (0, 0)).1 % 2 ^ 16)).2 then 1 else 0]
        ∧ ∀ o, (o < a ∨ a + 16 ≤ o) → t.byte o = s.byte o)
    ∧ (q.kind = .depart → q.aop = 0xE →
      ∃ t r, exec (.barrierDeparture q.id) s = .next t ∧ Served s t q r
        ∧ t.le a 16 = barDepart (s.le a 16) % 2 ^ 128 ∧ ∀ o, (o < a ∨ a + 16 ≤ o) → t.byte o = s.byte o)
    ∧ (∀ v, q.kind = .signal → q.ops = [(v, 0)] →
      ∃ t r, exec (.signalUpdate q.id) s = .next t ∧ Served s t q r ∧ t.le a 8 = (s.le a 8 + v) % 2 ^ 64
        ∧ ∀ o, (o < a ∨ a + 8 ≤ o) → t.byte o = s.byte o)

namespace Sys2Proof.Machine

/-- The response with this number, `p`, is the first of its number and has status OK. -/
def Answered (s : State) (id : Nat) (p : Resp) : Prop :=
  s.resps.find? (fun r => r.req.id = id) = some p ∧ p.status = 0

/-- Nothing of core `g` waits for request `id` any more, and no request is held behind it (R254 to R256, R268, R287). -/
def Settled (t : State) (g id : Nat) : Prop :=
  (∀ gr ∈ (t.core g).groups, id ∉ gr.stores ∧ id ∉ gr.loads ∧ (∀ b ∈ gr.busy, b.1 ≠ id) ∧ ∀ a ∈ gr.acq, a.1 ≠ id)
  ∧ (∀ r ∈ t.reqs, id ∉ r.rel) ∧ ∀ d ∈ (t.core g).depart, d.1 ≠ id

end Sys2Proof.Machine

/-- R150, R181, R254, R256, R260: a response that reaches its core writes the registers its request named, ends what waited for it, and
changes no memory. -/
def Obligations.Responses : Prop :=
  (∀ (s : State) (id : Nat) (p : Resp) (x : Who) (gr : Group), Answered s id p → p.req.kind = .read → p.req.src = .grp x →
    p.req.lanes ≠ [] → p.req.alloc = false → p.req.conv = 0 → p.req.pois = false → p.pois = [] → s.inOrder p.req = true → s.group x = some gr →
    (p.req.lanes.map Prod.fst).Nodup → (∀ e ∈ p.req.lanes, e.1 < 64) →
    let data := if bit p.req.addr 63 = 1 then List.replicate p.req.span.1 0 ++ p.data else p.data
    ∃ t gr', exec (.loadResponse id) s = .next t ∧ t.group x = some gr' ∧ Settled t x.core id
      ∧ t.resps = s.resps.filter (fun r => r.req.id ≠ id) ∧ t.mem = s.mem
      ∧ (∀ e ∈ p.req.lanes, ∀ i, i < (p.req.sz + 3) / 4 →
          gr'.lane (p.req.reg + i) e.1 = BitVec.ofNat 32 (leAt data (e.2 % 128) p.req.sz / 2 ^ (32 * i)))
      ∧ (∀ r l, l < 64 → ¬(p.req.reg ≤ r ∧ r < p.req.reg + (p.req.sz + 3) / 4 ∧ ∃ e ∈ p.req.lanes, e.1 = l) →
          gr'.lane r l = gr.lane r l) ∧ gr'.u = gr.u ∧ gr'.k = gr.k ∧ gr'.pc = gr.pc)
  ∧ (∀ (s : State) (id : Nat) (p : Resp) (x : Who) (gr : Group), Answered s id p → p.req.kind = .atom → p.req.src = .grp x →
    p.req.ret = true → s.group x = some gr → (p.req.lanes.map Prod.fst).Nodup → (∀ e ∈ p.req.lanes, e.1 < 64) →
    let olds := if p.req.aop ≤ 7 then (atomList p.req.aop p.req.sz (p.olds.headD 0) p.req.ops).1 else p.olds
    ∃ t gr', exec (.atomResponse id) s = .next t ∧ t.group x = some gr' ∧ Settled t x.core id ∧ t.mem = s.mem
      ∧ (∀ j, j < p.req.lanes.length → j < olds.length → ∀ i, i < (p.req.sz + 3) / 4 →
          gr'.lane (p.req.reg + i) (p.req.lanes.getD j (0, 0)).1 = BitVec.ofNat 32 (olds.getD j 0 / 2 ^ (32 * i)))
      ∧ gr'.u = gr.u ∧ gr'.k = gr.k ∧ gr'.pc = gr.pc)
  ∧ (∀ (s : State) (id : Nat) (p : Resp) (x : Who), Answered s id p →
    (p.req.kind = .write ∨ p.req.kind = .signal ∨ p.req.kind = .depart ∨ p.req.kind = .atom) → p.req.src = .grp x →
    p.req.ret = false → p.syncPoison = false →
    ∃ t, exec (.storeAcknowledgement id) s = .next t ∧ Settled t x.core id ∧ t.resps = s.resps.filter (fun r => r.req.id ≠ id)
      ∧ t.mem = s.mem ∧ t.regs = s.regs
      ∧ ∀ y gr, s.group y = some gr → ∃ gr', t.group y = some gr' ∧ gr'.v = gr.v ∧ gr'.u = gr.u ∧ gr'.k = gr.k ∧ gr'.pc = gr.pc)
  ∧ (∀ (s : State) (id : Nat) (p : Resp) (g : Nat), Answered s id p → p.req.kind = .read → p.req.src.core = some g →
    p.req.alloc = true → s.ccSize g ≠ 0 → s.inOrder p.req = true →
    (p.req.taint = false → ∃ t e, exec (.cacheFill id) s = .next t ∧ (t.core g).find (p.req.addr / 128) = some e
        ∧ e.data = p.data ∧ e.pois = p.pois ∧ t.mem = s.mem)
    ∧ (p.req.taint = true → ∃ t, exec (.cacheFill id) s = .next t ∧ (t.core g).cc = (s.core g).cc ∧ t.mem = s.mem))

/-- R214, R277: a prefetch stream sends its next line and moves on by its stride; a landing notice raises its entry's count, or begins a new
one with the other GEN. -/
def Obligations.PrefetchAndLanding : Prop :=
  (∀ (s : State) (g k : Nat) (p : Pf), k < 16 → (s.core g).pfLast = (k + 15) % 16 → Sparse.get none (s.core g).pf k = some p →
    p.nlines ≠ 0 → p.inflight.length < 16 → (s.core g).phold = false →
    let bad := s.addrBad (some g) (s.core g).hflask 0 p.addr 128
    let p' : Pf := { p with addr := wrap 64 ((p.addr : Int) + 128 * p.stride), nlines := p.nlines - 1 }
    ∃ t, exec (.prefetchLineRequest g) s = .next t ∧ (∀ h, h ≠ g → t.core h = s.core h)
      ∧ t.core g = { s.core g with pf := (t.core g).pf, pfLast := k }
      ∧ (∀ j, j ≠ k → Sparse.get none (t.core g).pf j = Sparse.get none (s.core g).pf j)
      ∧ (bad = false → t = { s with reqs := t.reqs, nextId := s.nextId + 1, cores := t.cores }
          ∧ Sparse.get none (t.core g).pf k = some { p' with inflight := p.inflight ++ [s.nextId] }
          ∧ ∃ r, t.reqs = s.reqs ++ [r] ∧ r.kind = .prefetch ∧ r.addr = p.addr ∧ r.size = 128 ∧ r.src = .pf g k ∧ r.id = s.nextId
            ∧ r.flask = (s.core g).hflask ∧ r.alloc = (p.tgt = 0 && s.ccSize g ≠ 0 && cacheable p.addr))
      ∧ (bad = true → t = { s with cores := t.cores }
          ∧ Sparse.get none (t.core g).pf k = if p.nlines = 1 ∧ p.inflight = [] then none else some p'))
  ∧ (∀ (s : State) (g : Nat), (∀ k, k < 16 → s.pfCan g k = false) → exec (.prefetchLineRequest g) s = .next s)
  ∧ (∀ (s : State) (src tsl : Nat) (gen : Bool), Notice.landing src tsl gen ∈ s.notices → tsl < 4 →
    (s.landEnt (4 * src + tsl)).fin = none →
    ∃ t, exec (.landingNotice src tsl gen) s = .next t ∧ t.notices = s.notices.erase (.landing src tsl gen)
      ∧ t.landEnt (4 * src + tsl) = LandEnt.mk gen
          (if (s.landEnt (4 * src + tsl)).gen = gen then (s.landEnt (4 * src + tsl)).count + 1 else 1) none
      ∧ (∀ k, k ≠ 4 * src + tsl → t.landEnt k = s.landEnt k)
      ∧ t = { s with notices := t.notices, fab := { s.fab with land := t.fab.land } })
  ∧ (∀ (s : State) (src tsl cnt : Nat) (gen : Bool) (q : Req), Notice.landing src tsl gen ∈ s.notices → tsl < 4 →
    (s.landEnt (4 * src + tsl)).gen = gen → (s.landEnt (4 * src + tsl)).fin = some (cnt, q) →
    (s.landEnt (4 * src + tsl)).count + 1 = cnt →
    ∃ t, exec (.landingNotice src tsl gen) s = .next t ∧ t.reqs = s.reqs ++ [({ q with id := s.nextId } : Req)]
      ∧ t.landEnt (4 * src + tsl) = LandEnt.mk gen cnt none ∧ (∀ k, k ≠ 4 * src + tsl → t.landEnt k = s.landEnt k)
      ∧ t = { s with notices := s.notices.erase (.landing src tsl gen), reqs := t.reqs, nextId := s.nextId + 1,
                     fab := { s.fab with land := t.fab.land } })

/-- R254, R268, R283, R290, R291, R294, R296: polls release the groups whose condition holds, the watchdog faults a group that waits, and a
DMA entry reads its pieces and then signals. -/
def Obligations.WaitsAndDma : Prop :=
  (∀ (s : State) (id : Nat) (p : Resp) (x : Who) (gr : Group) (w : Wait), Answered s id p → p.req.kind = .poll →
    p.req.src = .grp x → p.pois = [] → (s.core x.core).groups = [gr] → gr.strm = x.strm → gr.q = x.grp → gr.wait = some w →
    w.addr = p.req.addr → (w.kind = .bar ∨ w.kind = .swait) →
    ((w.ready = true ∧ p.req.reg = 0 ∧ w.since ≤ p.req.id) ∨ (w.kind = .swait ∧ w.ready = false ∧ p.req.reg = 1)) →
    s.addrBad (some x.core) (s.flaskOf x) 0 p.req.addr (if w.kind = .bar then 16 else 8) = false → w.scp = 0 →
    let obj := leNat (p.data.take p.req.size)
    let go := if w.kind = .bar then bit obj 48 ≠ w.val else
      if w.cond = 0 then w.val ≤ obj % 2 ^ 64 else if w.cond = 1 then obj % 2 ^ 64 = w.val else obj % 2 ^ 64 ≠ w.val
    ∃ t gr', exec (.pollReturn id) s = .next t ∧ t.group x = some gr' ∧ t.mem = s.mem ∧ gr'.v = gr.v ∧ gr'.u = gr.u
      ∧ gr'.pc = gr.pc ∧ (go → gr'.wait = none) ∧ (¬go → ∃ w', gr'.wait = some w' ∧ w'.addr = w.addr ∧ w'.ready = true))
  ∧ (∀ (s : State) (x : Who) (gr : Group) (w : Wait), s.group x = some gr → gr.wait = some w → s.rn .WDOG (s.flaskOf x) 0 ≠ 0 →
    ∃ t gr', exec (.watchdogFault x) s = .next t ∧ t.group x = some gr' ∧ gr'.wait = none ∧ gr'.v = gr.v ∧ gr'.u = gr.u
      ∧ (∃ pc, t.notices = s.notices ++ [.fault (s.flaskOf x) 3 x.core x.strm x.grp pc 0])
      ∧ (t.core x.core).runs x.strm = false ∧ t.rf .WDSTAT (s.flaskOf x) 0 31 31 = 1 ∧ t.mem = s.mem)
  ∧ (∀ (s : State) (g e : Nat) (d : Dma), s.dmaAt g e = some d → d.started = false → d.after = [] →
    s.paramHeld d.who ((pieces d.src d.dst (pieceFuel d.len) d.len).map fun p => (0, p.1)) = false → d.mode ≠ 2 → 0 < d.len →
    ∃ t d' rs, exec (.dmaStart g e) s = .next t ∧ t.reqs = s.reqs ++ rs ∧ t.dmaAt g e = some d' ∧ d'.started = true
      ∧ d'.mode = d.mode ∧ d'.reads = rs.map Req.id
      ∧ rs.map (fun r => (r.addr, r.reg, r.size)) = pieces d.src d.dst (pieceFuel d.len) d.len
      ∧ (∀ r ∈ rs, r.kind = .read ∧ r.src = .dma g e) ∧ t.mem = s.mem)
  ∧ (∀ (s : State) (g e : Nat) (d : Dma), s.dmaAt g e = some d → d.started = true → d.sig ≠ 0 → d.sigSent = false →
    d.reads = [] → d.writes = [] → d.mode ≠ 2 →
    ∃ t r d', exec (.dmaSignalUpdate g e) s = .next t ∧ t.reqs = s.reqs ++ [r] ∧ r.kind = .signal ∧ r.addr = d.sig
      ∧ r.ops = [(d.sinc.toNat, 0)] ∧ r.pois = d.sigP ∧ r.id = s.nextId ∧ t.dmaAt g e = some d' ∧ d'.sigSent = true ∧ d'.writes = [s.nextId]
      ∧ t.mem = s.mem)

namespace Sys2Proof.Machine

/-- The channel holds line `line` with no symbol error, no poison pattern and no list entry. -/
def CleanLine (s : State) (line : Nat) : Prop :=
  s.m.derr = [] ∧ s.m.lerr = [] ∧ NSet.has s.m.dpois line = false ∧ ∀ e ∈ s.m.plist, e.2 ≠ line

end Sys2Proof.Machine

/-- R209, R221, R225, R241: a bank slot serves the one request of its queue: a write leaves good codewords, a read's data is on its way; its
arrival serves the requests that wait on the line. -/
def Obligations.BankSlots : Prop :=
  (∀ (s : State) (c slot line : Nat) (wr : Bool), c < 384 → slot < 32 → s.rotaOn c = true →
    Sparse.get [] s.m.bank (32 * c + slot) = [{ line := line, write := wr }] → Sparse.get 0 s.m.slot c = slot →
    ∃ t, exec (.bankSlot c slot) s = .next t ∧ Sparse.get [] t.m.bank (32 * c + slot) = []
      ∧ t.rf .ROTA c 0 5 0 = slot ∧ Sparse.get 0 t.m.slot c = slot + 1
      ∧ t.mem = s.mem ∧ t.cores = s.cores
      ∧ (wr = false → t.m.arriving = s.m.arriving ++ [line] ∧ t.m.derr = s.m.derr)
      ∧ (wr = true → t.m.arriving = s.m.arriving ∧ Sparse.get [] t.m.derr (2 * line) = []
          ∧ Sparse.get [] t.m.derr (2 * line + 1) = [] ∧ NSet.has t.m.dpois line = NSet.has s.pois line
          ∧ ∀ k, k ≠ 2 * line → k ≠ 2 * line + 1 → Sparse.get [] t.m.derr k = Sparse.get [] s.m.derr k))
  ∧ (∀ (s : State) (c slot : Nat) (a b d : Nat), c < 384 → slot < 32 → s.rotaOn c = true →
    Sparse.get [] s.m.bank (32 * c + slot) = [{ line := a, write := false }, { line := b, write := true }, { line := d, write := true }] →
    Sparse.get 0 s.m.slot c = slot →
    ∃ t, exec (.bankSlot c slot) s = .next t ∧ Sparse.get [] t.m.bank (32 * c + slot)
      = [{ line := a, write := false }, { line := d, write := true }] ∧ t.m.arriving = s.m.arriving)
  ∧ (∀ (s : State) (c slot : Nat), Sparse.get 0 s.m.slot c ≠ slot → exec (.bankSlot c slot) s = .next s)
  ∧ (∀ (s : State) (line : Nat) (q : Req) (x : Who), line ∈ s.m.arriving → s.m.miss = [(line, [q])] → q.kind = .read →
    q.src = .grp x → CleanLine s line → s.llcFind line = none → s.noAlloc line = false → fld q.addr 47 0 < dramEnd →
    ∃ t r, exec (.dramDataArrival line) s = .next t ∧ t.m.miss = [] ∧ t.m.arriving = s.m.arriving.erase line
      ∧ t.resps = s.resps ++ [r] ∧ r.req = q ∧ r.status = 0 ∧ r.data = s.bytes (s.view (fld q.addr 47 0)) q.size
      ∧ (t.llcFind line).isSome = true ∧ t.mem = s.mem ∧ NSet.has t.pois line = false ∧ t.cores = s.cores)

/-- R219, R228, R229, R231, R243, R244: the refresh and scrub slots, the patrol, and the restore from a backing copy. -/
def Obligations.ChannelUpkeep : Prop :=
  (∀ (s : State) (c status : Nat) (shorter : Bool), c < 384 → s.rotaOn c = true → Sparse.get 0 s.m.slot c = 32 →
    s.rf .ROTA c 0 31 6 < 2 ^ 26 - 1 →
    let n := s.rf .ROTA c 0 31 6 + if 32 < s.rf .ROTA c 0 5 0 then 1 else 0
    ∃ t, exec (.refreshSlot c status shorter) s = .next t ∧ t.rf .ROTA c 0 5 0 = 32 ∧ t.rf .ROTA c 0 31 6 = n
      ∧ Sparse.get 0 t.m.slot c = 33 ∧ Out.refresh c (n % 16) ∈ t.out ∧ (n % 4096 = 0 → Out.zqLatch c ∈ t.out)
      ∧ (n % 256 = 0 → t.rn .TEMP c 0 = status % 256 + (if shorter then 256 else 0)
          ∧ Sparse.get 0 t.m.hot c = if shorter then Sparse.get 0 s.m.hot c + 1 else 0)
      ∧ (n % 256 ≠ 0 → t.rn .TEMP c 0 = s.rn .TEMP c 0 ∧ t.records = s.records ∧ t.m.hot = s.m.hot) ∧ t.mem = s.mem)
  ∧ (∀ (s : State) (c line : Nat) (p : Bool) (rest : List (Nat × Bool)), c < 384 → s.rotaOn c = true →
    Sparse.get 0 s.m.slot c = 33 → Sparse.get 0 s.m.patq c = 0 → Sparse.get [] s.m.scrubq c = (line, p) :: rest →
    ∃ t, exec (.scrubSlot c) s = .next t ∧ Sparse.get [] t.m.scrubq c = rest ∧ Sparse.get [] t.m.derr (2 * line) = []
      ∧ Sparse.get [] t.m.derr (2 * line + 1) = [] ∧ t.rf .ROTA c 0 5 0 = 33
      ∧ t.rf .SCRUB c 0 15 0 = min (2 ^ 16 - 1) (s.rf .SCRUB c 0 15 0 + 1) ∧ t.mem = s.mem)
  ∧ (∀ (s : State) (c : Nat), c < 384 → s.rotaOn c = true → Sparse.get 0 s.m.slot c = 33 → Sparse.get 0 s.m.patq c = 0 → Sparse.get [] s.m.scrubq c = [] →
    CleanLine s (s.lineAt c (s.rf .PATROL c 0 25 0)) →
    ∃ t, exec (.scrubSlot c) s = .next t ∧ t.rf .PATROL c 0 25 0 = (s.rf .PATROL c 0 25 0 + 1) % 2 ^ 26
      ∧ t.rf .ROTA c 0 5 0 = 33 ∧ t.mem = s.mem)
  ∧ (∀ (s : State) (line : Nat), bit (s.lineRegion line) 50 = 1 → line ∈ s.m.restore →
    let src := fld (s.lineRegion line) 48 37 * 2 ^ 30 + line * 128 % 2 ^ 30
    s.poisoned src 128 = false → CleanLine s (src / 128) → s.m.serr = [] → s.m.miss = [] →
    ∃ t, exec (.backingRestoreComplete line) s = .next t ∧ (∀ k, k < 128 → t.byte (128 * line + k) = s.byte (src + k))
      ∧ (∀ o, (o < 128 * line ∨ 128 * line + 128 ≤ o) → t.byte o = s.byte o) ∧ line ∉ t.m.restore
      ∧ t.rn .RESTORE (s.home line) 0 = min (2 ^ 32 - 1) (s.rn .RESTORE (s.home line) 0 + 1))

/-- R233, R237, R239, R245: a snapshot moves the running digest of the flasks its mask selects; each clear zeroes what it names, alone. -/
def Obligations.DieClears : Prop :=
  (∀ (s : State) (m mask f : Nat), f < 16 →
    ∃ t, exec (.dgctlSnap m mask) s = .next t ∧ t = { s with regs := t.regs }
      ∧ (bit mask f = 1 → t.rd .DGSNAP m f = s.rd .DGSUM m f ∧ t.rn .DGSUM m f = 0
          ∧ t.rf .DGFLAG m 0 (16 + f) (16 + f) = s.rf .DGFLAG m 0 f f ∧ t.rf .DGFLAG m 0 f f = 0)
      ∧ (bit mask f = 0 → t.rd .DGSNAP m f = s.rd .DGSNAP m f ∧ t.rd .DGSUM m f = s.rd .DGSUM m f
          ∧ t.rf .DGFLAG m 0 (16 + f) (16 + f) = s.rf .DGFLAG m 0 (16 + f) (16 + f)
          ∧ t.rf .DGFLAG m 0 f f = s.rf .DGFLAG m 0 f f)
      ∧ ∀ d k, k ≠ Reg.key .DGFLAG m 0 → (∀ i, i < 16 → k ≠ Reg.key .DGSUM m i ∧ k ≠ Reg.key .DGSNAP m i) →
          Sparse.get d t.regs k = Sparse.get d s.regs k)
  ∧ (∀ (c : Nat → Instr) (rs : List Reg), ((c = .msdClrRest ∧ rs = [.RESTORE]) ∨ (c = .msdClrLlc ∧ rs = [.LLCHIT, .LLCMISS])
        ∨ (c = .chnClrScrub ∧ rs = [.SCRUB]) ∨ (c = .chnClrRs ∧ rs = [.RSCORR, .RSUNC, .RSPOIS])) →
      ∀ (i : Nat) (s : State), ∃ t, exec (c i) s = .next t ∧ t = { s with regs := t.regs } ∧ (∀ r ∈ rs, t.rn r i 0 = 0)
        ∧ ∀ d k, (∀ r ∈ rs, k ≠ r.key i 0) → Sparse.get d t.regs k = Sparse.get d s.regs k)
  ∧ (∀ (m : Nat) (s : State), ∃ t, exec (.msdClrPois m) s = .next t ∧ t = { s with regs := t.regs }
      ∧ t.rf .POIS m 0 11 11 = 0 ∧ t.rf .POIS m 0 10 0 = s.rf .POIS m 0 10 0
      ∧ ∀ d k, k ≠ Reg.key .POIS m 0 → Sparse.get d t.regs k = Sparse.get d s.regs k)
  ∧ (∀ (c : Nat) (s : State), ∃ t, exec (.chnClrPin c) s = .next t ∧ t = { s with regs := t.regs }
      ∧ (∀ p, p < 24 → t.rn .PINSYM c p = 0)
      ∧ ∀ d k, (∀ p, p < 24 → k ≠ Reg.key .PINSYM c p) → Sparse.get d t.regs k = Sparse.get d s.regs k)

/-- R124 to R130, R154, R443, R444: LAUNCH_ACCEPT on a core that takes the launch makes its groups, each at its entry with u0 to u3 and
every other register zero; on a core out of service, or in a cold cluster, the core is untouched and counted among the rejecting. -/
def Obligations.LaunchAcceptance : Prop :=
  (∀ (g f : Nat) (d : Desc) (s : State), s.launching g 1 = some (f, d) → s.inSvc g = true → s.coldBit (g / 64) = false →
    (s.core g).awake = true → (s.core g).kindBusy false = false → s.rejects f g d = false →
    let gf := fld (d.w 2) 17 13
    let gb := fld (d.w 2) 22 18
    let n := gf + gb + fld (d.w 2) 27 23
    let old := (s.core g).groups.length
    ∃ t, exec (.launchAccept g false) s = .next t
      ∧ (t.core g).groups.length = old + n ∧ (∀ i, i < old → (t.core g).groups[i]? = (s.core g).groups[i]?)
      ∧ (∀ q, q < n → ∃ gr, (t.core g).groups[old + q]? = some gr ∧ gr.q = q
          ∧ gr.strm = (if q < gf then Stream.f else if q < gf + gb then .b else .u)
          ∧ gr.pc = (if q < gf then fld (d.w 3) 19 0 else if q < gf + gb then fld (d.w 3) 39 20 else fld (d.w 3) 59 40)
          ∧ gr.win = gr.pc ∧ gr.unif 0 = BitVec.ofNat 64 (d.w 4) ∧ gr.unif 1 = BitVec.ofNat 64 g
          ∧ gr.unif 2 = BitVec.ofNat 64 d.acc.length ∧ gr.unif 3 = BitVec.ofNat 64 (fld (d.w 1) 24 12)
          ∧ (∀ i, 4 ≤ i → gr.unif i = 0) ∧ (∀ r l, gr.lane r l = 0) ∧ (∀ i, i ≠ 0 → gr.mask i = 0) ∧ gr.wait = none)
      ∧ (t.core g).hflask = f ∧ t.rf .SPLIT g 0 1 0 = fld (d.w 2) 1 0
      ∧ t.rf .SHAPE g 0 17 0 = (if n = 0 then 0 else fld (d.w 2) 4 2 + gf * 2 ^ 3 + gb * 2 ^ 8 + fld (d.w 2) 27 23 * 2 ^ 13) % 2 ^ 18
      ∧ t.rf .SHAPE g 0 23 18 = s.rf .SHAPE g 0 23 18
      ∧ (∀ o, t.byte o = if s.rf .SPLIT g 0 1 0 ≠ fld (d.w 2) 1 0 ∧ aper g ≤ o ∧ o < aper g + 0x8_0000 then 0 else s.byte o)
      ∧ (s.rf .SPLIT g 0 1 0 ≠ fld (d.w 2) 1 0 → (t.core g).zbusy = true ∧ t.rf .SPLIT g 0 4 4 = 1 ∧ (t.core g).cc = [])
      ∧ ∀ h, h ≠ g → t.core h = s.core h)
  ∧ (∀ (g f : Nat) (d : Desc) (s : State), s.launching g 2 = some (f, d) → s.inSvc g = true → s.coldBit (g / 64) = false →
    (s.core g).awake = true → (s.core g).kindBusy true = false → s.rejects f g d = false →
    let n := fld (d.w 2) 10 9
    let old := (s.core g).groups.length
    ∃ t, exec (.launchAccept g true) s = .next t
      ∧ (t.core g).groups.length = old + n ∧ (∀ i, i < old → (t.core g).groups[i]? = (s.core g).groups[i]?)
      ∧ (∀ q, q < n → ∃ gr, (t.core g).groups[old + q]? = some gr ∧ gr.q = q ∧ gr.strm = .g ∧ gr.pc = fld (d.w 3) 19 0
          ∧ gr.unif 0 = BitVec.ofNat 64 (d.w 4) ∧ gr.unif 1 = BitVec.ofNat 64 g
          ∧ gr.unif 2 = BitVec.ofNat 64 d.acc.length ∧ gr.unif 3 = BitVec.ofNat 64 (fld (d.w 1) 24 12)
          ∧ (∀ i, 4 ≤ i → gr.unif i = 0) ∧ (∀ r l, gr.lane r l = 0))
      ∧ t.rf .SHAPE g 0 23 18 = bit (d.w 2) 0 + n * 2 ^ 3 ∧ t.rf .SHAPE g 0 17 0 = s.rf .SHAPE g 0 17 0
      ∧ t.rn .SPLIT g 0 = s.rn .SPLIT g 0 ∧ t.mem = s.mem ∧ ∀ h, h ≠ g → t.core h = s.core h)
  ∧ (∀ (g f h : Nat) (l : List Nat) (guest : Bool) (d : Desc) (s : State),
    s.launching g (if guest then 2 else 1) = some (f, d) → d.todo = g :: h :: l →
    (s.inSvc g = false ∨ s.coldBit (g / 64) = true
      ∨ ((s.core g).awake = true ∧ (s.core g).kindBusy guest = false ∧ s.rejects f g d = true)) →
    ∃ t, exec (.launchAccept g guest) s = .next t ∧ t.cores = s.cores ∧ t.mem = s.mem ∧ t.regs = s.regs
      ∧ (t.q f).hand = some { d with todo := h :: l, rej := d.rej ++ [g] })
  ∧ (∀ (g f : Nat) (guest : Bool) (d : Desc) (s : State), s.launching g (if guest then 2 else 1) = some (f, d) →
    s.inSvc g = true → s.coldBit (g / 64) = false → (s.core g).kindBusy guest = true →
    exec (.launchAccept g guest) s = .next s)

/-- R115, R126, R141, R143, R409: the end of a zeroing, guaranteed mode, a sequencer mismatch and the reset that follows a quarantine. -/
def Obligations.CoreConditions : Prop :=
  (∀ (g : Nat) (s : State), (s.core g).zbusy = true →
    ∃ t, exec (.splitZeroingEnd g) s = .next t ∧ t.core g = { s.core g with zbusy := false } ∧ t.rf .SPLIT g 0 4 4 = 0
      ∧ t.rf .SPLIT g 0 3 0 = s.rf .SPLIT g 0 3 0 ∧ t.mem = s.mem ∧ ∀ h, h ≠ g → t.core h = s.core h)
  ∧ (∀ (g : Nat) (s : State), s.hasGuest g = true → s.rf .GSTARVE g 0 29 29 = 0 →
    ∃ t, exec (.guaranteedModeStart g) s = .next t ∧ t = { s with regs := t.regs } ∧ t.rf .GSTARVE g 0 16 0 = 65536
      ∧ t.rf .GSTARVE g 0 28 17 = 0 ∧ t.rf .GSTARVE g 0 29 29 = 1)
  ∧ (∀ (g : Nat) (s : State), s.hasGuest g = false → s.rf .GSTARVE g 0 29 29 = 1 →
    ∃ t, exec (.guaranteedModeEnd g) s = .next t ∧ t = { s with regs := t.regs } ∧ t.rn .GSTARVE g 0 = 0)
  ∧ (∀ (g : Nat) (st : Stream) (s : State), g < 4096 → s.inSvc g = true → (s.core g).awake = true → s.records.length < 4096 →
    ∃ t r, exec (.sequencerMismatch g st) s = .next t ∧ t.core g = { s.core g with stop := [4, 4, 4, 4], quar := true }
      ∧ (∀ st', (t.core g).runs st' = false) ∧ t.inSvc g = false ∧ (∀ h, h ≠ g → t.inSvc h = s.inSvc h ∧ t.core h = s.core h)
      ∧ t.rn .SEQMM g 0 = (if s.rf .SEQMM g 0 0 0 = 0 then 1 + 2 * streamNum st else s.rn .SEQMM g 0)
      ∧ (∃ q pc, t.notices = s.notices ++ (s.residents g).flatMap fun f => .stepEv f 3 :: (if s.isGuest f then [.fault f 7 g .g q pc 0] else []))
      ∧ t.records = s.records ++ [r] ∧ r.cls = 3 ∧ r.code = 0x10 ∧ r.inst = g ∧ r.flask = none ∧ t.mem = s.mem ∧ t.reqs = s.reqs)
  ∧ (∀ (g : Nat) (s : State), (s.core g).quar = true → s.quiet g false = true → s.quiet g true = true →
    ∃ t, exec (.quarantineReset g) s = .next t ∧ (t.core g).zero = true ∧ (t.core g).quar = false ∧ (t.core g).edge = []
      ∧ (t.core g).edgeP = [] ∧ (t.core g).stop = (s.core g).stop ∧ (t.core g).groups = (s.core g).groups ∧ t.regs = s.regs
      ∧ t.mem = s.mem ∧ ∀ h, h ≠ g → t.core h = s.core h)
  ∧ (∀ (g : Nat) (s : State), s.quarDue.contains g = true → s.records.length < 4096 →
    ∃ t r, exec (.strikeQuarantine g) s = .next t ∧ t.core g = { s.core g with stop := [4, 4, 4, 4], quar := true }
      ∧ (∀ h, h ≠ g → t.core h = s.core h) ∧ t.quarDue.contains g = false
      ∧ (∃ q pc, t.notices = s.notices ++ (s.residents g).flatMap fun f => .stepEv f 3 :: (if s.isGuest f then [.fault f 7 g .g q pc 0] else []))
      ∧ t.records = s.records ++ [r] ∧ r.cls = 3 ∧ r.code = 0x11 ∧ r.inst = g ∧ t.mem = s.mem ∧ t.reqs = s.reqs)

namespace Sys2Proof.Machine

/-- The number of a message is one its receiver has not taken: above its source's base by 1 to 1,024, and not in the map (R272). -/
def NewNumber (s : State) (m : Msg) : Prop :=
  let d := seqAbove (mSeq m) (Sparse.get 0 s.fab.base (mSrc m))
  0 < d ∧ d ≤ 1024 ∧ (Sparse.get [] s.fab.seen (mSrc m)).contains (mSeq m) = false

/-- The row of a request message and its opcode (R322). -/
def requestRow (c : Nat → Msg → Instr) (m : Msg) : Prop :=
  (c = .rd ∧ mOp m = 1) ∨ (c = .wr ∧ mOp m = 2) ∨ (c = .wrm ∧ mOp m = 3) ∨ (c = .atomMessage ∧ mOp m = 4)

/-- Bytes a request message accesses. -/
def requestLen (m : Msg) : Nat :=
  if mOp m = 3 then 128 else if mOp m = 4 then (if mAop m = 0xD ∨ mAop m = 0xE then 16 else mAsz m) else mLen m

end Sys2Proof.Machine

/-- R272, R327 to R330: a request message with a new number is checked, translated by the first window that holds it, and goes to its point
of coherence for the flask of its job; one with no matching job is answered REJECT and not applied; a duplicate is not applied. -/
def Obligations.RequestArrival : Prop :=
  ∀ (c : Nat → Msg → Instr) (p : Nat) (m : Msg) (s : State), requestRow c m → p < 16 →
    (s.rxHeld m = true → exec (c p m) s = .next s)
    ∧ (s.rxHeld m = false →
    (∀ f w, NewNumber s m → s.stby = false → s.nodeValid = true → s.jobFlask m = some f → s.stopped f = false → w < 32 →
      let off := mOffset m
      let n := requestLen m
      let v := s.jobWin f w
      v.1 = true → v.2.1 ≤ off → off + n ≤ v.2.1 + v.2.2.1 →
      (∀ i, i < w → ¬((s.jobWin f i).1 = true ∧ (s.jobWin f i).2.1 ≤ off ∧ off + n ≤ (s.jobWin f i).2.1 + (s.jobWin f i).2.2.1)) →
      off % 128 + n ≤ 128 → bit v.2.2.2.1 (permOf m) = 1 → s.reach none f (permOf m) (v.2.2.2.2 + (off - v.2.1)) n = true →
      ¬(mOp m = 4 ∧ mAop m = 0xF) → ¬(mFt m = true ∧ mFin m = true) →
      ∃ t r, exec (c p m) s = .next t ∧ t = { s with reqs := t.reqs, nextId := t.nextId, fab := t.fab }
        ∧ t.reqs = s.reqs ++ [r] ∧ r.id = s.nextId ∧ r.src = .node (mSrc m) (mSeq m) ∧ r.flask = f
        ∧ r.addr = v.2.2.2.2 + (off - v.2.1) ∧ r.size = n ∧ r.pois = mPoi m
        ∧ (mOp m = 1 → r.kind = .read) ∧ (mOp m = 2 → r.kind = .write ∧ r.data = m.data.take (mLen m) ∧ r.mask = [])
        ∧ (mOp m = 3 → r.kind = .write ∧ r.data = slice m.data 16 128
            ∧ ∀ i, i < 128 → r.mask[i]? = some (decide (bit (leAt m.data 0 16) i = 1)))
        ∧ (mOp m = 4 → r.aop = mAop m
            ∧ r.kind = (if mAop m = 0xD then .arrive else if mAop m = 0xE then .depart else .atom)))
    ∧ (NewNumber s m → s.stby = false → s.nodeValid = true → s.jobFlask m = none →
      ∃ t e, exec (c p m) s = .next t ∧ t.reqs = s.reqs ∧ t.mem = s.mem
        ∧ t.rn .REJECT p 0 = min (2 ^ 32 - 1) (s.rn .REJECT p 0 + 1) ∧ e ∈ t.fab.store ∧ e.node = mSrc m ∧ e.seq = mSeq m
        ∧ mOp e.msg = 0x10 ∧ mStatus e.msg = 1 ∧ mDst e.msg = mSrc m ∧ mSeq e.msg = mSeq m)
    ∧ ((seqAbove (mSeq m) (Sparse.get 0 s.fab.base (mSrc m)) = 0
        ∨ (Sparse.get [] s.fab.seen (mSrc m)).contains (mSeq m) = true) →
      ∃ t, exec (c p m) s = .next t ∧ t = { s with regs := t.regs, fab := t.fab }))

/-- R273, R318, R319, R322, R323, R326: a completion ends the request of its number and hands its status, data or old values back; one
whose number is not outstanding is discarded. A remote request is numbered and leaves on an up port of its route, or is answered. -/
def Obligations.CompletionArrival : Prop :=
  (∀ (c : Nat → Msg → Instr) (p : Nat) (m : Msg) (s : State) (o : Outst), p < 16 →
    o ∈ s.fab.outs → o.dst = mSrc m → o.seq = mSeq m → (∀ e ∈ s.fab.outs, e.dst = mSrc m → e.seq = mSeq m → e = o) →
    ((c = .cmp ∧ mOp m = 0x10) ∨ (c = .rdrsp ∧ mOp m = 0x11) ∨ (c = .atrsp ∧ mOp m = 0x12)) →
    ∃ t r, exec (c p m) s = .next t ∧ t = { s with fab := t.fab, resps := t.resps } ∧ t.resps = s.resps ++ [r] ∧ r.req = o.req
      ∧ r.status = mStatus m ∧ (∀ e, e ∈ t.fab.outs ↔ e ∈ s.fab.outs ∧ e ≠ o)
      ∧ r.data = (if mOp m = 0x11 then m.data.take (mLen m) else []) ∧ (r.pois = [] ↔ mPoi m = false)
      ∧ r.olds = (if mOp m = 0x12 then
            (if o.req.kind = .arrive then [leAt m.data 0 16, leAt m.data 16 8 % 2]
             else (List.range (mNops m)).map fun i => leAt m.data (mAsz m * i) (mAsz m))
          else []))
  ∧ (∀ (c : Nat → Msg → Instr) (p : Nat) (m : Msg) (s : State), p < 16 →
    (∀ e ∈ s.fab.outs, e.dst = mSrc m → e.seq ≠ mSeq m) →
    ((c = .cmp ∧ mOp m = 0x10) ∨ (c = .rdrsp ∧ mOp m = 0x11) ∨ (c = .atrsp ∧ mOp m = 0x12)) →
    ∃ t, exec (c p m) s = .next t ∧ t = { s with fab := t.fab } ∧ t.fab.outs = s.fab.outs)
  ∧ (∀ (id : Nat) (s : State) (q : Req) (x : Who), s.reqs.find? (fun r => r.id = id) = some q → bit q.addr 63 = 1 → q.rel = [] →
    q.src = .grp x → s.cutRoute q = false → s.fab.ports.length = 16 →
    let d := nodeOf q.addr
    seqAbove ((s.lastSeq d + 1) % 2 ^ 32) (s.floorOf d) < 1024 → (s.fab.outs.filter fun o => o.dst % 2 = d % 2).length < 16384 →
    (s.nodeValid = true → d ≠ s.ownNode → (∃ p, p < 16 ∧ bit (s.rn .ROUTE 0 d) p = 1 ∧ s.portUp p = true) →
      ∃ t o, exec (.remoteRequestIntake id) s = .next t ∧ t = { s with reqs := t.reqs, fab := t.fab }
        ∧ t.reqs = s.reqs.filter (fun r => r.id ≠ id) ∧ t.fab.outs = s.fab.outs ++ [o] ∧ o.dst = d ∧ o.req = q
        ∧ o.seq = (s.lastSeq d + 1) % 2 ^ 32 ∧ t.lastSeq d = o.seq ∧ o.port < 16 ∧ bit (s.rn .ROUTE 0 d) o.port = 1
        ∧ s.portUp o.port = true ∧ (t.port o.port).tx = (s.port o.port).tx ++ [(0, q.flask, o.msg)]
        ∧ (∀ p, p ≠ o.port → t.port p = s.port p)
        ∧ mDst o.msg = d ∧ mSrc o.msg = s.ownNode ∧ mSeq o.msg = o.seq ∧ mOffset o.msg = (if q.kind = .read then fld q.addr 47 0 / 128 * 128 + q.span.1 else fld q.addr 47 0)
        ∧ mJob o.msg = s.jobId q.flask)
    ∧ (s.nodeValid = false → ∃ t r, exec (.remoteRequestIntake id) s = .next t ∧ t = { s with reqs := t.reqs, resps := t.resps }
        ∧ t.resps = s.resps ++ [r] ∧ r.req = q ∧ r.status = 3)
    ∧ (s.nodeValid = true → d ≠ s.ownNode → (∀ p, p < 16 → bit (s.rn .ROUTE 0 d) p = 1 → s.portUp p = false) →
      ∃ t r, exec (.remoteRequestIntake id) s = .next t ∧ t.resps = s.resps ++ [r] ∧ r.req = q ∧ r.status = 4
        ∧ t.fab.outs = s.fab.outs ∧ t.fab.ports = s.fab.ports ∧ t.mem = s.mem))

/-- R274, R322, R328, R330, R331, R336, R346: FLOOR, the copies and messages a port discards, a lost node, and the node, route and job
registers. -/
def Obligations.FabricUpkeep : Prop :=
  (∀ (p : Nat) (m : Msg) (s : State), p < 16 → mOp m = 5 → mFloor m ≠ 0 →
    seqBelow (mFloor m) (Sparse.get 0 s.fab.floorIn (mSrc m)) = false →
    ∃ t, exec (.floor p m) s = .next t ∧ t = { s with fab := t.fab } ∧ Sparse.get 0 t.fab.floorIn (mSrc m) = mFloor m
      ∧ ∀ e, e ∈ t.fab.store ↔ e ∈ s.fab.store ∧ ¬(e.node = mSrc m ∧ seqBelow e.seq (mFloor m) = true))
  ∧ (∀ (d p : Nat) (s : State), s.fab.ports.length = 16 → s.fab.floorDue.contains d = true → s.pickPort d 0 = some p →
    ∃ t m, exec (.floorSend d) s = .next t ∧ t = { s with fab := t.fab } ∧ t.fab.floorDue.contains d = false
      ∧ (t.port p).tx = (s.port p).tx ++ [(3, 0, m)] ∧ mOp m = 5 ∧ mDst m = d % 2 ^ 14 ∧ mFloor m = s.floorOf d % 2 ^ 32)
  ∧ (∀ (p : Nat) (m : Msg) (s : State), s.fab.ports.length = 16 → (s.port p).rx.contains m = true →
    ∃ t, exec (.copyAgeDiscard p m) s = .next t ∧ t = { s with fab := t.fab, regs := t.regs }
      ∧ (t.port p).rx = (s.port p).rx.erase m ∧ t.rn .DROP p 0 = min (2 ^ 32 - 1) (s.rn .DROP p 0 + 1) ∧ t.fab.outs = s.fab.outs)
  ∧ (∀ (p : Nat) (m : Msg) (s : State) (q : Port), p < 16 → s.fab.ports.length = 16 → (s.port p).rx.contains m = false →
    (s.port p).forget m = some q →
    ∃ t, exec (.copyAgeDiscard p m) s = .next t ∧ t = { s with fab := t.fab, regs := t.regs } ∧ t.port p = q
      ∧ t.rn .DROP p 0 = min (2 ^ 32 - 1) (s.rn .DROP p 0 + 1) ∧ ∀ k, k ≠ p → t.port k = s.port k)
  ∧ (∀ (p : Nat) (m : Msg) (s : State), p < 16 → opKnown (mOp m) = false → s.records.length < 4096 →
    ∃ t r, exec (.unknownOpcodeMessage p m) s = .next t ∧ t.rn .DROP p 0 = min (2 ^ 32 - 1) (s.rn .DROP p 0 + 1)
      ∧ t.records = s.records ++ [r] ∧ r.code = 0x1B ∧ r.inst = p ∧ r.d0 = m.w0.toNat ∧ t.reqs = s.reqs ∧ t.resps = s.resps
      ∧ t.mem = s.mem)
  ∧ (∀ (p : Nat) (m : Msg) (s : State), p < 16 → mOp m = 0x20 → s.records.length < 4096 → (∀ f, s.jobOk f = false) →
    (∀ o ∈ s.fab.outs, ∃ x, o.req.src = .grp x) →
    let d := mOffset m % 2 ^ 14
    let mine := s.fab.outs.filter fun o => o.dst = d
    ∃ t, exec (.unreach p m) s = .next t ∧ (∀ o, o ∈ t.fab.outs ↔ o ∈ s.fab.outs ∧ o.dst ≠ d)
      ∧ t.resps = s.resps ++ mine.map (fun o => { req := o.req, data := [], pois := [], olds := [], status := 4 })
      ∧ t.mem = s.mem ∧ t.records.length = s.records.length + 1)
  ∧ (∀ (v : BitVec 32) (s : State),
    ((∀ f, s.jobOk f = false) → ∃ t, exec (.lnkNodeWrite v) s = .next t ∧ t = { s with regs := t.regs }
      ∧ t.ownNode = fld v.toNat 13 0 ∧ (t.nodeValid = true ↔ bit v.toNat 31 = 1))
    ∧ ((∃ f, f < 16 ∧ s.jobOk f = true) → ∃ t, exec (.lnkNodeWrite v) s = .next t ∧ t.rn .NODE 0 0 = s.rn .NODE 0 0))
  ∧ (∀ (d mask : Nat) (s : State), d < 16384 → mask < 2 ^ 16 →
    (mask ≠ 0 → (∃ p, p < 16 ∧ bit mask p = 1 ∧ s.portUp p = true) →
      ∃ t, exec (.lnkRouteWrite d mask) s = .next t ∧ t = { s with regs := t.regs } ∧ t.rn .ROUTE 0 d = mask)
    ∧ (mask ≠ 0 → (∀ p, p < 16 → bit mask p = 1 → s.portUp p = false) → (∃ o ∈ s.fab.outs, o.dst = d) →
        (∀ f, s.jobOk f = false) → (∀ o ∈ s.fab.outs, ∃ x, o.req.src = .grp x) →
        ∃ t, exec (.lnkRouteWrite d mask) s = .next t ∧ t.rn .ROUTE 0 d = mask ∧ t.mem = s.mem
          ∧ (∀ o, o ∈ t.fab.outs ↔ o ∈ s.fab.outs ∧ o.dst ≠ d)
          ∧ t.resps = s.resps ++ (s.fab.outs.filter fun o => o.dst = d).map
              (fun o => { req := o.req, data := [], pois := [], olds := [], status := 4 }))
    ∧ (mask = 0 → (∀ o ∈ s.fab.outs, o.dst ≠ d) → ∃ t, exec (.lnkRouteWrite d mask) s = .next t
        ∧ t = { s with regs := t.regs, fab := t.fab } ∧ t.rn .ROUTE 0 d = 0 ∧ t.lastSeq d = 0 ∧ Sparse.get 0 t.fab.base d = 0
        ∧ Sparse.get [] t.fab.seen d = [] ∧ t.fab.outs = s.fab.outs ∧ t.fab.ports = s.fab.ports)
    ∧ (mask = 0 → (∃ o ∈ s.fab.outs, o.dst = d) → ∃ t, exec (.lnkRouteWrite d mask) s = .next t
        ∧ t.rn .ROUTE 0 d = s.rn .ROUTE 0 d ∧ t.fab = s.fab))
  ∧ (∀ (f : Nat) (s : State), f < 16 →
    ((∀ g, g < 16 → g ≠ f → s.jobOk g = true → s.jobId g ≠ s.rf .JOB f 0 15 0) → (∀ w, w < 32 → s.winOk f w = true) →
      s.nodeValid = true →
      ∃ t, exec (.jobCommit f) s = .next t ∧ t = { s with regs := t.regs } ∧ t.rd .JACT f 0 = s.rd .JOB f 0
        ∧ (∀ w, w < 32 → t.rd .JWBASE f (32 + w) = s.rd .JWBASE f w ∧ t.rd .JWSIZE f (32 + w) = s.rd .JWSIZE f w
            ∧ t.rd .JWTGT f (32 + w) = s.rd .JWTGT f w))
    ∧ (s.nodeValid = false → ∃ t, exec (.jobCommit f) s = .next t ∧ t.rd .JACT f 0 = s.rd .JACT f 0 ∧ t.fab = s.fab
        ∧ t.cores = s.cores ∧ t.mem = s.mem))

namespace Sys2Proof.Machine

/-- Port `p` has gone down for the cause `why` (R333, R334): neither trained nor up, its sent flits forgotten, its down count one higher;
every other port is as up as before, and no byte of memory changed. -/
structure WentDown (p why : Nat) (s t : State) : Prop where
  up : t.portUp p = false
  trained : t.trained p = false
  why : t.rf .LNKSTAT p 0 11 8 = why
  count : t.rn .DOWN p 0 = min (2 ^ 32 - 1) (s.rn .DOWN p 0 + 1)
  fresh : (t.port p).unack = [] ∧ (t.port p).replay = [] ∧ (t.port p).lsn = 0
  others : ∀ q, q ≠ p → t.portUp q = s.portUp q
  mem : t.mem = s.mem

/-- A received flit of a kind (R311) that checks and asks for no replay. -/
def CleanFlit (flit : List Byte) (kind : Nat) : Prop :=
  flitGood flit = true ∧ fld (flitCtl flit) 1 0 = kind ∧ bit (flitCtl flit) 2 = 0

end Sys2Proof.Machine

/-- R310 to R313, R332: what a slot of a trained port carries: SKIP in every 4,096th, the keep-alive of the period, a replayed flit, a
new DATA flit with the next LSN, or IDLE; every new flit is 200 bytes with its CRC. -/
def Obligations.FlitSending : Prop :=
  ∀ (p : Nat) (s : State), p < 16 → s.trained p = true → s.fab.ports.length = 16 →
    let q := s.port p
    let New (t : State) (bs : List Byte) (kind : Nat) : Prop :=
      t = { s with fab := t.fab, regs := t.regs, out := t.out } ∧ t.out = .flit p bs :: s.out ∧ bs.length = 200
        ∧ leAt bs 0 8 % 4 = kind ∧ fld (leAt bs 0 8) 26 15 = q.ack % 4096 ∧ bit (leAt bs 0 8) 2 = (if q.nak = true then 1 else 0)
        ∧ leAt bs 196 4 = (flitCrc (bs.take 196)).toNat ∧ (t.port p).slot = q.slot + 1 ∧ (t.port p).nak = false
    (q.slot % 4096 = 4095 → ∃ t bs, exec (.flitSlot p) s = .next t ∧ New t bs 2 ∧ t.regs = s.regs)
    ∧ (q.slot % 4096 ≠ 4095 → q.ka ≠ s.acnt / 25 → ∃ t bs, exec (.flitSlot p) s = .next t ∧ New t bs 1 ∧ t.regs = s.regs
        ∧ (t.port p).ka = s.acnt / 25
        ∧ leAt bs 16 4 = (if s.nodeValid = true then s.ownNode else 0) + p * 2 ^ 14 + s.kaState * 2 ^ 18)
    ∧ (q.slot % 4096 ≠ 4095 → q.ka = s.acnt / 25 →
        (∀ e l, q.replay = e :: l → ∃ t, exec (.flitSlot p) s = .next t ∧ t.out = .flit p e.2 :: s.out ∧ (t.port p).replay = l
            ∧ (t.port p).unack = q.unack ∧ (t.port p).lsn = q.lsn ∧ t.rd .TXFLIT p 0 = s.rd .TXFLIT p 0 + 1)
        ∧ (q.replay = [] → q.unack.length < 2048 → q.cur.isSome = true → q.left ≠ [] →
            ∃ t bs, exec (.flitSlot p) s = .next t ∧ New t bs 0 ∧ fld (leAt bs 0 8) 14 3 = q.lsn % 4096
              ∧ (∀ k, k < 188 → k < q.left.length → bs[8 + k]? = q.left[k]?) ∧ (t.port p).unack = q.unack ++ [(q.lsn, bs)]
              ∧ (t.port p).lsn = (q.lsn + 1) % 4096 ∧ t.rd .TXFLIT p 0 = s.rd .TXFLIT p 0 + 1)
        ∧ (q.replay = [] → (2048 ≤ q.unack.length ∨ (q.cur = none ∧ q.tx = [])) →
            ∃ t bs, exec (.flitSlot p) s = .next t ∧ New t bs 3 ∧ t.regs = s.regs ∧ (t.port p).unack = q.unack))

/-- R311, R313, R324, R332, R342, R343: a DATA flit whose CRC fails is discarded and asks for a replay; one with another LSN is discarded;
the expected one delivers its message. The other kinds return credits, and a keep-alive tells of the peer. -/
def Obligations.FlitReceiving : Prop :=
  ∀ (p : Nat) (fec : List LaneWord) (flit : List Byte) (s : State), p < 16 → s.trained p = true → s.fab.ports.length = 16 →
    let q := s.port p
    let c := flitCtl flit
    let Credited (t : State) : Prop :=
      ∀ i, i < q.cred.length → (t.port p).cred.getD i 0 = q.cred.getD i 0 + if i = fld c 28 27 then fld c 38 29 else 0
    (fld c 1 0 = 0 → flitGood flit = false → ∃ t, exec (.dataFlit p fec flit) s = .next t
        ∧ t = { s with fab := t.fab, regs := t.regs } ∧ (t.port p).nak = true ∧ (t.port p).ack = q.ack ∧ (t.port p).rx = q.rx)
    ∧ (CleanFlit flit 0 → fld c 14 3 ≠ q.ack → ∃ t, exec (.dataFlit p fec flit) s = .next t ∧ t = { s with regs := t.regs })
    ∧ (∀ m, CleanFlit flit 0 → fld c 14 3 = q.ack → q.part = [] → fld c 46 39 = 0 → mOp m ≠ 0 → m.data.length = 4 * mDlen m →
        slice flit 8 188 = msgBytes m ++ List.replicate (188 - (msgBytes m).length) 0 →
        ∃ t, exec (.dataFlit p fec flit) s = .next t ∧ t = { s with fab := t.fab, regs := t.regs }
          ∧ (t.port p).ack = (q.ack + 1) % 4096 ∧ (t.port p).rx = q.rx ++ [m] ∧ (t.port p).part = []
          ∧ t.rd .RXFLIT p 0 = s.rd .RXFLIT p 0 + 1 ∧ Credited t)
    ∧ (∀ (k : Nat → List LaneWord → List Byte → Instr), ((k = .skip ∧ CleanFlit flit 2) ∨ (k = .idle ∧ CleanFlit flit 3)) →
        ∃ t, exec (k p fec flit) s = .next t ∧ t = { s with fab := t.fab, regs := t.regs } ∧ (t.port p).rx = q.rx
          ∧ (t.port p).ack = q.ack ∧ Credited t ∧ t.rd .FECCORR p 0 = s.rd .FECCORR p 0 + BitVec.ofNat 64 (fec.map LaneWord.fixed).sum)
    ∧ (CleanFlit flit 1 → ∃ t, exec (.keepalive p fec flit) s = .next t ∧ t = { s with fab := t.fab, regs := t.regs }
        ∧ Credited t ∧ t.rn .PEER p 0 = fld (leAt flit 16 4) 17 0 ∧ t.rf .LNKSTAT p 0 6 4 = fld (leAt flit 16 4) 20 18
        ∧ t.rf .LNKSTAT p 0 7 7 = bit (leAt flit 16 4) 21 ∧ t.rf .LNKSTAT p 0 3 0 = s.rf .LNKSTAT p 0 3 0)

/-- R314 to R316, R333 to R335, R337, R341, R345, R526, R527: training, coming up, going down, cages, and the port counters' clears. -/
def Obligations.PortStates : Prop :=
  (∀ (c : Nat → Instr) (why p : Nat) (s : State), p < 16 → s.fab.ports.length = 16 → s.trained p = true →
    ((c = .keepaliveTimeout ∧ why = 1) ∨ (c = .electricalIdle ∧ why = 2) ∨ (c = .portReset ∧ why = 4)
      ∨ (c = (fun p => .lnkCtlEn p false) ∧ why = 4) ∨ (c = .cageOvercurrent ∧ why = 6 ∧ (s.port p).cut = false)) →
    ∃ t, exec (c p) s = .next t ∧ WentDown p why s t ∧ (c = .electricalIdle → t.rf .LNKSTAT p 0 2 2 = 1)
      ∧ (c = (fun p => .lnkCtlEn p false) → t.rn .LNKCTL p 0 = 0)
      ∧ (c = .cageOvercurrent → (t.port p).cut = true ∧ (t.port p).held = true))
  ∧ (∀ (p : Nat) (c : Cable) (s : State), s.fab.ports.length = 16 → s.mayTrain p c = true → c.hot = false →
    (∀ ok, (blockOk c.block = true ∧ 7600 < leAt c.block 6 2) ∨ (blockOk c.block = false ∧ cableClass c.media c.len = none) →
      ∃ t, exec (.portTraining p ok c) s = .next t ∧ t = { s with fab := t.fab, regs := t.regs } ∧ t.trained p = false
        ∧ t.rf .LNKSTAT p 0 11 8 = 5 ∧ (t.port p).held = true ∧ t.rn .CABLE p 0 = cableReg c)
    ∧ ((blockOk c.block = true ∧ leAt c.block 6 2 ≤ 7600) ∨ (blockOk c.block = false ∧ cableClass c.media c.len ≠ none) →
      ∃ t, exec (.portTraining p false c) s = .next t ∧ t = { s with fab := t.fab, regs := t.regs } ∧ t.trained p = false
        ∧ t.rf .LNKSTAT p 0 11 8 = 6 ∧ (t.port p).held = (s.port p).held ∧ t.rn .CABLE p 0 = cableReg c)
    ∧ (blockOk c.block = true → leAt c.block 6 2 ≤ 7600 → ∃ t, exec (.portTraining p true c) s = .next t
        ∧ t = { s with fab := t.fab, regs := t.regs } ∧ t.trained p = true ∧ t.portUp p = s.portUp p ∧ t.rf .LNKSTAT p 0 2 2 = 0
        ∧ t.rf .CABLE p 0 31 16 = leAt c.block 6 2 ∧ t.rf .CABLE p 0 10 9 = 1 ∧ t.rf .CABLE p 0 8 5 = leAt c.block 4 1
        ∧ t.rf .CABLE p 0 2 0 = leAt c.block 3 1 ∧ (t.port p).lsn = 0 ∧ (t.port p).ack = 0)
    ∧ (∀ k, blockOk c.block = false → cableClass c.media c.len = some k → s.records.length < 4096 →
        ∃ t r, exec (.portTraining p true c) s = .next t ∧ t.trained p = true ∧ t.rf .CABLE p 0 10 9 = 2
          ∧ t.rf .CABLE p 0 31 16 = [60, 110, 300, 2600, 7600].getD k 0 ∧ t.rf .CABLE p 0 8 5 = [1, 2, 3, 4, 4].getD k 0
          ∧ t.rf .CABLE p 0 2 0 = k ∧ t.records = s.records ++ [r] ∧ r.cls = 2 ∧ t.mem = s.mem))
  ∧ (∀ (p : Nat) (s : State), p < 16 → s.fab.ports.length = 16 →
    (s.trained p = true → s.portUp p = false → ∃ t, exec (.portUp p) s = .next t ∧ t = { s with regs := t.regs } ∧ t.portUp p = true
      ∧ ∀ q, q ≠ p → t.portUp q = s.portUp q)
    ∧ (∀ c, s.trained p = false → (s.port p).ready = false → (s.port p).cable = some c → c.active = true →
        ∃ t, exec (.moduleStartTimeout p) s = .next t
        ∧ t = { s with fab := t.fab, regs := t.regs } ∧ (t.port p).held = true ∧ t.rf .LNKSTAT p 0 11 8 = 6)
    ∧ ((s.port p).cut = false → (∀ c, (s.port p).cable = some c → c.hot = false) → ∃ t, exec (.cmisModuleReady p) s = .next t
        ∧ t = { s with fab := t.fab } ∧ t.port p = { s.port p with ready := true, held := false })
    ∧ (s.trained p = false → s.portUp p = false → ∃ t, exec (.portReset p) s = .next t ∧ t = { s with fab := t.fab }
        ∧ t.port p = { s.port p with held := false })
    ∧ (∃ t, exec (.lnkCtlEn p true) s = .next t ∧ t = { s with regs := t.regs } ∧ t.rn .LNKCTL p 0 = 1)
    ∧ (∀ c, (s.port p).cable = none → ∃ t, exec (.cageInsertion p c) s = .next t ∧ t = { s with fab := t.fab, regs := t.regs }
        ∧ t.port p = { s.port p with cable := some c, ready := false, held := c.hot, cut := false } ∧ t.rf .PINS 0 0 p p = 1
        ∧ (c.hot = true → t.rf .LNKSTAT p 0 11 8 = 6))
    ∧ (∃ t, exec (.cageRemoval p) s = .next t ∧ t = { s with fab := t.fab, regs := t.regs }
        ∧ t.port p = { s.port p with cable := none, ready := false, held := (s.port p).cut } ∧ t.rf .PINS 0 0 p p = 0
        ∧ t.rf .LNKSTAT p 0 2 2 = 1))
  ∧ (∀ (c : Nat → Instr) (rs : List Reg), ((c = .lnkClrFlit ∧ rs = [.TXFLIT, .RXFLIT]) ∨ (c = .lnkClrDrop ∧ rs = [.DROP])
        ∨ (c = .lnkClrReject ∧ rs = [.REJECT]) ∨ (c = .lnkClrDown ∧ rs = [.DOWN]) ∨ (c = .lnkClrReplay ∧ rs = [.REPLAY])
        ∨ (c = .lnkClrFec ∧ rs = [.FECCORR])) →
      ∀ (p : Nat) (s : State), ∃ t, exec (c p) s = .next t ∧ t = { s with regs := t.regs } ∧ (∀ r ∈ rs, t.rn r p 0 = 0)
        ∧ ∀ d k, (∀ r ∈ rs, k ≠ r.key p 0) → Sparse.get d t.regs k = Sparse.get d s.regs k)

namespace Sys2Proof.Machine

/-- No latent error and no symbol error is held anywhere and no miss is under way: what an engine's read finds is what was
written. -/
def NoErrors (s : State) : Prop := s.m.derr = [] ∧ s.m.lerr = [] ∧ s.m.serr = [] ∧ s.m.miss = []

/-- The flask keeps no input journal (R410). -/
def NoJournal (s : State) (f : Nat) : Prop := s.rf .JRNL f 0 63 48 = 0

/-- An instruction held for an engine has issued: its group has moved on and waits for nothing, one issue is counted, and no register of
the group, no other core and no lane changed. -/
structure WentOn (x : Who) (gr : Group) (s t : State) : Prop where
  group : ∃ gr', t.group x = some gr' ∧ gr'.pc = gr.pc + 8 ∧ gr'.wait = none ∧ gr'.v = gr.v ∧ gr'.u = gr.u ∧ gr'.k = gr.k
  count : t.rd .ISSUE x.core (streamNum x.strm) = s.rd .ISSUE x.core (streamNum x.strm) + 1
  others : ∀ g, g ≠ x.core → (t.core g).groups.map Group.pc = (s.core g).groups.map Group.pc

/-- An instruction held for an engine is not ready: its group waits on it, its program counter still there. -/
def HeldFor (x : Who) (k : WKind) (gr : Group) (s t : State) : Prop :=
  (∃ w, t.group x = some { gr with wait := some w } ∧ w.kind = k) ∧ t.mem = s.mem ∧ t.runner = s.runner ∧ t.reqs = s.reqs

end Sys2Proof.Machine

/-- R148, R191, R375, R377, R378: LCMK sends its mark to the ladles; QPUT sends its part to the peer and QTAKE copies it to local store, or
they wait; RNEXT writes its record, RFREE counts its release. -/
def Obligations.EngineInstructions : Prop :=
  ∀ (x : Who) (w : BitVec 56) (s : State) (gr : Group),
    let n := w.toNat
    let ua := fld n 55 51
    let v := gr.unif ua
    let f := s.flaskOf x
    (Issues s x gr true [] → x.strm = .u → s.uQuiet x.core = true → fld n 55 32 = 0 → fld n 31 16 = 0 →
      ∃ t gr' m, exec (.lcmk x w) s = .next t ∧ Retired x gr' false (s.fetched x gr.pc) { t with ladle := s.ladle }
        ∧ gr' = { gr with pc := gr.pc + 8, win := max gr.win (gr.pc - 256) }
        ∧ t.ladle = { s.ladle with marks := s.ladle.marks ++ [m] } ∧ m.who = x ∧ m.flask = f ∧ m.val = fld n 15 0)
    ∧ (let q := fld n 7 0
       let off := rfld v 19 0
       let len := rfld v 39 20
       let p := rfld v 51 40
       Issues s x gr true [256 + ua] → fld n 50 32 = 0 → fld n 31 8 = 0 → s.qOk q = true → s.qFlask q = f → p < s.qParts q →
       1 ≤ len → len ≤ s.qPartSz q → x.strm = (if s.qGrad q = true then .b else .f) → off % 128 = 0 →
       s.lsOk x.core false off len = true → (s.qRecv q = false → s.jobOk f = true) →
       (s.qRecv q = false → s.qCredit q p = true → ∃ t rs e, exec (.qput x w) s = .next t ∧ WentOn x gr s t ∧ t.mem = s.mem
          ∧ t.reqs = s.reqs ++ rs ∧ (rs.map Req.data).flatten = s.bytes (lsAt x.core off) len
          ∧ (∀ i r, rs[i]? = some r → r.kind = .write ∧ r.flask = f
              ∧ r.addr = 2 ^ 63 + s.rf .RQPEER 0 q 57 44 * 2 ^ 48
                  + (s.rf .RQPEER 0 q 35 0 * 4096 + s.qAt q (s.qPuts q p) p) % 2 ^ 48 + 128 * i)
          ∧ t.qPuts q p = s.qPuts q p + 1 ∧ t.runner.sends = s.runner.sends ++ [e] ∧ e.q = q ∧ e.part = p ∧ e.seqn = s.qPuts q p
          ∧ e.ids = rs.map Req.id)
       ∧ (s.qRecv q = false → s.qCredit q p = false → ∃ t, exec (.qput x w) s = .next t ∧ HeldFor x .qput gr s t)
       ∧ (let a := s.rf .RQBASE 0 q 47 7 * 128 + s.qAt q (s.qTakes q p) p
          s.qRecv q = true → s.engOk f 0 a len = true →
          ((∀ i, i < s.qParts q → s.runner.ready.contains (q, i, s.qTakes q p) = true) → NoErrors s → NoJournal s f →
            ∃ t, exec (.qtake x w) s = .next t ∧ WentOn x gr s t ∧ t.qTakes q p = s.qTakes q p + 1
              ∧ (∀ k, k < len → t.byte (lsAt x.core off + k) = s.byte (s.view (a + k)))
              ∧ ∀ o, (o < lsAt x.core off ∨ lsAt x.core off + len ≤ o) → t.byte o = s.byte o)
          ∧ ((∃ i, i < s.qParts q ∧ s.runner.ready.contains (q, i, s.qTakes q p) = false) →
            ∃ t, exec (.qtake x w) s = .next t ∧ HeldFor x .qtake gr s t)))
    ∧ (let c := fld n 4 0
       let r := s.ring c
       Issues s x gr true [256 + ua] → isG x.strm = false → fld n 50 32 = 0 → fld n 31 5 = 0 → s.ctxOf c f = true →
       (r.run = true → r.has x.core = true →
         let t' := Sparse.get 0 gr.ring c
         let pre := fld v.toNat 19 0
         t' < r.size →
         (pre % 16 = 0 → s.lsOk x.core false pre 16 = true →
           r.present t' ((x.core - r.cbase) * r.slice) ((x.core - r.cbase + 1) * r.slice) = true →
           ∃ t, exec (.rnext x w) s = .next t ∧ WentOn x gr s t ∧ t.runner = s.runner
             ∧ t.le (lsAt x.core pre) 4 = t' % 2 ^ 32
             ∧ t.le (lsAt x.core pre + 4) 2 = (fld (r.w 2) 30 24 + r.size - t' % r.size) % r.size
             ∧ t.le (lsAt x.core pre + 8) 4 = (if t' % 2 = 0 then fld (r.w 3) 19 0 else fld (r.w 3) 39 20)
             ∧ ∀ o, (o < lsAt x.core pre ∨ lsAt x.core pre + 16 ≤ o) → t.byte o = s.byte o)
         ∧ (pre % 16 = 0 → s.lsOk x.core false pre 16 = true →
           r.present t' ((x.core - r.cbase) * r.slice) ((x.core - r.cbase + 1) * r.slice) = false →
           ∃ t, exec (.rnext x w) s = .next t ∧ HeldFor x .rnext gr s t)
         ∧ (bit v.toNat 0 = t' % 2 →
           s.inFlight (fun q => q.src = .grp x && q.kind ≠ .read && bit q.addr 63 = 0
             && aperOf (fld q.addr 47 0) = some x.core) = false →
           ∃ t gr', exec (.rfree x w) s = .next t ∧ WentOn x gr s t ∧ t.mem = s.mem ∧ t.group x = some gr'
             ∧ Sparse.get 0 gr'.ring c = t' + 1
             ∧ ((t.ring c).run = true →
                 Sparse.get 0 (t.ring c).frees (4096 * t' + x.core) = Sparse.get 0 r.frees (4096 * t' + x.core) + 1)))
       ∧ (r.run = false → ∀ e s', s.ctxEntry f c = (some e, s') → RingSt.has { RingSt.init with ent := e } x.core = true →
         fld v.toNat 19 0 % 16 = 0 → s.lsOk x.core false (fld v.toNat 19 0) 16 = true →
         ∃ t, exec (.rnext x w) s = .next t ∧ WentOn x gr s t ∧ (t.ring c).run = true ∧ (t.ring c).ent = e
           ∧ (t.ring c).round = (r.round + 1) % 2 ^ 32 ∧ (t.ring c).cred = 1))

namespace Sys2Proof.Machine

/-- A collective message that its ladle takes: for the flask of its job, a valid group of that flask, and the group's current step, with no
credits in its flit (R356, R366). -/
structure Taken (s : State) (m : Msg) (f : Nat) : Prop where
  flask : s.jobFlask m = some f
  group : s.gOk (cGrp m) = true ∧ s.gFlask (cGrp m) = f
  step : cStep m = s.gStep (cGrp m)

/-- Key of a reduction message in the duplicate filter (R359). -/
def childKey (m : Msg) : List Nat := [cGrp m, cStep m, cLayer m, cLevel m, cNode m, cStripe m]

end Sys2Proof.Machine

/-- R356, R359, R363 to R366, R369: a LEAF or PART of the current step is held for its absent sibling; a second copy, a late layer or another
step is counted and dropped; LATE abandons its layer; a TUND line is written at its translated place and counted. -/
def Obligations.LadleMessages : Prop :=
  (∀ (c : Nat → Msg → Nat → Instr) (p f : Nat) (m : Msg) (s : State), ((c = .leaf ∧ mOp m = 0x30) ∨ (c = .part ∧ mOp m = 0x31)) →
    p < 16 → Taken s m f →
    let g := cGrp m
    let l := cLayer m
    let i := cStripe m % 2
    ((s.layer g l).late = false → s.ladle.seen.contains (childKey m) = false → 1 ≤ cLevel m →
      (2 * cNode m + 1) * 2 ^ (cLevel m - 1) < s.gN g →
      (∀ h ∈ s.ladle.hold, ¬(h.g = g ∧ h.layer = l ∧ h.level = cLevel m ∧ h.node = cNode m ∧ h.stripe = cStripe m)) →
      ∃ t h, exec (c p m 0) s = .next t ∧ t = { s with ladle := t.ladle, fab := t.fab } ∧ t.ladle.hold = s.ladle.hold ++ [h]
        ∧ h.g = g ∧ h.layer = l ∧ h.level = cLevel m ∧ h.node = cNode m ∧ h.stripe = cStripe m ∧ h.v.pblk = cPblk m
        ∧ (mOp m = 0x31 → h.v.vals = (List.range 128).map fun k => BitVec.ofNat 32 (leAt m.data (32 + 4 * k) 4))
        ∧ (mOp m = 0x30 → ∀ b k, b < 4 → k < 32 →
            h.v.vals[32 * b + k]? = some (toF32 (blockVal 16 (leAt m.data (288 + b) 1) (leAt m.data (32 + 64 * b) 64) k)))
        ∧ t.ladle.seen = s.ladle.seen ++ [childKey m])
    ∧ ((s.layer g l).late = false → s.ladle.seen.contains (childKey m) = true →
      ∃ t, exec (c p m 0) s = .next t ∧ t.ladle = s.ladle ∧ t.rn .DUP i 0 = min (2 ^ 32 - 1) (s.rn .DUP i 0 + 1) ∧ t.mem = s.mem)
    ∧ ((s.layer g l).late = true →
      ∃ t, exec (c p m 0) s = .next t ∧ t.ladle.hold = s.ladle.hold ∧ t.rn .STALE i 0 = min (2 ^ 32 - 1) (s.rn .STALE i 0 + 1)
        ∧ t.mem = s.mem))
  ∧ (∀ (c : Nat → Msg → Nat → Instr) (p f cr : Nat) (m : Msg) (s : State), ((c = .leaf ∧ mOp m = 0x30) ∨ (c = .part ∧ mOp m = 0x31)) →
    p < 16 → s.jobFlask m = some f → s.gOk (cGrp m) = true → s.gFlask (cGrp m) = f → cStep m ≠ s.gStep (cGrp m) →
    cStep m ≠ (s.gStep (cGrp m) + 1) % 2 ^ 32 → cr = 0 →
    ∃ t, exec (c p m cr) s = .next t ∧ t.ladle = s.ladle ∧ t.mem = s.mem
      ∧ t.rn .STALE (cStripe m % 2) 0 = min (2 ^ 32 - 1) (s.rn .STALE (cStripe m % 2) 0 + 1))
  ∧ (∀ (p f : Nat) (m : Msg) (s : State), mOp m = 0x33 → p < 16 → Taken s m f → cLayer m ≠ creditLayer →
    (s.layer (cGrp m) (cLayer m)).late = false →
    ∃ t, exec (.late p m 0) s = .next t ∧ (t.layer (cGrp m) (cLayer m)).late = true ∧ t.rf .GSTAT 0 (cGrp m) 0 0 = 1
      ∧ t.rf .GSTAT 1 (cGrp m) 0 0 = 1 ∧ t.rn .LATE (p / 8) 0 = min (2 ^ 32 - 1) (s.rn .LATE (p / 8) 0 + 1) ∧ (∀ h ∈ t.ladle.hold, ¬(h.g = cGrp m ∧ h.layer = cLayer m))
      ∧ t.mem = s.mem)
  ∧ (∀ (p f a : Nat) (m : Msg) (s : State), mOp m = 0x32 → p < 16 → Taken s m f → NoErrors s →
    let g := cGrp m
    let l := cLayer m
    (s.layer g l).late = false → (s.layer g l).blate = false →
    s.ladle.seen.contains [g, cStep m, l, cStripe m] = false → s.winAt f 1 (mOffset m) 128 false = .inr a → NoJournal s f →
    ∃ t, exec (.tund p m) s = .next t ∧ (t.layer g l).lines = (s.layer g l).lines + 1
      ∧ (∀ k, k < 128 → t.byte (s.view a + k) = m.data.getD (32 + k) 0)
      ∧ ∀ o, (o < s.view a ∨ s.view a + 128 ≤ o) → t.byte o = s.byte o)

/-- R361, R362, R364, R365, R367, R370, R380: marks, the start of a reduction, its wait bounds, credits, and the ladle's registers. -/
def Obligations.LadleProgress : Prop :=
  (∀ (c : Mark → Instr) (upd : Bool) (m : Mark) (s : State), ((c = .gradientMark ∧ upd = false) ∨ (c = .updateMark ∧ upd = true)) →
    s.ladle.marks.contains m = true → bit m.val 15 = (if upd = true then 1 else 0) →
    let g := fld m.val 13 12
    let l := fld m.val 11 0
    let e := s.layer g l
    (s.gOk g = true → s.gFlask g = m.flask → l < s.nLayer g → bit m.val 14 = 0 → e.ent ≠ [] →
      (upd = false → e.gm < fld (e.w 5) 35 24 → ∃ t, exec (c m) s = .next t ∧ (t.layer g l).gm = e.gm + 1
        ∧ (t.layer g l).um = e.um ∧ t.ladle.marks = s.ladle.marks.erase m ∧ t.mem = s.mem ∧ t.cores = s.cores)
      ∧ (upd = true → e.um < fld (e.w 5) 47 36 → ∃ t, exec (c m) s = .next t ∧ (t.layer g l).um = e.um + 1
        ∧ (t.layer g l).blim = (if e.um = 0 then s.rn .LWAIT 0 0 else e.blim)
        ∧ (t.layer g l).gm = e.gm ∧ t.ladle.marks = s.ladle.marks.erase m ∧ t.cores = s.cores)
      ∧ ((if upd = true then fld (e.w 5) 47 36 ≤ e.um else fld (e.w 5) 35 24 ≤ e.gm) → ∃ t, exec (c m) s = .next t
        ∧ t.rf .GSTAT 0 g 4 4 = 1 ∧ t.rf .GSTAT 1 g 4 4 = 1 ∧ t.layer g l = e ∧ t.mem = s.mem))
    ∧ ((s.gOk g = false ∨ s.gFlask g ≠ m.flask ∨ s.nLayer g ≤ l ∨ bit m.val 14 = 1) → ∃ t, exec (c m) s = .next t
        ∧ (∀ st, isG st = isG m.who.strm → (t.core m.who.core).runs st = false)
        ∧ t.notices = s.notices ++ [.fault (s.flaskOf m.who) 1 m.who.core m.who.strm m.who.grp m.pc 0] ∧ t.mem = s.mem))
  ∧ (∀ (i g layer : Nat) (s : State), i < 2 → g < 4 → s.gOk g = true →
    let l := s.layer g layer
    (l.ent ≠ [] → l.gm = fld (l.w 5) 35 24 → i ∉ l.started → l.late = false →
      (∃ t, exec (.layerReductionStart i g layer) s = .next t ∧ i ∈ (t.layer g layer).started ∧ (t.layer g layer).ent = l.ent
        ∧ (t.layer g layer).lim = if l.started = [] then s.rn .LWAIT 0 0 else l.lim)
      ∧ (l.nstr = 0 → i ∉ l.parts → l.w 6 ≠ 0 → s.addrBad none (s.gFlask g) 2 (l.w 6) 8 = false →
          ∃ t r, exec (.layerReductionStart i g layer) s = .next t ∧ i ∈ (t.layer g layer).parts ∧ t.reqs = s.reqs ++ [r]
            ∧ r.kind = .signal ∧ r.addr = l.w 6 ∧ r.ops = [(1, 0)] ∧ r.flask = s.gFlask g ∧ t.mem = s.mem))
    ∧ (l.lim ≠ 0 → i ∈ l.started → l.late = false →
      (∃ x, x < l.nstr ∧ x % 2 = i ∧ x ∉ l.fin ∧ ∀ h ∈ s.ladle.outq, ¬(h.g = g ∧ h.layer = layer ∧ h.stripe = x)) →
      ∃ t, exec (.layerAbandon i g layer) s = .next t ∧ (t.layer g layer).late = true ∧ t.rf .GSTAT i g 0 0 = 1
        ∧ t.rn .LATE i 0 = min (2 ^ 32 - 1) (s.rn .LATE i 0 + 1) ∧ t.mem = s.mem)
    ∧ (l.blim ≠ 0 → l.um ≠ 0 → l.lines < fld (l.w 7) 31 0 → l.blate = false →
      ∃ t, exec (.broadcastWaitExpiry i g layer) s = .next t ∧ (t.layer g layer).blate = true ∧ t.rf .GSTAT i g 0 0 = 1
        ∧ t.mem = s.mem ∧ t.reqs = s.reqs)
    ∧ (∃ t, exec (.lateCreditReturn i g) s = .next t ∧ t = { s with ladle := t.ladle, fab := t.fab, out := t.out }
        ∧ ∀ r, r < s.gN g → Sparse.get 0 t.ladle.pend ((4 * i + g) * 2 ^ 14 + r) = 0
          ∧ (let n := Sparse.get 0 s.ladle.pend ((4 * i + g) * 2 ^ 14 + r)
             n ≠ 0 → Out.credits i g (s.rankNode g r) n ∈ t.out)))
  ∧ (∀ (c : Nat → Instr) (r : Reg), ((c = .ldlClrChk ∧ r = .CHK) ∨ (c = .ldlClrNf ∧ r = .NF) ∨ (c = .ldlClrLate ∧ r = .LATE)
      ∨ (c = .ldlClrDup ∧ r = .DUP) ∨ (c = .ldlClrStale ∧ r = .STALE) ∨ (c = .runClrDup ∧ r = .RUNDUP)) →
    ∀ (i : Nat) (s : State), ∃ t, exec (c i) s = .next t ∧ t = { s with regs := t.regs } ∧ t.rn r i 0 = 0
      ∧ ∀ d k, k ≠ r.key i 0 → Sparse.get d t.regs k = Sparse.get d s.regs k)
  ∧ (∀ (g : Nat) (v : BitVec 64) (s : State), g < 4 → bit v.toNat 63 = 1 →
    let n := v.toNat
    let f := fld n 3 0
    let others := ((List.range 4).filter fun h => h ≠ g && s.gOk h).foldl
      (fun a h => a + holdNeed (s.gWin h) (s.gRank h) (s.gN h)) 0
    let bad := s.jobOk f = true ∨ fld n 28 14 = 0 ∨ 16384 < fld n 28 14 ∨ fld n 28 14 ≤ fld n 42 29 ∨ fld n 49 43 = 0
      ∨ 64 < fld n 49 43 ∨ s.isHost f = false ∨ 7168 < others + holdNeed (fld n 49 43) (fld n 42 29) (fld n 28 14)
    (¬bad → ∃ t, exec (.ldlGcfgWrite g v) s = .next t ∧ t.gOk g = true ∧ t.gFlask g = f ∧ t.gN g = fld n 28 14
      ∧ t.gRank g = fld n 42 29 ∧ t.gWin g = fld n 49 43 ∧ t.rd .LTAB 0 (4 + g) = s.rd .LTAB 0 g ∧ t.mem = s.mem)
    ∧ (bad → s.records.length < 4096 → ∃ t r, exec (.ldlGcfgWrite g v) s = .next t ∧ t.rd .GCFG 0 g = s.rd .GCFG 0 g
      ∧ t.ladle = s.ladle ∧ t.records = s.records ++ [r] ∧ r.code = 0x40 ∧ r.d1 = n ∧ t.mem = s.mem))

/-- R359, R373, R374, R378: blocks and credits of the runner ring, parts and credits of the queues. -/
def Obligations.RunnerMessages : Prop :=
  (∀ (c : Nat) (s : State), c < 32 → let r := s.ring c
    r.run = true → r.sent < r.sends → 1 ≤ r.cred →
    (if r.accum = true then r.released r.sent = true else r.present r.sent 0 r.bsz = true) →
    ∃ t, exec (.rblkSend c) s = .next t ∧ (t.ring c).sent = r.sent + 1 ∧ (t.ring c).cred = r.cred - 1
      ∧ (t.ring c).round = r.round ∧ (∀ d, d ≠ c → t.ring d = s.ring d) ∧ t.mem = s.mem ∧ t.cores = s.cores)
  ∧ (∀ (p f : Nat) (m : Msg) (s : State), p < 16 → s.jobFlask m = some f → s.ctxOf (mCtx m) f = true →
    let r := s.ring (mCtx m)
    r.run = true → r.round = mRound m → r.flask = f →
    (mOp m = 0x35 → r.got.contains (mT m, mLine m) = false → NoJournal s f → s.m.miss = [] →
      let a := if r.accum = true ∧ mT m + 1 = r.size then fld (r.w 1) 47 0 + 128 * mLine m else r.at (mT m + 1) (mLine m)
      a % 128 = 0 → s.engOk f 1 a 128 = true →
      ∃ t, exec (.rblk p m) s = .next t ∧ (∀ k, k < 128 → t.byte (s.view a + k) = m.data.getD (32 + k) 0)
        ∧ (∀ o, (o < s.view a ∨ s.view a + 128 ≤ o) → t.byte o = s.byte o)
        ∧ ((t.ring (mCtx m)).run = true → (t.ring (mCtx m)).got = r.got ++ [(mT m, mLine m)]))
    ∧ (mOp m = 0x35 → r.got.contains (mT m, mLine m) = true →
      ∃ t, exec (.rblk p m) s = .next t ∧ t = { s with fab := t.fab, regs := t.regs }
        ∧ t.rn .RUNDUP (mCtx m % 2) 0 = min (2 ^ 32 - 1) (s.rn .RUNDUP (mCtx m % 2) 0 + 1))
    ∧ (mOp m = 0x36 → r.rcrd.contains (mT m) = false →
      ∃ t, exec (.rcrd p m) s = .next t ∧ t = { s with fab := t.fab, runner := t.runner }
        ∧ t.ring (mCtx m) = { r with cred := r.cred + 1, rcrd := r.rcrd ++ [mT m] })
    ∧ (mOp m = 0x36 → r.rcrd.contains (mT m) = true → ∃ t, exec (.rcrd p m) s = .next t ∧ t = { s with fab := t.fab }))
  ∧ (∀ (p f : Nat) (m : Msg) (s : State), p < 16 → s.jobFlask m = some f →
    let q := (mQueue m).1
    let k := (mQueue m).2.2
    s.qOk q = true → s.qFlask q = f → (mQueue m).2.1 < s.qParts q →
    (mOp m = 0x37 → s.qRecv q = true →
      (s.runner.ready.contains (mQueue m) = true → ∃ t, exec (.qrdy p m) s = .next t ∧ t = { s with fab := t.fab, regs := t.regs }
        ∧ t.rn .RUNDUP (q % 2) 0 = min (2 ^ 32 - 1) (s.rn .RUNDUP (q % 2) 0 + 1))
      ∧ (s.runner.ready.contains (mQueue m) = false →
          (∀ d ∈ s.runner.ready, d.1 = q → d.2.2 % s.qSlots q = k % s.qSlots q → d.2.2 < s.qTaken q) → k < s.qTaken q + s.qSlots q →
          ∃ t, exec (.qrdy p m) s = .next t ∧ t = { s with fab := t.fab, runner := t.runner } ∧ mQueue m ∈ t.runner.ready
            ∧ ∀ d ∈ s.runner.ready, (d.1 ≠ q ∨ d.2.2 % s.qSlots q ≠ k % s.qSlots q) → d ∈ t.runner.ready)
      ∧ (s.runner.ready.contains (mQueue m) = false → s.qTaken q + s.qSlots q ≤ k →
          ∃ t, exec (.qrdy p m) s = .next t ∧ t = { s with fab := t.fab, notices := t.notices }
            ∧ t.notices = s.notices ++ [.fault f 5 0 .f 0 0 0]))
    ∧ (mOp m = 0x38 → s.qRecv q = false →
      (s.runner.creds.contains (mQueue m) = false → ∃ t, exec (.qcrd p m) s = .next t
        ∧ t = { s with fab := t.fab, runner := t.runner }
        ∧ Sparse.get 0 t.runner.back (4096 * q + (mQueue m).2.1) = Sparse.get 0 s.runner.back (4096 * q + (mQueue m).2.1) + 1
        ∧ t.runner.puts = s.runner.puts ∧ t.runner.ready = s.runner.ready)
      ∧ (s.runner.creds.contains (mQueue m) = true → ∃ t, exec (.qcrd p m) s = .next t ∧ t = { s with fab := t.fab, regs := t.regs }
        ∧ t.rn .RUNDUP (q % 2) 0 = min (2 ^ 32 - 1) (s.rn .RUNDUP (q % 2) 0 + 1))))

namespace Sys2Proof.Machine

/-- Eight bytes at a module offset hold `n`, and a read of them by an engine finds no error and no poison. -/
def Holds8 (s : State) (a n : Nat) : Prop :=
  a % 8 = 0 ∧ s.le (s.view a) 8 = n ∧ NoErrors s ∧ s.m.dpois = [] ∧ s.m.plist = [] ∧ s.pois = []

end Sys2Proof.Machine

/-- R35, R384, R387, R388, R447, R448: a fault notice stops its flask once, step events set their flag, the notices of a binding and of a
completion invalidate the core's cache, the second ending the hold of parameter reads. -/
def Obligations.Notices : Prop :=
  (∀ (k f cause g q pc a : Nat) (st : Stream) (s : State), s.notices[k]? = some (.fault f cause g st q pc a) →
    (s.rf .QSTAT f 0 2 2 = 1 → ∃ t, exec (.faultNotice k) s = .next t ∧ t = { s with notices := t.notices })
    ∧ (s.rf .QSTAT f 0 2 2 = 0 → s.rf .QSTAT f 0 1 1 = 1 → ∃ t, exec (.faultNotice k) s = .next t
        ∧ t = { s with notices := t.notices, regs := t.regs }
        ∧ t.rf .FAULT0 f 0 63 56 = min 255 (s.rf .FAULT0 f 0 63 56 + 1) ∧ t.rf .FAULT0 f 0 55 0 = s.rf .FAULT0 f 0 55 0)
    ∧ (s.rf .QSTAT f 0 2 2 = 0 → s.rf .QSTAT f 0 1 1 = 0 → ∃ t, exec (.faultNotice k) s = .next t
        ∧ t.rf .QSTAT f 0 1 1 = 1 ∧ t.rf .STEP f 0 1 1 = 1 ∧ t.rf .FAULT0 f 0 55 48 = cause % 256
        ∧ t.rf .FAULT0 f 0 47 46 = streamNum st ∧ t.rf .FAULT0 f 0 45 41 = q % 32 ∧ t.rf .FAULT0 f 0 40 29 = g % 4096
        ∧ t.rf .FAULT0 f 0 63 56 = 0 ∧ t.rf .FAULT1 f 0 63 44 = pc % 2 ^ 20 ∧ t.rf .FAULT1 f 0 43 0 = a % 2 ^ 44
        ∧ (t.q f).hand = none ∧ (t.q f).prog = []
        ∧ (∀ h, (t.core h).groups = if (if s.isGuest f = true then s.guestOf h else (s.core h).hflask) = f then
              (s.core h).groups.map (fun gr => if isG gr.strm = s.isGuest f then { gr with wait := none } else gr)
            else (s.core h).groups)
        ∧ ∀ h, (if s.isGuest f = true then s.guestOf h else (s.core h).hflask) = f →
            (∃ gr ∈ (s.core h).groups, isG gr.strm = s.isGuest f) →
            ∀ st', isG st' = s.isGuest f → (t.core h).runs st' = false))
  ∧ (∀ (k f flag : Nat) (s : State), s.notices[k]? = some (.stepEv f flag) → flag < 6 →
    ∃ t, exec (.stepEventNotice k) s = .next t ∧ t = { s with notices := dropAt k s.notices, regs := t.regs }
      ∧ t.rf .STEP f 0 flag flag = 1 ∧ ∀ b, b < 6 → b ≠ flag → t.rf .STEP f 0 b b = s.rf .STEP f 0 b b)
  ∧ (∀ (f g : Nat) (s : State), (s.core g).hflask = f → (∃ gr ∈ (s.core g).groups, isG gr.strm = false) →
    (s.notices.contains (.binding f g) = true → ∃ t, exec (.bindingNotice f g) s = .next t
      ∧ t.notices = s.notices.erase (.binding f g) ∧ t.core g = { s.core g with cc := [], lru := [] } ∧ t.mem = s.mem
      ∧ t.regs = s.regs ∧ ∀ h, h ≠ g → t.core h = s.core h)
    ∧ (s.notices.contains (.completion f g) = true → ∃ t, exec (.completionNotice f g) s = .next t
      ∧ t.notices = s.notices.erase (.completion f g) ∧ t.core g = { s.core g with cc := [], lru := [], phold := false }
      ∧ t.mem = s.mem ∧ t.regs = s.regs ∧ ∀ h, h ≠ g → t.core h = s.core h))

/-- R394 to R398: the module's term, its place in the tree, the node's bound and the decision. -/
def Obligations.VoteTree : Prop :=
  (∀ (v : Nat) (s : State) (t0 : VoteSt),
    let r := s.moduleTerm v t0
    let f := s.vFlask v
    let g (b : Nat) : Prop := ∃ k ∈ s.groupsOf f, ∃ i, i < 2 ∧ s.rf .GSTAT i k b b = 1
    (r.flags % 2 = 1 ↔ t0.sealed = true ∧ r.flags / 2 = 0) ∧ r.count = 1
    ∧ (bit r.flags 1 = 1 ↔ s.rf .STEP f 0 0 0 = 1 ∨ g 3)
    ∧ (bit r.flags 4 = 1 ↔ g 1 ∨ g 2)
    ∧ (bit r.flags 5 = 1 ↔ s.rf .STEP f 0 3 3 = 1)
    ∧ (bit r.flags 6 = 1 ↔ g 0 ∨ t0.late = true ∨ t0.replay = 4)
    ∧ (bit r.flags 7 = 1 ↔ s.rf .STEP f 0 1 1 = 1 ∨ s.rf .STEP f 0 2 2 = 1 ∨ s.rf .STEP f 0 4 4 = 1 ∨ g 4
        ∨ (t0.sealed = true ∧ t0.repOk = false))
    ∧ (bit r.flags 8 = 1 ↔ t0.riser = 3 ∨ t0.riser = riserBad)
    ∧ ∀ c, c < 64 → t0.sealed = true → t0.rep ≠ [] →
      (bit r.ovf c = 1 ↔ bit (s.spol v c) 63 = 1 ∧ fld (repClass t0.rep c 0) 31 0 ≠ 0)
      ∧ (bit r.nf c = 1 ↔ bit (s.spol v c) 63 = 1 ∧ fld (repClass t0.rep c 1) 31 0 ≠ 0)
      ∧ r.max.getD c 0 = if bit (s.spol v c) 63 = 1 ∧ bit (repClass t0.rep c 1) 40 = 1 then fld (repClass t0.rep c 1) 39 32 else 0)
  ∧ (∀ (v : Nat) (s : State) (t0 : VoteSt), s.vs v = some t0 → s.vOk v = true → t0.term = none →
    let f := s.vFlask v
    let now := s.rf .STEP f 0 3 1 ≠ 0
    let ready := t0.sealed = true ∧ (s.rf .RBUD 0 v 30 30 = 0 ∨ t0.riser = 0 ∨ t0.riser = 2 ∨ t0.riser = 3) ∧ t0.replay ≠ 1
      ∧ s.rf .EVAL f 0 0 0 = 0 ∧ s.notices.contains (.stepEv f 0) = false
    ((now ∨ ready) → s.quarDue = [] → ∃ t t1, exec (.moduleTerm v) s = .next t ∧ t.vs v = some t1 ∧ t1.term = some (s.moduleTerm v t0)
        ∧ t1.step = t0.step ∧ t1.wait = s.rf .VLIM 0 v 15 0 ∧ t.rf .VSTAT 0 v 63 32 = t0.step % 2 ^ 32
        ∧ t.rf .VSTAT 0 v 17 9 = (s.moduleTerm v t0).flags % 2 ^ 9 ∧ t.mem = s.mem ∧ t.cores = s.cores)
    ∧ (¬(now ∨ ready) ∨ s.quarDue ≠ [] → exec (.moduleTerm v) s = .next s))
  ∧ (∀ (p f : Nat) (m : Msg) (s : State) (t0 : VoteSt), p < 16 → mOp m = 0x39 → s.jobFlask m = some f → s.vs (cGrp m) = some t0 →
    s.vOk (cGrp m) = true → s.vFlask (cGrp m) = f → cStep m = t0.step →
    let v := cGrp m
    let a := recOf m.data 32
    (bit (cw m 3) 63 = 0 → t0.seen.contains [0, cLevel m, cNode m] = false →
      place' (cLevel m) (cNode m) 0 (s.vN v) = s.vRank v → cLevel m ∉ t0.nodes → cLevel m ∉ t0.expired → 1 ≤ cLevel m →
      (2 * cNode m + 1) * 2 ^ (cLevel m - 1) < s.vN v → (∀ e ∈ t0.kids, ¬(e.1 = cLevel m ∧ e.2.1 = cNode m)) →
      ∃ t, exec (.voteUp p m) s = .next t ∧ t.vs v = some { t0 with seen := t0.seen ++ [[0, cLevel m, cNode m]], kids := t0.kids ++ [(cLevel m, cNode m, a)] }
        ∧ t = { s with vote := t.vote, fab := t.fab })
    ∧ (bit (cw m 3) 63 = 0 → t0.seen.contains [0, cLevel m, cNode m] = true →
      ∃ t, exec (.voteUp p m) s = .next t ∧ t = { s with regs := t.regs, fab := t.fab }
        ∧ t.rn .DUP 0 0 = min (2 ^ 32 - 1) (s.rn .DUP 0 0 + 1))
    ∧ (bit (cw m 3) 63 = 1 → t0.seen.contains [1, cLevel m, cNode m] = false → t0.dec = none →
      ∃ t t1, exec (.voteDecision p m) s = .next t ∧ t.vs v = some t1 ∧ t1.dec = some a ∧ t1.term = t0.term
        ∧ t.rf .VSTAT 0 v 8 0 = a.flags ∧ t.rf .VSTAT 0 v 18 18 = 0 ∧ t.rf .VSTAT 0 v 17 9 = s.rf .VSTAT 0 v 17 9
        ∧ t.mem = s.mem ∧ t.cores = s.cores))
  ∧ (∀ (v level node : Nat) (a : VRec) (s : State) (t0 : VoteSt), s.vs v = some t0 → t0.kids = [(level, node, a)] →
    t0.wait ≠ 0 → level ∉ t0.nodes → t0.term.isSome = true → t0.dec = none → level = treeDepth (s.vN v) →
    ∃ t t1 d, exec (.voteWaitExpiry v level) s = .next t ∧ t.vs v = some t1 ∧ t1.dec = some d ∧ d.flags % 2 = 0
      ∧ bit d.flags 6 = 1 ∧ d.count = a.count ∧ t1.kids = [] ∧ t.mem = s.mem)

namespace Sys2Proof.Machine

/-- No storage error waits to be found and nothing is poisoned. -/
def Sound (s : State) : Prop := NoErrors s ∧ s.m.dpois = [] ∧ s.m.plist = [] ∧ s.pois = []

end Sys2Proof.Machine

/-- R366, R380, R383, R391 to R393, R400 to R402, R412, R413: a binding starts, its step ends and is sealed, its riser copy and replay
end, and its step completes. -/
def Obligations.VoteSteps : Prop :=
  (∀ (v : Nat) (val : BitVec 64) (s : State), v < 4 → s.vOk v = false → bit val.toNat 63 = 1 →
    let n := val.toNat
    let f := fld n 3 0
    s.jobOk f = false → 1 ≤ fld n 32 18 → fld n 32 18 ≤ 16384 → fld n 17 4 < fld n 32 18 → s.isHost f = true → s.isGuest f = false →
    ∃ t, exec (.ldlVcfgWrite v val) s = .next t ∧ t.vOk v = true ∧ t.vFlask v = f ∧ t.vs v = some (VoteSt.start (s.rn .VSTART 0 v))
      ∧ (bit n 41 = 0 → t.rf .POUR 0 v 31 0 = (s.rn .VSTART 0 v + 2 ^ 32 - 1) % 2 ^ 32 ∧ ∀ c, c < 64 → t.rf .SCALE 0 (64 * v + c) 7 0 = 254)
      ∧ (bit n 41 = 1 → t.rn .POUR 0 v = s.rn .POUR 0 v ∧ ∀ c, c < 64 → t.rn .SCALE 0 (64 * v + c) = s.rn .SCALE 0 (64 * v + c)))
  ∧ (∀ (v : Nat) (val : BitVec 64) (s : State), s.vOk v = true → bit val.toNat 63 = 1 →
    ∃ t, exec (.ldlVcfgWrite v val) s = .next t ∧ t.rn .VCFG 0 v = s.rn .VCFG 0 v ∧ t.vote = s.vote)
  ∧ (∀ (v n : Nat) (s : State) (t0 : VoteSt), s.vs v = some t0 → s.vOk v = true → t0.sealed = false → t0.dec = none →
    let f := s.vFlask v
    let a := s.rf .VEND 0 v 47 0
    let need := s.rf .VEND 0 v 63 48 * ((t0.step + 2 ^ 32 - s.rn .VSTART 0 v) % 2 ^ 32 + 1)
    s.engOk f 0 a 8 = true → Holds8 s a n →
    ((need ≤ n ∧ s.groupsDone f = true) → ∃ t t1, exec (.stepEndPoll v) s = .next t ∧ t.vs v = some t1 ∧ t1.sealed = true
        ∧ t1.step = t0.step ∧ t1.term = t0.term ∧ t1.base = s.repBase f ∧ t.rf .SHADOW f 0 1 1 = 1 ∧ t.rf .SHADOW f 0 0 0 = s.rf .SHADOW f 0 0 0
        ∧ (∀ m, m < 8 → t.rd .DGSNAP m f = s.rd .DGSUM m f ∧ t.rd .DGSUM m f = 0)
        ∧ ∀ g ∈ s.hostCores f, (t.core g).phold = true)
    ∧ (¬(need ≤ n ∧ s.groupsDone f = true) → ∃ t, exec (.stepEndPoll v) s = .next t ∧ t.vote = s.vote
        ∧ t.rf .SHADOW f 0 1 1 = s.rf .SHADOW f 0 1 1 ∧ t.cores = s.cores ∧ t.mem = s.mem))
  ∧ (∀ (v : Nat) (s : State) (t0 : VoteSt), s.vs v = some t0 →
    (t0.riser = riserDone → exec (.riserCopyComplete v) s = .next (s.setVs v { t0 with riser := 2 }))
    ∧ (t0.riser = riserBad → exec (.riserCopyComplete v) s = .next (s.setVs v { t0 with riser := 3 }))
    ∧ (t0.riser ≠ riserDone → t0.riser ≠ riserBad → exec (.riserCopyComplete v) s = .next s)
    ∧ (t0.replay = 1 → exec (.replayTimeout v) s = .next (s.setVs v { t0 with replay := 4 }))
    ∧ (t0.replay ≠ 1 → exec (.replayTimeout v) s = .next s ∧ exec (.replayResponsePoll v) s = .next s))
  ∧ (∀ (v : Nat) (s : State) (t0 : VoteSt), s.vs v = some t0 → t0.replay = 1 → Sound s →
    let f := s.vFlask v
    let a := t0.base + 0xA010
    let sum := (List.range 8).foldl (fun x m => x + s.rd .DGSNAP m f) (0 : Word64)
    t0.base % 4096 = 0 → s.engOk f 0 a 16 = true →
    (s.le (s.view a) 8 ≠ t0.step → ∃ t, exec (.replayResponsePoll v) s = .next t ∧ t.vote = s.vote ∧ t.mem = s.mem)
    ∧ (s.le (s.view a) 8 = t0.step → ∃ t, exec (.replayResponsePoll v) s = .next t
        ∧ t.vs v = some { t0 with replay := if s.le (s.view a + 8) 8 = sum.toNat then 2 else 3 } ∧ t.mem = s.mem))
  ∧ (∀ (v : Nat) (s : State) (t0 : VoteSt) (d : VRec), s.vs v = some t0 → t0.dec = some d → s.vOk v = true → s.ladle.early = [] →
    let f := s.vFlask v
    let next := (t0.step + 1) % 2 ^ 32
    let skips := min 65535 (s.rf .POUR 0 v 47 32 + 1)
    let stop := bit d.flags 5 = 1 ∨ bit d.flags 7 = 1 ∨ (s.rf .VCFG 0 v 40 33 ≠ 0 ∧ s.rf .VCFG 0 v 40 33 ≤ skips)
    (d.flags % 2 = 1 → ∃ t, exec (.stepCompletion v) s = .next t ∧ t.vs v = some (VoteSt.start next)
        ∧ t.rf .SHADOW f 0 0 0 = 1 - s.rf .SHADOW f 0 0 0 ∧ t.rf .SHADOW f 0 1 1 = 0 ∧ t.rf .POUR 0 v 31 0 = t0.step % 2 ^ 32
        ∧ t.rf .POUR 0 v 47 32 = 0 ∧ t.rn .STEP f 0 = 0 ∧ t.vOk v = true
        ∧ (∀ g ∈ s.groupsOf f, t.rn .GSTEP 0 g = next) ∧ ∀ h ∈ s.hostCores f, .completion f h ∈ t.notices)
    ∧ (d.flags % 2 = 0 → ¬stop → ∃ t, exec (.stepCompletion v) s = .next t ∧ t.vs v = some (VoteSt.start next)
        ∧ t.rf .SHADOW f 0 0 0 = s.rf .SHADOW f 0 0 0 ∧ t.rf .SHADOW f 0 1 1 = 0 ∧ t.rf .POUR 0 v 31 0 = s.rf .POUR 0 v 31 0
        ∧ t.rf .POUR 0 v 47 32 = skips ∧ t.vOk v = true ∧ (∀ h ∈ s.hostCores f, .completion f h ∈ t.notices)
        ∧ ∀ c, c < 64 →
          (bit (s.spol v c) 63 = 0 → t.rn .SCALE 0 (64 * v + c) = s.rn .SCALE 0 (64 * v + c))
          ∧ (bit (s.spol v c) 63 = 1 → bit d.ovf c = 0 → t.rf .SCALE 0 (64 * v + c) 39 8 = s.rf .SCALE 0 (64 * v + c) 39 8)
          ∧ (bit (s.spol v c) 63 = 1 → bit d.ovf c = 1 → t.rf .SCALE 0 (64 * v + c) 23 16 = 0
              ∧ t.rf .SCALE 0 (64 * v + c) 39 24 = s.rf .SCALE 0 (64 * v + c) 39 24
              ∧ t.rf .SCALE 0 (64 * v + c) 15 8
                = wrap 8 (max (sgn 8 (s.rf .SCALE 0 (64 * v + c) 15 8) - ((fld (s.spol v c) 54 52 : Nat) + 1)) (-128))))
    ∧ (d.flags % 2 = 0 → stop → s.bindingOf f = some v → ∃ t, exec (.stepCompletion v) s = .next t ∧ t.vOk v = false
        ∧ t.jobOk f = false ∧ t.vs v = none ∧ .fault f 8 0 .f 0 0 0 ∈ t.notices))

namespace Sys2Proof.Machine

/-- Where slot `i` of the riser area that binding `v`'s node keeps for its own job lies, as its job window maps it (R411). -/
def riserAt (s : State) (v o k : Nat) : Nat :=
  match s.winAt (s.vFlask v) 0 (s.rf .RBASE 0 v 47 12 * 4096 + o) k false with
  | .inr b => b
  | .inl _ => s.rf .RBASE 0 v 47 12 * 4096 + o

end Sys2Proof.Machine

/-- R399, R404, R415, R416, R419: probes and aborts, the last pour made good, the riser's restore, the hold for an evaluation, test bars. -/
def Obligations.VoteControls : Prop :=
  (∀ (v kind node p : Nat) (s : State), kind < 4 → s.collPort (node % 2 ^ 14) 0 0 = some p →
    ∃ m, s.sendJobctl v kind node = s.txPush p (s.vFlask v) m ∧ mOp m = 0x34 ∧ mDst m = node % 2 ^ 14 ∧ cGrp m = v % 4
      ∧ cStep m = ((s.vs v).map (·.step)).getD 0 % 2 ^ 32 ∧ fld (cw m 1) 1 0 = kind ∧ mJob m = s.jobId (s.vFlask v) % 2 ^ 16)
  ∧ (∀ (v : Nat) (s : State) (t0 : VoteSt), s.vs v = some t0 → s.vOk v = true → t0.term.isSome = true → t0.dec = none → s.vN v = 2 →
    (s.vRank v = 1 → exec (.probeTimer v) s = .next (s.sendJobctl v 0 (s.vNode v 0)))
    ∧ (s.vRank v = 0 → 1 ∉ t0.nodes → [0, 1, 0] ∉ t0.seen → exec (.probeTimer v) s = .next (s.sendJobctl v 0 (s.vNode v 1))))
  ∧ (∀ (v : Nat) (s : State) (t0 : VoteSt), s.vs v = some t0 → t0.dec.isSome = true → exec (.probeTimer v) s = .next s)
  ∧ (∀ (p : Nat) (m : Msg) (s : State), p < 16 → mOp m = 0x34 →
    (fld (cw m 1) 1 0 = 0 → ∃ t, exec (.jobctlProbe p m) s = .next t ∧ t = { s with fab := t.fab })
    ∧ (fld (cw m 1) 1 0 = 1 → s.jobFlask m = none → ∃ t, exec (.jobctlAbort p m) s = .next t
        ∧ t = { s with fab := t.fab, regs := t.regs } ∧ t.rn .DROP p 0 = min (2 ^ 32 - 1) (s.rn .DROP p 0 + 1))
    ∧ (∀ f, fld (cw m 1) 1 0 = 1 → s.jobFlask m = some f → s.bindingOf f = some (cGrp m) → ∃ t, exec (.jobctlAbort p m) s = .next t
        ∧ t.jobOk f = false ∧ t.vOk (cGrp m) = false ∧ t.vs (cGrp m) = none ∧ .fault f 8 0 .f 0 0 0 ∈ t.notices ∧ t.mem = s.mem
        ∧ t.rf .SHADOW f 0 1 1 = 0
        ∧ ∀ g, t.core g = if (s.core g).hflask = f then { s.core g with phold := false } else s.core g))
  ∧ (∀ (v : Nat) (step : BitVec 32) (s : State), v < 4 →
    (s.vOk v = false → step.toNat = (s.rf .POUR 0 v 31 0 + 1) % 2 ^ 32 → ∃ t, exec (.pourFinish v step) s = .next t
      ∧ t.rf .POUR 0 v 31 0 = step.toNat ∧ t.rf .POUR 0 v 47 32 = s.rf .POUR 0 v 47 32
      ∧ t.rf .SHADOW (s.vFlask v) 0 0 0 = 1 - s.rf .SHADOW (s.vFlask v) 0 0 0 ∧ t = { s with regs := t.regs, m := t.m })
    ∧ (s.vOk v = true ∨ step.toNat ≠ (s.rf .POUR 0 v 31 0 + 1) % 2 ^ 32 → ∃ t, exec (.pourFinish v step) s = .next t
      ∧ t.rn .POUR 0 v = s.rn .POUR 0 v ∧ t.rn .SHADOW (s.vFlask v) 0 = s.rn .SHADOW (s.vFlask v) 0
      ∧ t.rn .RSEQ 0 0 = (s.rn .RSEQ 0 0 + 1) % 2 ^ 32 ∧ t.mem = s.mem))
  ∧ (∀ (v i : Nat) (cmd : BitVec 64) (s : State), v < 4 → bit cmd.toNat 0 = 1 → i < 2 →
    let n := cmd.toNat
    let f := s.vFlask v
    let good (j : Nat) : Prop := s.engOk f 0 (riserAt s v (0x40 * j) 16) 16 = true ∧ s.le (s.view (riserAt s v (0x40 * j) 16)) 8 % 2 ^ 32
      = fld n 63 32 ∧ bit (s.le (s.view (riserAt s v (0x40 * j) 16) + 8) 8) 63 = 1
    let ls := s.updateLines f
    let src (k : Nat) : Nat := riserAt s v (0x1000 + i * s.slotSize f + 128 * k) 128
    (s.vOk v = true → ∃ t, exec (.riserRestore v cmd) s = .next t ∧ t.reqs = s.reqs ∧ t.mem = s.mem)
    ∧ (s.vOk v = false → Sound s → (∀ j, j < 2 → riserAt s v (0x40 * j) 16 % 16 = 0) → good i → (∀ j, j < i → ¬good j) →
      (∀ k, k < ls.length → s.engOk f 0 (src k) 128 = true ∧ src k % 128 = 0) →
      ∃ t, exec (.riserRestore v cmd) s = .next t ∧ t.mem = s.mem ∧ t.nextId = s.nextId + ls.length
        ∧ ∀ k, k < ls.length → ∃ r ∈ t.reqs, r.kind = .write ∧ r.size = 128 ∧ r.flask = f
          ∧ r.addr = 2 ^ 63 + fld n 15 2 * 2 ^ 48 + ls.getD k 0 ∧ r.data = s.bytes (s.view (src k)) 128))
  ∧ (∀ (f : Nat) (hold : Bool) (s : State), f < 16 →
    (s.hasPriv f = true → ∃ t, exec (.evalHold f hold) s = .next t ∧ t = { s with regs := t.regs }
      ∧ t.rn .EVAL f 0 = if hold then 1 else 0)
    ∧ (s.hasPriv f = false → ∃ t, exec (.evalHold f hold) s = .next t ∧ t.rn .EVAL f 0 = s.rn .EVAL f 0
      ∧ t.rn .RSEQ 0 0 = (s.rn .RSEQ 0 0 + 1) % 2 ^ 32))
  ∧ (∀ (f : Nat) (val : BitVec 32) (s : State), f < 16 →
    (val.toNat % 8 = 0 ∨ 128 ≤ (s.barList f).length → ∃ t, exec (.tbarWrite f val) s = .next t ∧ t = { s with regs := t.regs }
      ∧ t.rn .TBAR f 0 = val.toNat % 8)
    ∧ (val.toNat % 8 ≠ 0 → (s.barList f).length < 128 → ∃ t, exec (.tbarWrite f val) s = .next t
      ∧ t.rn .TBAR f 0 = s.rn .TBAR f 0 ∧ t.rn .RSEQ 0 0 = (s.rn .RSEQ 0 0 + 1) % 2 ^ 32))

namespace Sys2Proof.Machine

/-- The entry of index `i` of a flask's submission ring lies in its host windows, at a module offset. -/
def sqEntry (s : State) (f i : Nat) : Option Nat := s.dpaOff f (s.sqBase f + 64 * (i % 2 ^ s.sqLog f)) 64
/-- The eight words in memory at a module offset. -/
def wordsAt (s : State) (a : Nat) : List Nat := (List.range 8).map fun k => s.le (s.view a + 8 * k) 8

end Sys2Proof.Machine

/-- R437 to R440, R445, R446, R450, R457: the queue's registers, the taking of descriptors, NOP, SIGNAL, WAIT and COPY, and the record a
completion writes. -/
def Obligations.WorkQueue : Prop :=
  (∀ (f : Nat) (v : BitVec 32) (s : State), f < 16 →
    let n := v.toNat
    ∃ t, exec (.queueEnable f v) s = .next t ∧ t = { s with regs := t.regs }
      ∧ (s.rf .QCTL f 0 0 0 = 1 → t.rf .QCTL f 0 0 0 = bit n 0 ∧ t.rf .QCTL f 0 14 5 = s.rf .QCTL f 0 14 5)
      ∧ (s.rf .QCTL f 0 0 0 = 0 → t.rf .QCTL f 0 14 5 = fld n 14 5
          ∧ (bit n 0 = 0 → t.rf .QCTL f 0 0 0 = 0)
          ∧ (bit n 0 = 1 →
            if s.ringOk f (fld n 9 5) (s.sqBase f) 64 = true ∧ s.ringOk f (fld n 14 10) (s.cqBase f) 32 = true then
              t.rf .QCTL f 0 0 0 = 1 ∧ t.rf .QSTAT f 0 0 0 = 0
            else t.rf .QCTL f 0 0 0 = 0 ∧ t.rf .QSTAT f 0 0 0 = 1)))
  ∧ (∀ (f : Nat) (v : BitVec 32) (s : State), f < 16 →
    (s.rf .QSTAT f 0 2 2 = 0 → ∃ t, exec (.sqDoorbell f v) s = .next t ∧ t = { s.standbyEnds with regs := t.regs }
      ∧ t.rn .SQTAIL f 0 = v.toNat ∧ ∀ r i j, (r ≠ .SQTAIL ∨ i ≠ f ∨ j ≠ 0) → i < 16 → j < 16 → t.rd r i j = s.rd r i j)
    ∧ (s.rf .QSTAT f 0 2 2 = 1 → exec (.sqDoorbell f v) s = .next s.standbyEnds)
    ∧ (s.stby = false → s.standbyEnds = s)
    ∧ (s.stby = true → s.pwr.leaving = false → s.rf .PSTAT 0 0 18 18 = 0 → s.standbyEnds.pwr.leaving = true
        ∧ s.standbyEnds.m.selfref = [] ∧ s.standbyEnds = { s with m := s.standbyEnds.m, pwr := s.standbyEnds.pwr })
    ∧ ((s.q f).held = [] → ∃ t, exec (.cqHeadWrite f v) s = .next t ∧ t = { s with regs := t.regs } ∧ t.rn .CQHEAD f 0 = v.toNat)
    ∧ (∀ r a, (s.q f).held = [r] → (s.wn .CQHEAD f 0 v.toNat).cqRoom f = true →
        s.dpaOff f (s.cqBase f + 32 * (s.rn .CQTAIL f 0 % 2 ^ s.cqLog f)) 32 = some a →
        ∃ t, exec (.cqHeadWrite f v) s = .next t ∧ (t.q f).held = [] ∧ t.rn .CQHEAD f 0 = v.toNat
          ∧ t.rn .CQTAIL f 0 = (s.rn .CQTAIL f 0 + 1) % 2 ^ 32)
    ∧ (∃ t, exec (.qclrHerr f) s = .next t ∧ t = { s with regs := t.regs } ∧ t.rn .HERR f 0 = 0)
    ∧ (s.rf .IMOD f 0 31 16 ≠ 0 → (s.q f).since ≠ 0 → ∃ t, exec (.imodTimer f) s = .next t ∧ (t.q f) = { s.q f with since := 0 }
        ∧ t.regs = s.regs ∧ t.mem = s.mem
        ∧ (NSet.has s.msixEn f = true → fld (Sparse.get (1#128 <<< 96) s.msix (4 * f + 1)).toNat 96 96 = 0 → t.out = .msix f 1 :: s.out)
        ∧ (NSet.has s.msixEn f = false → t.out = s.out ∧ NSet.has t.pba (4 * f + 1) = true))
    ∧ ((s.rf .IMOD f 0 31 16 = 0 ∨ (s.q f).since = 0) → exec (.imodTimer f) s = .next s))
  ∧ (∀ (f a : Nat) (d : Desc) (status : Nat) (s : State), (status ≠ 0 ∨ bit (d.w 0) 26 = 0) → status < 16 → (s.q f).held = [] →
    s.cqRoom f = true → Sound s → s.dpaOff f (s.cqBase f + 32 * (s.rn .CQTAIL f 0 % 2 ^ s.cqLog f)) 32 = some a →
    let t := s.complDesc f d status
    t.le (s.view a) 8 = d.idx % 2 ^ 16 + d.op * 2 ^ 16 + status * 2 ^ 24 + (s.rn .CQTAIL f 0 / 2 ^ s.cqLog f + 1) % 2 * 2 ^ 28 + d.tag * 2 ^ 32
      ∧ fld (t.le (s.view a + 8) 8) 12 0 = d.acc.length % 2 ^ 13 ∧ t.le (s.view a + 16) 8 = 0 ∧ t.le (s.view a + 24) 8 = 0
      ∧ (∀ o, o < s.view a ∨ s.view a + 32 ≤ o → t.byte o = s.byte o) ∧ t.rn .CQTAIL f 0 = (s.rn .CQTAIL f 0 + 1) % 2 ^ 32
      ∧ (t.q f).held = [] ∧ t.cores = s.cores)
  ∧ (∀ (f a : Nat) (s : State), f < 16 → s.rf .QCTL f 0 0 0 = 1 → s.qRuns f = true → (s.q f).hand = none →
    s.rn .SQHEAD f 0 ≠ s.rn .SQTAIL f 0 → sqEntry s f (s.rn .SQHEAD f 0) = some a → Sound s →
    let i := s.rn .SQHEAD f 0
    let d : Desc := { idx := i, words := wordsAt s a, tries := 1, disp := false, todo := [], acc := [], rej := [] }
    ∃ t, exec (.descriptorTake f) s = .next t ∧ t.rn .SQHEAD f 0 = (i + 1) % 2 ^ 32
      ∧ (fld (d.w 0) 15 0 = i % 2 ^ 16 → s.badOp f d = false → (t.q f) = { s.q f with hand := some { d with tries := 0 } } ∧ t.mem = s.mem)
      ∧ (fld (d.w 0) 15 0 = i % 2 ^ 16 → s.badOp f d = true → (t.q f).hand = none)
      ∧ (fld (d.w 0) 15 0 ≠ i % 2 ^ 16 → (t.q f) = { s.q f with hand := some d } ∧ t.mem = s.mem))
  ∧ (∀ (f a : Nat) (d0 : Desc) (s : State), (s.q f).hand = some d0 → d0.tries ≠ 0 → s.qRuns f = true → sqEntry s f d0.idx = some a → Sound s →
    let d : Desc := { d0 with words := wordsAt s a, tries := d0.tries + 1 }
    ∃ t, exec (.seqReread f) s = .next t
      ∧ (fld (d.w 0) 15 0 = d.idx % 2 ^ 16 → s.badOp f d = false → (t.q f).hand = some { d with tries := 0 } ∧ t.mem = s.mem)
      ∧ (fld (d.w 0) 15 0 ≠ d.idx % 2 ^ 16 → d.tries < 256 → (t.q f).hand = some d ∧ t.mem = s.mem)
      ∧ (fld (d.w 0) 15 0 ≠ d.idx % 2 ^ 16 → 256 ≤ d.tries → (t.q f).hand = none))
  ∧ (∀ (f : Nat) (s : State),
    (s.handFor f 0 = none → exec (.queueNop f) s = .next s) ∧ (s.handFor f 3 = none → exec (.queueSignal f) s = .next s)
    ∧ (s.handFor f 4 = none → exec (.wait f) s = .next s) ∧ (s.handFor f 5 = none → exec (.copy f) s = .next s)
    ∧ (s.handHeld f 4 = none → exec (.waitPoll f) s = .next s ∧ exec (.waitTimeout f) s = .next s))
  ∧ (∀ (f : Nat) (d : Desc) (s : State), s.handFor f 0 = some d → exec (.queueNop f) s = .next (s.endHand f d stOk))
  ∧ (∀ (f : Nat) (d : Desc) (s : State), s.handFor f 3 = some d →
    let a := d.w 1
    ((a % 8 ≠ 0 ∨ s.engOk f 2 a 8 = false) → exec (.queueSignal f) s = .next (s.endHand f d stAddr))
    ∧ (a % 8 = 0 → s.engOk f 2 a 8 = true → s.awakeAt a = true → Sound s →
      (∀ g, aperOf a = some g → (s.core g).calm = true) → ∃ s1 : State, exec (.queueSignal f) s = .next (s1.endHand f d stOk)
        ∧ s1.le (s.view a) 8 = (s.le (s.view a) 8 + d.w 2) % 2 ^ 64 ∧ s1.queue = s.queue ∧ s1.cores = s.cores
        ∧ ∀ o, o < s.view a ∨ s.view a + 8 ≤ o → s1.byte o = s.byte o))
  ∧ (∀ (f : Nat) (d : Desc) (s : State), s.handFor f 4 = some d →
    ((d.w 1 % 8 ≠ 0 ∨ s.engOk f 0 (d.w 1) 8 = false) → exec (.wait f) s = .next (s.endHand f d stAddr))
    ∧ (d.w 1 % 8 = 0 → s.engOk f 0 (d.w 1) 8 = true → exec (.wait f) s = .next (s.setHand f { d with disp := true })))
  ∧ (∀ (f : Nat) (d : Desc) (s : State), s.handHeld f 4 = some d →
    let n := s.le (s.view (d.w 1)) 8
    (fld (d.w 3) 31 0 = 0 → exec (.waitTimeout f) s = .next s)
    ∧ (fld (d.w 3) 31 0 ≠ 0 → exec (.waitTimeout f) s = .next (s.endHand f d 8))
    ∧ (d.w 1 % 8 = 0 → s.awakeAt (d.w 1) = true → Sound s → n < d.w 2 → ∃ t, exec (.waitPoll f) s = .next t ∧ t.queue = s.queue
        ∧ t.mem = s.mem ∧ t.cores = s.cores)
    ∧ (d.w 1 % 8 = 0 → s.awakeAt (d.w 1) = true → Sound s → d.w 2 ≤ n → ∃ s1 : State, exec (.waitPoll f) s = .next (s1.endHand f d stOk)
        ∧ s1.queue = s.queue ∧ s1.mem = s.mem ∧ s1.cores = s.cores))
  ∧ (∀ (f : Nat) (d : Desc) (s : State), s.handFor f 5 = some d →
    let src := d.w 1
    let dst := d.w 2
    let n := d.w 3
    let fine := s.rangeOk f 0 (n / 128 + 2) src n = true ∧ s.rangeOk f 1 (n / 128 + 2) dst n = true
    (¬fine → exec (.copy f) s = .next (s.endHand f d stAddr))
    ∧ (fine → s.awakeAt src = true → s.awakeAt dst = true → Sound s → (∀ k l, k < n → l < n → s.view (src + k) ≠ s.view (dst + l)) →
      (∀ k l, k < n → l < n → s.view (dst + k) = s.view (dst + l) → k = l) →
      ∃ s1 : State, exec (.copy f) s = .next (s1.endHand f d stOk) ∧ s1.queue = s.queue ∧ s1.cores = s.cores
        ∧ (∀ k, k < n → s1.byte (s.view (dst + k)) = s.byte (s.view (src + k)))
        ∧ ∀ o, (∀ k, k < n → o ≠ s.view (dst + k)) → s1.byte o = s.byte o))

namespace Sys2Proof.Machine

/-- The core takes no part in a SAVE (R453): out of service, cold, or without a group of the flask. -/
def saveNo (s : State) (f g : Nat) : Bool := !(s.inSvc g) || s.coldBit (g / 64) || !(s.holds f g)

/-- A core's work is complete, and it is awake (R453). -/
def saveNow (s : State) (f g : Nat) : Bool := (s.core g).awake && s.quiet g (s.isGuest f)

/-- What one pass of a SAVE does to the cores still to answer (R300, R452, R453). -/
structure SavePass (f : Nat) (d : Desc) (s t : State) (e : Desc) : Prop where
  rej : e.rej = d.rej ++ d.todo.filter (saveNo s f)
  acc : e.acc = d.acc ++ d.todo.filter fun g => !(saveNo s f g) && saveNow s f g
  todo : e.todo = d.todo.filter fun g => !(saveNo s f g) && !(saveNow s f g)
  same : e.idx = d.idx ∧ e.words = d.words ∧ e.disp = d.disp
  left : ∀ g, (g ∉ d.todo ∨ saveNo s f g = true ∨ saveNow s f g = false) → t.core g = s.core g
  gone : ∀ g ∈ d.todo, saveNo s f g = false → saveNow s f g = true → ∀ gr ∈ (t.core g).groups, isG gr.strm ≠ s.isGuest f
  kept : ∀ g ∈ d.todo, saveNo s f g = false → saveNow s f g = true → ∃ v, Sparse.get none t.saved (4096 * f + g) = some v
    ∧ v.back = false ∧ v.groups = (s.core g).groups.filter (fun gr => isG gr.strm = s.isGuest f)
    ∧ (s.isGuest f = false → v.planes = (s.core g).planes ∧ v.edge = (s.core g).edge ∧ v.split = s.rf .SPLIT g 0 1 0)
    ∧ ∀ o, (s.mapped g (s.isGuest f)).1 ≤ o → o < (s.mapped g (s.isGuest f)).2 →
        Sparse.get 0 v.ls (o - (s.mapped g (s.isGuest f)).1) = s.byte (aper g + o)
  mem : t.mem = s.mem

/-- The core rejects a RESTORE (R453): no save in its slot, or out of service, or cold. -/
def restoreNo (s : State) (f g : Nat) : Bool :=
  (Sparse.get none s.saved (4096 * f + g)).isNone || !(s.inSvc g) || s.coldBit (g / 64)

/-- The core waits with a RESTORE: it sleeps, is being zeroed, or holds groups of the kind. -/
def restoreWait (s : State) (f g : Nat) : Bool :=
  !(s.core g).awake || (s.core g).zbusy || (s.core g).zero || (s.core g).kindBusy (s.isGuest f)

/-- A restored group is the one that was saved, its polls aside. -/
def SameGroup (a b : Group) : Prop :=
  a.strm = b.strm ∧ a.q = b.q ∧ a.pc = b.pc ∧ a.v = b.v ∧ a.k = b.k ∧ a.u = b.u ∧ a.blist = b.blist ∧ a.own = b.own

/-- The one core of a set loads its slot (R300, R453). -/
structure Restored (f g : Nat) (v : Saved) (s t : State) : Prop where
  groups : ∀ i, i < v.groups.length → ∃ gr gv, (t.core g).groups[(s.core g).groups.length + i]? = some gr ∧ v.groups[i]? = some gv
    ∧ SameGroup gr gv
  others : ∀ i, i < (s.core g).groups.length → (t.core g).groups[i]? = (s.core g).groups[i]?
  count : (t.core g).groups.length = (s.core g).groups.length + v.groups.length
  slot : Sparse.get none t.saved (4096 * f + g) = some { v with back := true }
  host : s.isGuest f = false → (t.core g).planes = v.planes ∧ (t.core g).edge = v.edge ∧ (t.core g).hflask = f
  store : Sparse.wf 0 v.ls → ∀ o, o < (s.mapped g (s.isGuest f)).2 - (s.mapped g (s.isGuest f)).1 →
    t.byte (aper g + (s.mapped g (s.isGuest f)).1 + o) = Sparse.get 0 v.ls o
  cores : ∀ h, h ≠ g → t.core h = s.core h

/-- The set of a descriptor with MAP = 0 (R441). -/
def plainSet (d : Desc) : List Nat := (List.range (fld (d.w 1) 24 12)).map (fld (d.w 1) 11 0 + ·)

/-- FIRST and COUNT stay within the cores and the flask's core map (R441). -/
def setOk (s : State) (f : Nat) (d : Desc) : Prop :=
  1 ≤ fld (d.w 1) 24 12 ∧ fld (d.w 1) 11 0 + fld (d.w 1) 24 12 ≤ 4096 ∧ ∀ g ∈ plainSet d, s.inMap f g = true

end Sys2Proof.Machine

/-- R440, R441, R443, R450 to R453: launches and their completion, SAVE and RESTORE, the shake-out and the LD reset. -/
def Obligations.FlaskControl : Prop :=
  (∀ (f : Nat) (s : State),
    (s.handFor f 1 = none → exec (.launch f) s = .next s) ∧ (s.handFor f 2 = none → exec (.glaunch f) s = .next s)
    ∧ (s.handFor f 6 = none → s.handHeld f 6 = none → exec (.save f) s = .next s)
    ∧ (s.handFor f 7 = none → s.handHeld f 7 = none → exec (.restore f) s = .next s))
  ∧ (∀ (f op : Nat) (d : Desc) (s : State) (c : Instr), (op, c) ∈ [(1, Instr.launch f), (2, .glaunch f)] → s.handFor f op = some d →
    (launchOk op d = true → setOk s f d → bit (d.w 1) 25 = 0 → exec c s = .next (s.setHand f { d with disp := true, todo := plainSet d }))
    ∧ (bit (d.w 1) 25 = 0 → (¬setOk s f d ∨ launchOk op d = false) → exec c s = .next (s.endHand f d stLaunchErr))
    ∧ (bit (d.w 1) 25 = 1 → s.dpaCut f (d.w 6) 512 = none → exec c s = .next (s.endHand f d stLaunchErr))
    ∧ (∀ ps, bit (d.w 1) 25 = 1 → launchOk op d = true → 1 ≤ fld (d.w 1) 24 12 → fld (d.w 1) 11 0 + fld (d.w 1) 24 12 ≤ 4096 →
        s.dpaCut f (d.w 6) 512 = some ps → Sound s →
        let map := ps.flatMap fun p => (List.range p.2).map fun i => s.byte (s.view (p.1 + i))
        let set := (plainSet d).filter fun g => bit (map.getD (g / 8) 0).toNat (g % 8) = 1
        (∀ g ∈ set, s.inMap f g = true) →
        (set ≠ [] → ∃ t, exec c s = .next t ∧ (t.q f).hand = some { d with disp := true, todo := set } ∧ t.mem = s.mem ∧ t.cores = s.cores)
        ∧ (set = [] → d.acc = [] → d.rej = [] → ∃ s1 : State, exec c s = .next (s1.endHand f { d with disp := true, todo := [] } stOk)
            ∧ s1.mem = s.mem ∧ s1.cores = s.cores ∧ s1.queue = s.queue)))
  ∧ (∀ (f tag : Nat) (d : Desc) (s : State), (s.q f).prog = [d] → d.tag = tag →
    ((∀ g ∈ d.acc, s.runsOn f d g = false) → exec (.launchComplete f tag) s
      = .next ((s.setQ f { s.q f with prog := [] }).complDesc f d (if d.rej = [] then stOk else stPartial)))
    ∧ ((∃ g ∈ d.acc, s.runsOn f d g = true) → exec (.launchComplete f tag) s = .next s))
  ∧ (∀ (f : Nat) (d : Desc) (s : State), s.handHeld f 6 = some d → d.todo.Nodup →
    ∃ (t : State) (e : Desc), exec (.save f) s = .next (t.setDone f e) ∧ SavePass f d s t e)
  ∧ (∀ (f : Nat) (d : Desc) (s : State), s.handHeld f 6 = none → s.handFor f 6 = some d → bit (d.w 1) 25 = 0 →
    (setOk s f d → ∃ (r t : State) (e : Desc), exec (.save f) s = .next (t.setDone f e)
      ∧ SavePass f { d with disp := true, todo := plainSet d } r t e ∧ r.mem = s.mem ∧ r.reqs = s.reqs
      ∧ (∀ g, r.core g = if g ∈ plainSet d ∧ s.holds f g = true then (s.core g).stopAll (s.isGuest f) 5 else s.core g))
    ∧ (¬setOk s f d → exec (.save f) s = .next (s.endHand f d stLaunchErr)))
  ∧ (∀ (f g : Nat) (d : Desc) (s : State), s.handHeld f 7 = some d → d.todo = [g] →
    (restoreNo s f g = true → exec (.restore f) s = .next (s.setDone f { d with todo := [], rej := d.rej ++ [g] }))
    ∧ (restoreNo s f g = false → restoreWait s f g = true → ∃ t, exec (.restore f) s = .next t ∧ (t.q f).hand = some d ∧ t.cores = s.cores
        ∧ t.mem = s.mem)
    ∧ (∀ v, Sparse.get none s.saved (4096 * f + g) = some v → restoreNo s f g = false → restoreWait s f g = false →
        (s.isGuest f = false → s.rf .SPLIT g 0 1 0 = v.split) → (s.isGuest f = true → s.gres g ≠ 0) →
        ∃ t : State, exec (.restore f) s = .next (t.setDone f { d with todo := [], acc := d.acc ++ [g] }) ∧ Restored f g v s t))
  ∧ (∀ (f : Nat) (s : State), f < 16 →
    (s.rf .QSTAT f 0 2 2 = 1 → exec (.shakeOut f) s = .next s)
    ∧ (s.rf .QSTAT f 0 2 2 = 0 → ∃ t, exec (.shakeOut f) s = .next t ∧ t.rf .QSTAT f 0 2 1 = 3 ∧ t.jobOk f = false ∧ t.mem = s.mem
        ∧ (t.q f) = s.q f 
        ∧ (∀ h, (t.core h).groups = if (if s.isGuest f = true then s.guestOf h else (s.core h).hflask) = f then
              (s.core h).groups.map (fun gr => if isG gr.strm = s.isGuest f then { gr with wait := none } else gr)
            else (s.core h).groups)
        ∧ (∀ h, (if s.isGuest f = true then s.guestOf h else (s.core h).hflask) = f → (∃ gr ∈ (s.core h).groups, isG gr.strm = s.isGuest f) →
            ∀ st, isG st = s.isGuest f → (t.core h).runs st = false)
        ∧ (s.jobOk f = false → t.out = s.out ∧ t.notices = s.notices)))
  ∧ (∀ (f : Nat) (s : State), f < 16 → s.rf .QSTAT f 0 2 2 = 1 →
    ∃ t, exec (.shakeOutDrainEnd f) s = .next t ∧ t.rf .QSTAT f 0 2 1 = 0 ∧ t.rn .SQHEAD f 0 = 0 ∧ t.rn .CQTAIL f 0 = 0
      ∧ t.rf .QCTL f 0 0 0 = 0 ∧ t.rn .FAULT0 f 0 = 0 ∧ t.rn .FAULT1 f 0 = 0 ∧ t.rn .WDSTAT f 0 = 0 ∧ t.rn .STEP f 0 = 0
      ∧ t.q f = QueueSt.init
      ∧ (∀ g, g < 4096 → s.placeOf f g = true → (∀ gr ∈ (t.core g).groups, isG gr.strm ≠ s.isGuest f)
          ∧ ((s.core g).power = 0 → (s.core g).waking = false → ∀ o, (s.mapped g (s.isGuest f)).1 ≤ o → o < (s.mapped g (s.isGuest f)).2 →
              t.byte (aper g + o) = 0))
      ∧ (NSet.has s.msixEn f = true → fld (Sparse.get (1#128 <<< 96) s.msix (4 * f + 3)).toNat 96 96 = 0 → t.out.head? = some (.msix f 3))
      ∧ ((∀ q ∈ s.reqs, q.ofCores f = true → fld q.addr 47 0 < dramEnd) → ∀ o, o < dramEnd → t.byte o = s.byte o))
  ∧ (∀ (f : Nat) (s : State), s.rf .QSTAT f 0 2 2 = 0 → exec (.shakeOutDrainEnd f) s = .next s)
  ∧ (∀ (f : Nat) (s : State), f < 16 → ∃ t, exec (.ldReset f) s = .next t ∧ t.rf .QSTAT f 0 2 2 = 1 ∧ (t.q f) = { s.q f with ldr := true }
    ∧ NSet.has t.msixEn f = false ∧ (∀ v, v < 4 → NSet.has t.pba (4 * f + v) = false) ∧ Sparse.get 0 t.policy f = 0
    ∧ (∀ e ∈ t.cfg, e.1 / 4096 ≠ f) ∧ (∀ e ∈ t.msix, e.1 / 4 ≠ f) ∧ (∀ e ∈ t.bar, e.1 / 2 ^ 18 ≠ f) ∧ t.mem = s.mem)

namespace Sys2Proof.Machine

/-- DB of a host window (R428): the sizes of the windows before it. -/
def dpaBase (s : State) (ld w : Nat) : Nat := (List.range w).foldl (fun a k => a + (s.hostWin ld k).2) 0
/-- The MSI-X vector of an LD is enabled and not masked. -/
def VecFree (s : State) (ld v : Nat) : Prop :=
  NSet.has s.msixEn ld = true ∧ fld (Sparse.get (1#128 <<< 96) s.msix (4 * ld + v)).toNat 96 96 = 0

end Sys2Proof.Machine

/-- R425, R428 to R430, R434 to R436, R446, R451, R458, R469, R522: CXL.mem, Clear Poison and Get Poison List, configuration, MSI-X, IDE and the
link. -/
def Obligations.HostPort : Prop :=
  (∀ (ld dpa : Nat) (s : State), s.hostUp ld = true → s.memOff ld dpa 0 = none →
    ∃ t, exec (.cxlMemRead ld dpa) s = .next t
      ∧ t = { s.standbyEnds with regs := t.regs, out := .cxlData ld dpa (List.replicate 64 0) true :: s.out }
      ∧ t.rf .HERR ld 0 15 0 = min 65535 (s.rf .HERR ld 0 15 0 + 1))
  ∧ (∀ (ld dpa off : Nat) (s : State), s.hostUp ld = true → s.memOff ld dpa 0 = some off →
    (s.standbyEnds.dramHeld off = true → exec (.cxlMemRead ld dpa) s
        = .next (s.standbyEnds.holdCxl { kind := 0, ld := ld, dpa := dpa, data := [], mask := 0, pois := false }))
    ∧ (s.dramHeld off = false → s.stby = false → s.cxlCut off = true → ∃ t, exec (.cxlMemRead ld dpa) s = .next t
        ∧ t = { s with notices := s.notices ++ [.fault ld 9 0 .f 0 0 0], out := .cxlData ld dpa (List.replicate 64 0) true :: s.out })
    ∧ (s.dramHeld off = false → s.stby = false → s.cxlCut off = false → Sound s → ∃ t, exec (.cxlMemRead ld dpa) s = .next t
        ∧ t.out = .cxlData ld dpa (s.bytes (s.view off) 64) false :: s.out ∧ t.mem = s.mem ∧ t.cores = s.cores ∧ t.pois = s.pois)
    ∧ (s.dramHeld off = false → s.stby = false → s.cxlCut off = false → NoErrors s → off < dramEnd → s.view off < dramEnd → (s.llcFind (s.view off / 128)).isSome = true →
        NSet.has s.pois (s.view off / 128) = true → ∃ t, exec (.cxlMemRead ld dpa) s = .next t
        ∧ t.out = .cxlData ld dpa (s.bytes (s.view off) 64) true :: s.out ∧ t.mem = s.mem))
  ∧ (∀ (ld dpa : Nat) (data : List (BitVec 8)) (mask : BitVec 64) (poi : Bool) (s : State), s.hostUp ld = true →
    (s.memOff ld dpa 1 = none → ∃ t, exec (.cxlMemWrite ld dpa data mask poi) s = .next t
      ∧ t = { s.standbyEnds with regs := t.regs, out := .cxlAck ld dpa :: s.out } ∧ t.rf .HERR ld 0 15 0 = min 65535 (s.rf .HERR ld 0 15 0 + 1))
    ∧ (∀ off, s.memOff ld dpa 1 = some off →
      (s.standbyEnds.dramHeld off = true → exec (.cxlMemWrite ld dpa data mask poi) s
          = .next (s.standbyEnds.holdCxl { kind := 1, ld := ld, dpa := dpa, data := slice data 0 64, mask := mask, pois := poi }))
      ∧ (s.dramHeld off = false → s.stby = false → s.cxlCut off = true → ∃ t, exec (.cxlMemWrite ld dpa data mask poi) s = .next t
          ∧ t = { s with notices := s.notices ++ [.fault ld 9 0 .f 0 0 0], out := .cxlAck ld dpa :: s.out })
      ∧ (s.dramHeld off = false → s.stby = false → s.cxlCut off = false → Sound s → ∃ t, exec (.cxlMemWrite ld dpa data mask poi) s = .next t
          ∧ t.out = .cxlAck ld dpa :: s.out
          ∧ (∀ k, k < 64 → t.byte (s.view off + k) = if mask.getLsbD k = true then data.getD k 0 else s.byte (s.view off + k))
          ∧ (∀ o, o < s.view off ∨ s.view off + 64 ≤ o → t.byte o = s.byte o)
          ∧ (off < dramEnd → s.view off < dramEnd → NSet.has t.pois (s.view off / 128) = poi) ∧ t.cores = s.cores)))
  ∧ (∀ (ld dpa : Nat) (data : List (BitVec 8)) (s : State), s.hostUp ld = true →
    (s.clearOff ld dpa = none → exec (.clearPoison ld dpa data) s = .next (s.answer ld 0x4302 rcInvalid []))
    ∧ (∀ off, s.clearOff ld dpa = some off → s.dramHeld off = true → exec (.clearPoison ld dpa data) s
        = .next (s.holdCxl { kind := 2, ld := ld, dpa := dpa, data := slice data 0 64, mask := 0, pois := false }))
    ∧ (∀ off, s.clearOff ld dpa = some off → off < dramEnd → s.dramHeld off = false → NoErrors s → ∃ t, exec (.clearPoison ld dpa data) s = .next t
        ∧ (∀ k, k < 64 → t.byte (s.view off + k) = data.getD k 0)
        ∧ (∀ k, k < 64 → t.byte (s.view (if off % 128 = 0 then off + 64 else off - 64) + k) = 0)
        ∧ (∀ o, o / 128 ≠ s.view off / 128 → t.byte o = s.byte o)
        ∧ (s.view off < dramEnd → NSet.has t.pois (s.view off / 128) = false)
        ∧ t.out = .reply ld 0x4302 rcOk (Config.standardReply 0x4302 ld []) :: s.out))
  ∧ (∀ (ld dpa len : Nat) (s : State), s.hostUp ld = true → ∃ l, exec (.getPoisonList ld dpa len) s = .next (s.answer ld 0x4300 rcOk l)
    ∧ ∀ a, a ∈ l ↔ dpa ≤ a ∧ a < dpa + len ∧ ∃ e ∈ s.m.plist, ∃ w, w < 8 ∧ w < s.nhwin ld ∧ (s.hostWin ld w).1 ≤ s.view (e.2 * 128)
        ∧ s.view (e.2 * 128) < (s.hostWin ld w).1 + (s.hostWin ld w).2 ∧ a = dpaBase s ld w + (s.view (e.2 * 128) - (s.hostWin ld w).1))
  ∧ (∀ (ld dpa len : Nat) (data : List (BitVec 8)) (mask : BitVec 64) (poi : Bool) (s : State), s.hostUp ld = false →
    exec (.cxlMemRead ld dpa) s = .next s ∧ exec (.cxlMemWrite ld dpa data mask poi) s = .next s
      ∧ exec (.clearPoison ld dpa data) s = .next s ∧ exec (.getPoisonList ld dpa len) s = .next s)
  ∧ (∀ (up : Bool) (width speed bound : Nat) (s : State),
    (up = false → ∃ t, exec (.cxlLinkStateChange up width speed bound) s = .next t ∧ t = { s with regs := t.regs, cxlHeld := [] } ∧ t.rn .LSTAT 0 0 = 0)
    ∧ (up = true → (width = 8 ∨ width = 16) → 1 ≤ speed → speed ≤ 3 → s.rf .PINS 0 0 30 30 = 0 → s.rf .BOOT 0 0 5 5 = 0 →
        (s.booted = true ∨ s.mgt.boot.six = true) → ∃ t, exec (.cxlLinkStateChange up width speed bound) s = .next t
        ∧ t = { s with regs := t.regs } ∧ t.rf .LSTAT 0 0 0 0 = 1 ∧ t.rf .LSTAT 0 0 4 1 = width / 2 ∧ t.rf .LSTAT 0 0 6 5 = speed
        ∧ t.rf .LDSTAT 0 0 31 16 = bound % 2 ^ 16)
    ∧ (up = true → (s.rf .PINS 0 0 30 30 = 1 ∨ (s.booted = false ∧ s.mgt.boot.six = false)) →
        exec (.cxlLinkStateChange up width speed bound) s = .next s))
  ∧ (∀ s : State,
    (∃ t, exec (.cxlPerst true) s = .next t ∧ t.rf .PINS 0 0 30 30 = 1 ∧ t.rn .LSTAT 0 0 = 0 ∧ t.rf .IDESTAT 0 0 1 0 = 0 ∧ t.cxlHeld = []
      ∧ (∀ ld, ld < 16 → NSet.has t.msixEn ld = false ∧ Sparse.get 0 t.policy ld = 0) ∧ t.mem = s.mem ∧ t.queue = s.queue ∧ t.cores = s.cores)
    ∧ (∃ t, exec (.cxlPerst false) s = .next t ∧ t = { s with regs := t.regs } ∧ t.rf .PINS 0 0 30 30 = 0 ∧ t.rn .LSTAT 0 0 = s.rn .LSTAT 0 0)
    ∧ (s.rf .IDESTAT 0 0 0 0 = 0 → s.rf .IDESTAT 0 0 1 1 = 0 → exec .ideIntegrityFailure s = .next s)
      ∧ (s.rf .IDESTAT 0 0 0 0 ≠ 0 ∨ s.rf .IDESTAT 0 0 1 1 ≠ 0 → ∃ k t, k < 2 ∧ s.rf .IDESTAT 0 0 k k ≠ 0
        ∧ exec .ideIntegrityFailure s = .next t ∧ t.rf .IDESTAT 0 0 k k = 0
        ∧ t.rf .IDESTAT 0 0 2 2 = 1 ∧ t.rf .IDESTAT 0 0 (1 - k) (1 - k) = s.rf .IDESTAT 0 0 (1 - k) (1 - k)
        ∧ t.cxlHeld = [] ∧ (∀ e ∈ s.cxlHeld, e.kind = 0 → Out.cxlData e.ld e.dpa (List.replicate 64 0) true ∈ t.out)
        ∧ (∀ ld, t.hostUp ld = false)
        ∧ t.rn .RSEQ 0 0 = (s.rn .RSEQ 0 0 + 1) % 2 ^ 32 ∧ t.cores = s.cores ∧ t.queue = s.queue ∧ t.mem = s.mem))
  ∧ (∀ (ld off : Nat) (write : Bool) (v : BitVec 32) (s : State), s.rf .LSTAT 0 0 0 0 = 1 → ld < 16 → off < 4096 →
    let k := 4096 * ld + off / 4 * 4
    (s.booted = false → exec (.configurationRequest ld off write v) s = .next { s with out := .reply ld 0x20000 1 [] :: s.out })
    ∧ (s.booted = true → ld < s.nf → write = false → exec (.configurationRequest ld off write v) s = .next
        { s with out := .reply ld 0x20000 0 (Config.standardReply 0x20000 ld [off / 4 * 4, (Sparse.get 0 s.cfg k).toNat]) :: s.out })
    ∧ (s.booted = true → ld < s.nf → write = true → ∃ t, exec (.configurationRequest ld off write v) s = .next t
        ∧ Sparse.get 0 t.cfg k = v ∧ (∀ j, j ≠ k → Sparse.get 0 t.cfg j = Sparse.get 0 s.cfg j)
        ∧ (off / 4 * 4 = Config.msixCap → NSet.has t.msixEn ld = (v.getLsbD 31 && !(v.getLsbD 30)))
        ∧ (off / 4 * 4 ≠ Config.msixCap → t.msixEn = s.msixEn ∧ t.pba = s.pba) ∧ t.mem = s.mem ∧ t.regs = s.regs))
  ∧ (∀ (ld vec : Nat) (entry : BitVec 128) (s : State), s.hostUp ld = true → vec < 4 →
    ∃ t, exec (.msixTableWrite ld vec entry) s = .next t ∧ Sparse.get (1#128 <<< 96) t.msix (4 * ld + vec) = entry
      ∧ (VecFree t ld vec → NSet.has s.pba (4 * ld + vec) = true → .msix ld vec ∈ t.out ∧ NSet.has t.pba (4 * ld + vec) = false)
      ∧ (¬VecFree t ld vec → NSet.has t.pba (4 * ld + vec) = NSet.has s.pba (4 * ld + vec)) ∧ t.mem = s.mem ∧ t.regs = s.regs)

/-- R427, R434, R435: the commands of the FM-owned LD, of an LD's mailbox and of its DOE mailbox, with what their replies state. -/
def Obligations.MailboxCommands : Prop :=
  (∀ (alloc : List Nat) (code : Nat) (s : State), s.booted = true →
    exec .identify s = .next (s.answer 16 0x0001 rcOk [])
    ∧ exec .getLdInfo s = .next (s.answer 16 0x5400 rcOk (s.nf :: (List.range s.nf).map s.ldCap))
    ∧ exec .getLdAllocations s = .next (s.answer 16 0x5401 rcOk ((List.range s.nf).map fun f => s.ldCap f / 2 ^ 28))
    ∧ (alloc = (List.range s.nf).map (fun f => s.ldCap f / 2 ^ 28) → exec (.setLdAllocations alloc) s = .next (s.answer 16 0x5402 rcOk []))
    ∧ (alloc ≠ (List.range s.nf).map (fun f => s.ldCap f / 2 ^ 28) → exec (.setLdAllocations alloc) s = .next (s.answer 16 0x5402 rcInvalid []))
    ∧ exec .getQosControl s = .next (s.answer 16 0x5403 rcOk [0])
    ∧ (code ∉ [0x0001, 0x5400, 0x5401, 0x5402, 0x5403] → exec (.unsupportedCommand 16 code) s = .next (s.answer 16 code rcUnsupported [])))
  ∧ (∀ (ld log policy code : Nat) (handles : List Nat) (s : State), s.hostUp ld = true →
    exec (.getEventRecords ld log) s = .next (s.answer ld 0x0100 rcOk (if log < 4 then Sparse.get [] s.ldlog (4 * ld + log) else []))
    ∧ (∃ t, exec (.clearEventRecords ld log handles) s = .next t ∧ t = { s with ldlog := t.ldlog, out := t.out }
        ∧ t.out = .reply ld 0x0101 rcOk (Config.standardReply 0x0101 ld []) :: s.out
        ∧ (log < 4 → Sparse.get [] t.ldlog (4 * ld + log) = (Sparse.get [] s.ldlog (4 * ld + log)).filter fun r => !(handles.contains r))
        ∧ ∀ i, (i ≠ 4 * ld + log ∨ 4 ≤ log) → Sparse.get [] t.ldlog i = Sparse.get [] s.ldlog i)
    ∧ exec (.getEventInterruptPolicy ld) s = .next (s.answer ld 0x0102 rcOk [Sparse.get 0 s.policy ld])
    ∧ (∃ t, exec (.setEventInterruptPolicy ld policy) s = .next t ∧ t = { s with policy := t.policy, out := t.out }
        ∧ Sparse.get 0 t.policy ld = policy % 16 ∧ ∀ i, i ≠ ld → Sparse.get 0 t.policy i = Sparse.get 0 s.policy i)
    ∧ exec (.getFwInfo ld) s = .next (s.answer ld 0x0200 rcOk [1]) ∧ exec (.getSupportedLogs ld) s = .next (s.answer ld 0x0400 rcOk [1])
    ∧ exec (.getLog ld) s = .next (s.answer ld 0x0401 rcOk ldCommands)
    ∧ exec (.identifyMemoryDevice ld) s = .next (s.answer ld 0x4000 rcOk [s.ldCap ld, 0, 1024])
    ∧ exec (.getHealthInfo ld) s = .next (s.answer ld 0x4200 rcOk (s.records.map (·.cls)))
    ∧ (ld ≠ 16 → code ∉ ldCommands → exec (.unsupportedCommand ld code) s = .next (s.answer ld code rcUnsupported []))
    ∧ exec (.discovery ld) s = .next (s.answer ld 0x10000 rcOk [3])
    ∧ exec (.cxlTableAccess ld) s = .next (s.answer ld 0x10002 rcOk [s.ldCap ld, 400, 250, 64000, 64000]))
  ∧ (∀ (ld log policy : Nat) (handles : List Nat) (s : State), s.booted = false →
    exec .identify s = .next s ∧ exec .getLdInfo s = .next s ∧ exec .getLdAllocations s = .next s ∧ exec (.setLdAllocations handles) s = .next s
    ∧ exec .getQosControl s = .next s ∧ exec (.getEventRecords ld log) s = .next s ∧ exec (.clearEventRecords ld log handles) s = .next s
    ∧ exec (.getEventInterruptPolicy ld) s = .next s ∧ exec (.setEventInterruptPolicy ld policy) s = .next s ∧ exec (.getFwInfo ld) s = .next s
    ∧ exec (.getSupportedLogs ld) s = .next s ∧ exec (.getLog ld) s = .next s ∧ exec (.identifyMemoryDevice ld) s = .next s
    ∧ exec (.getHealthInfo ld) s = .next s ∧ exec (.discovery ld) s = .next s ∧ exec (.cxlTableAccess ld) s = .next s)

namespace Sys2Proof.Machine

/-- Boot is at the point after serial stage `n` (R468). -/
def BootAt (s : State) (n : Nat) : Prop := s.booting = true ∧ s.mgt.boot.at' = n

/-- Boot has stopped with a CAUSE (R469, R480): FATAL, a record, the CXL link down, FAULT_N low; memory as it was. -/
def BootStops (s t : State) (cause : Nat) : Prop :=
  t.rf .BOOT 0 0 5 5 = 1 ∧ t.rf .BOOT 0 0 23 20 = cause ∧ t.rf .BOOT 0 0 6 6 = 0 ∧ t.rn .LSTAT 0 0 = 0 ∧ t.pins.faultLow = true
    ∧ t.rn .RSEQ 0 0 = (s.rn .RSEQ 0 0 + 1) % 2 ^ 32 ∧ t.mem = s.mem ∧ t.mgt = s.mgt

/-- Boot goes on in another state of its own, STAGE with it. -/
def BootMoves (s t : State) (b : Boot) : Prop :=
  t.mgt = { s.mgt with boot := b } ∧ t.rf .BOOT 0 0 3 0 = stageAfter b.at' b.six % 16 ∧ t.rf .BOOT 0 0 31 4 = s.rf .BOOT 0 0 31 4
    ∧ t.records = s.records

/-- So it does, and leaves the cores as they were. -/
def BootGoes (s t : State) (b : Boot) : Prop := BootMoves s t b ∧ t.cores = s.cores

/-- The candidate in hand has failed (R468): the other is tried from stage 4, or boot stops. -/
def CandFails (s t : State) : Prop :=
  (∀ k o, s.mgt.boot.cands = [k, o] → BootGoes s t { s.mgt.boot with cands := [o], fell := true, at' := 3 })
    ∧ (∀ k, s.mgt.boot.cands = [k] → BootStops s t (if s.mgt.boot.verified = true then 4 else 1))

end Sys2Proof.Machine

/-- R460 to R469, R480, R485: the stages of boot, what stops them, and what stage 9 loads. -/
def Obligations.BootSequence : Prop :=
  (∀ (s : State),
    (BootAt s 1 → (∃ t, exec (.parameterTableRead true) s = .next t ∧ BootGoes s t { s.mgt.boot with at' := 2 } ∧ t.mem = s.mem)
      ∧ ∃ t, exec (.parameterTableRead false) s = .next t ∧ BootStops s t 2)
    ∧ (BootAt s 2 → s.candidates = [] → ∃ t, exec .slotHeadersRead s = .next t ∧ BootStops s t 1)
    ∧ (BootAt s 2 → s.candidates ≠ [] → ∃ t, exec .slotHeadersRead s = .next t
        ∧ BootGoes s t { s.mgt.boot with cands := s.candidates, at' := 3 } ∧ t.mem = s.mem)
    ∧ (BootAt s 3 → ∃ t, exec .imageRead s = .next t
        ∧ BootGoes s t { s.mgt.boot with at' := 4, hash := Config.shake256 (s.signedMsg (s.mgt.boot.cands.headD 0)) })
    ∧ (∀ n, s.booting = false ∨ s.mgt.boot.at' ≠ n → (n = 2 → exec .slotHeadersRead s = .next s) ∧ (n = 3 → exec .imageRead s = .next s)
        ∧ (n = 4 → exec .signatureVerify s = .next s) ∧ (n = 7 → exec .dramZeroing s = .next s) ∧ (n = 8 → exec .registerLoad s = .next s)))
  ∧ (∀ s : State, s.candidate 0 = true → s.candidate 1 = true →
    s.candidates = if s.norLe (slotBase 0 + 8) 4 < s.norLe (slotBase 1 + 8) 4 then [1, 0] else [0, 1])
  ∧ (∀ (k : Nat) (s : State), s.mgt.boot.cands.headD 0 = k → BootAt s 4 →
    let good := Config.xmssVerify (s.norAt (slotBase k + 0x18) 68) (s.signedMsg k) (s.norAt (slotBase k + 0x100) 2820)
    ∃ t, exec .signatureVerify s = .next t ∧ (good = true → BootGoes s t { s.mgt.boot with at' := 5, verified := true })
      ∧ (good = false → CandFails s t))
  ∧ (∀ (pll links : Bool) (taps failed : List Nat) (s : State), s.booting = true → s.mgt.boot.six = false →
    ((pll && links) = true → ∃ t, exec (.pllLockAndLinkTraining pll links taps failed) s = .next t
      ∧ BootMoves s t { s.mgt.boot with six := true, failed := failed }
      ∧ (∀ g, g < 4096 → t.core g = if s.clu (g / 64) = 3 then s.core g else (s.core g).startZero) ∧ t.rf .CLKSTAT 0 0 0 0 = 1
      ∧ (∀ x, x < 24 → t.rn .XPHASE 0 x = 256 + taps.getD x 0 % 256) ∧ t.mem = s.mem)
    ∧ ((pll && links) = false → ∃ t, exec (.pllLockAndLinkTraining pll links taps failed) s = .next t ∧ BootStops s t 3))
  ∧ (∀ (s : State), BootAt s 5 → s.mgt.boot.six = true →
    (∃ t, exec (.lpddr6Training false) s = .next t ∧ BootStops s t 5)
    ∧ (s.consistent (s.mgt.boot.cands.headD 0) = true → ∃ t, exec (.lpddr6Training true) s = .next t
        ∧ BootGoes s t { s.mgt.boot with at' := 7 })
    ∧ (s.consistent (s.mgt.boot.cands.headD 0) = false → ∃ t, exec (.lpddr6Training true) s = .next t ∧ CandFails s t))
  ∧ (∀ s : State, BootAt s 7 → ∃ t, exec .dramZeroing s = .next t ∧ BootGoes s t { s.mgt.boot with at' := 8 }
    ∧ (∀ o, t.byte o = if o < dramEnd then 0 else s.byte o) ∧ (∀ l, 128 * l < dramEnd → NSet.has t.pois l = false)
    ∧ t.m.dpois = [] ∧ t.m.derr = [] ∧ t.m.plist = [])
  ∧ (∀ (k : Nat) (s : State), BootAt s 8 → s.mgt.boot.cands.head? = some k → k < 2 →
    let b := s.mgt.boot
    let u := s.withPat k
    ∃ t, exec .registerLoad s = .next t ∧ t.booted = true ∧ t.rf .BOOT 0 0 7 7 = k ∧ t.rf .BOOT 0 0 8 8 = (if b.fell = true then 1 else 0)
      ∧ t.pat = u.pat ∧ t.mem = s.mem ∧ (∀ g, t.core g = (s.core g).endZero) ∧ t.pins.ready = true ∧ t.mgt.hdr = s.norAt (slotBase k) 0x100
      ∧ t.rn .IMGVER 0 0 = s.norLe (slotBase k + 8) 4
      ∧ t.rn .MINVER 0 0 = max (s.rn .MINVER 0 0) (s.norLe (slotBase k + 0xC) 4)
      ∧ t.rf .THERM 0 0 7 0 = u.thresholds.1 % 256 ∧ t.rf .THERM 0 0 15 8 = u.thresholds.2 % 256 ∧ t.rf .LDSTAT 0 0 4 0 = u.nf % 32
      ∧ (∀ i, i < 4 → t.rn .IMGHASH 0 i = b.hash.toNat / 2 ^ (64 * i) % 2 ^ 64)
      ∧ (∀ g, g < 4096 → t.rf .SPLIT g 0 3 2 = fld (u.coreRec g) 1 0 ∧ t.rf .SPLIT g 0 1 0 = s.rf .SPLIT g 0 1 0
          ∧ t.inSvc g = (s.inSvc g && !(b.failed.contains g)))
      ∧ (∀ p i, p < 16 → i < 8 → t.rn .WHEEL p i = u.patLe ((u.sec 6).1 + 32 * p + 4 * i) 4)
      ∧ (∀ q, q < 256 → t.rn .RQCFG 0 q = u.queueRec q 0 ∧ t.rn .RQBASE 0 q = u.queueRec q 1)
      ∧ (∀ c, c < 32 → t.rf .CTXEN 0 0 c c = bit (u.secB 8 c) 7)
      ∧ (∀ f, f < u.nf → let j := u.flk f 0x10 8
          t.rn .JRNL f 0 = if fld j 35 0 = 0 ∨ fld j 51 36 = 0 then 0 else fld j 35 0 * 4096 + fld j 51 36 * 2 ^ 48)
      ∧ (∀ m, m < 8 → t.rn .MSDCFG m 0 = m + u.secB 1 0 * 8))

namespace Sys2Proof.Machine

/-- Registers of the list hold what they held, every other one its reset value; PWR_PINS apart. -/
def KeepOnly (rs : List Reg) (s t : State) : Prop :=
  ∀ (r : Reg) (i j : Nat), r ≠ .PINS → t.rd r i j = if r ∈ rs then s.rd r i j else r.resetVal

/-- What the rails held is gone, the cores of `cold` clusters being Cold; the SPI NOR and the commands waiting stay (R504, R515). -/
structure RailsLost (cold : Nat → Bool) (s t : State) : Prop where
  mem : t.mem = []
  pois : t.pois = []
  cores : ∀ g, g < 4096 → t.core g = if cold (g / 64) = true then Core.cold else Core.init
  queue : t.queue = []
  vote : t.vote = []
  llc : t.m.llc = []
  pat : t.pat = []
  nor : t.mgt.nor = s.mgt.nor
  pending : t.pending = s.pending

/-- The module reset of R501 and R504: `k` is the KIND it will show. -/
structure InModuleReset (s t : State) (k : Nat) : Prop where
  lost : RailsLost (fun k => s.clu k = 3 || s.rf .PSTATE k 0 2 2 = 1) s t
  cold : ∀ k, k < 64 → t.rf .PSTATE k 0 1 0 = (if s.clu k = 3 ∨ s.rf .PSTATE k 0 2 2 = 1 then 3 else 0)
    ∧ t.rf .PSTATE k 0 2 2 = s.rf .PSTATE k 0 2 2
  kind : t.pins.mrst = k
  regs : ∀ (r : Reg) (i j : Nat), r ∉ [Reg.PINS, .CAUSE, .PSTAT, .PSTATE, .HOLD] → t.rd r i j = if r ∈ oneWay ++ errRegs then s.rd r i j else r.resetVal
  count : t.rf .CAUSE 0 0 31 16 = s.rf .CAUSE 0 0 31 16
  records : t.records = s.records
  pins : t.pins.faultLow = s.pins.faultLow ∧ t.pins.thermtrip = s.pins.thermtrip ∧ t.pins.leakLow = s.pins.leakLow ∧ t.pins.ready = false

/-- Boot begins (R468 stage 1): BOOTNUM advances, KIND is set, stage 1 is shown, and stage 2 is next. -/
structure BootBegins (s t : State) (k : Nat) : Prop where
  num : t.rn .BOOTNUM 0 0 = min (2 ^ 32 - 1) (s.rn .BOOTNUM 0 0 + 1)
  kind : t.rf .CAUSE 0 0 3 0 = k % 16
  stage : t.rf .BOOT 0 0 3 0 = 1
  at' : t.mgt.boot = { Boot.init with at' := 1, start := s.acnt }
  mac : t.rf .NET 0 0 47 0 = macAddr
  slot : t.rf .PINS 0 0 28 24 = Config.slotStraps.toNat

end Sys2Proof.Machine

/-- R459, R484, R500, R501, R504, R508, R512 to R516, R520, R521, R531: power-on and module reset, the input events, the hardware shutdown. -/
def Obligations.ResetsAndSupplies : Prop :=
  (∀ s : State,
    (s.pins.alive = true → exec .alwaysOnSupplyStart s = .next s)
    ∧ (s.pins.alive = false → exec .alwaysOnSupplyStart s = .next { s with pins := { s.pins with alive := true } })
    ∧ (s.pins.alive = false → exec .alwaysOnSupplyLoss s = .next s)
    ∧ (s.pins.alive = true → ∃ t, exec .alwaysOnSupplyLoss s = .next t ∧ RailsLost (fun _ => false) s t ∧ KeepOnly oneWay s t ∧ t.records = []
        ∧ t.pins.alive = false ∧ t.pins.por = true ∧ t.pins.rising = false ∧ t.pins.swOpen = false ∧ t.pins.event = 0)
    ∧ (s.pins.event = 0 → exec .powerOnResetAssert s = .next s)
    ∧ (s.pins.event ≠ 0 → ∃ t, exec .powerOnResetAssert s = .next t ∧ RailsLost (fun _ => false) s t ∧ KeepOnly oneWay s t ∧ t.records = []
        ∧ t.pins.por = true ∧ t.pins.event = 0 ∧ t.pins.swOpen = s.pins.swOpen ∧ t.pins.rising = false ∧ t.pins.thermtrip = false)
    ∧ (s.pins.alive = true → s.pins.por = true → s.pins.swOpen = false →
        exec .inputRising s = .next { s with pins := { s.pins with rising := true } })
    ∧ ((s.pins.alive = false ∨ s.pins.por = false ∨ s.pins.swOpen = true) → exec .inputRising s = .next s)
    ∧ (s.pins.alive = true → s.pins.por = true → s.pins.rising = true → s.pins.mrst = 0 →
        (s.pins.mrstLow = false → ∃ t, exec .powerOnResetRelease s = .next t ∧ BootBegins s t 1 ∧ t.pins.por = false ∧ t.mem = s.mem)
        ∧ (s.pins.mrstLow = true → exec .powerOnResetRelease s = .next { s with pins := { s.pins with por := false, mrst := 1 } }))
    ∧ ((s.pins.alive = false ∨ s.pins.por = false ∨ s.pins.rising = false) → exec .powerOnResetRelease s = .next s))
  ∧ (∀ (s : State) (c : Instr) (kind : Nat), (c, kind) ∈ [(Instr.undervoltage, 1), (.overvoltage, 2), (.overcurrent, 3)] →
    ((s.pins.alive = false ∨ s.pins.event ≠ 0) → exec c s = .next s)
    ∧ (s.pins.alive = true → s.pins.event = 0 → s.pins.por = true → exec c s
        = .next (if kind = 3 then s else { s with pins := { s.pins with rising := false } }))
    ∧ (s.pins.alive = true → s.pins.event = 0 → s.pins.por = false → ∃ t, exec c s = .next t ∧ RailsLost (fun _ => false) s t ∧ t.pins.event = kind
        ∧ t.pins.faultLow = true ∧ t.pins.ready = false ∧ t.pins.swOpen = (s.pins.swOpen || kind ≠ 1)
        ∧ t.rn .RSEQ 0 0 = (s.rn .RSEQ 0 0 + 1) % 2 ^ 32 ∧ t.booted = false
        ∧ ∀ (r : Reg) (i j : Nat), r ∉ [Reg.RSEQ, .RDROP, .PINS] → t.rd r i j = if r ∈ alwaysOn then s.rd r i j else r.resetVal))
  ∧ (∀ (die temp : Nat) (s : State),
    (s.powered = true → die < 14 → 125 ≤ temp → ∃ t, exec (.hardwareShutdown die temp) s = .next t ∧ RailsLost (fun _ => false) s t ∧ t.pins.cut = true
      ∧ t.pins.thermtrip = true ∧ t.pins.faultLow = true ∧ t.pins.ready = false ∧ t.rn .RSEQ 0 0 = (s.rn .RSEQ 0 0 + 1) % 2 ^ 32)
    ∧ ((s.powered = false ∨ temp < 125) → exec (.hardwareShutdown die temp) s = .next s))
  ∧ (∀ s : State,
    (s.powered = true → ∃ t, exec .crystalLoss s = .next t ∧ InModuleReset s t 2)
    ∧ (s.powered = true → s.pins.mrst = 0 → ∃ t, exec .rstCmdModule s = .next t ∧ InModuleReset s t 4)
    ∧ (s.powered = true → s.pins.mrst ≠ 1 → ∃ t, exec (.moduleResetPin true) s = .next t ∧ InModuleReset s t 3 ∧ t.pins.mrstLow = true)
    ∧ (s.powered = false → exec .crystalLoss s = .next s ∧ exec .rstCmdModule s = .next s
        ∧ exec (.moduleResetPin true) s = .next { s with pins := { s.pins with mrstLow := true } })
    ∧ exec (.moduleResetPin false) s = .next { s with pins := { s.pins with mrstLow := false } }
    ∧ (s.powered = true → s.pins.mrst ≠ 0 → s.pins.mrstLow = false → ∃ t, exec .moduleResetRelease s = .next t
        ∧ BootBegins s t s.pins.mrst ∧ t.pins.mrst = 0 ∧ t.mem = s.mem
        ∧ t.rf .CAUSE 0 0 31 16 = if s.pins.mrst = 1 then s.rf .CAUSE 0 0 31 16 else min 65535 (s.rf .CAUSE 0 0 31 16 + 1))
    ∧ ((s.powered = false ∨ s.pins.mrst = 0 ∨ s.pins.mrstLow = true) → exec .moduleResetRelease s = .next s))

namespace Sys2Proof.Machine

/-- After a trip (R499): standby is entered, every core is cold, the flasks are stopped, their jobs are over. -/
structure Tripped (s t : State) : Prop where
  stby : t.stby = true
  trip : t.rf .PSTAT 0 0 18 18 = 1
  pin : t.pins.thermtrip = true
  cores : ∀ g, g < 4096 → t.core g = Core.cold
  clusters : ∀ k, k < 64 → t.clu k = 3
  flasks : ∀ f, f < s.nf → t.stopped f = true ∧ t.jobOk f = false

end Sys2Proof.Machine

/-- R32, R484, R488 to R499, R504, R532: the power states and wakes, module standby, the power window, trips, failed links and PLLs. -/
def Obligations.PowerAndFailures : Prop :=
  (∀ (g : Nat) (s : State), g < 4096 →
    ((s.core g).awake = true → s.idle g = true → (s.rf .IDLE 0 0 7 0 ≠ 0 ∨ s.inSvc g = false) → ∃ t, exec (.holdEntry g) s = .next t
      ∧ t.core g = { s.core g with power := 1 } ∧ (∀ h, h ≠ g → t.core h = s.core h) ∧ t.rf .HOLD (g / 64) 0 (g % 64) (g % 64) = 1 ∧ t.mem = s.mem)
    ∧ (((s.core g).awake = false ∨ s.idle g = false) → exec (.holdEntry g) s = .next s))
  ∧ (∀ (k : Nat) (s : State), k < 64 →
    (s.rf .IDLE 0 0 7 0 ≠ 0 → s.rf .IDLE 0 0 15 8 ≠ 0 → (∀ n, n < 64 → (s.core (64 * k + n)).power = 1 ∧ (s.core (64 * k + n)).waking = false) →
      ∃ t, exec (.napEntry k) s = .next t ∧ t.clu k = 1 ∧ t.mem = s.mem
        ∧ ∀ g, g < 4096 → t.core g = if g / 64 = k then { s.core g with power := 2 } else s.core g)
    ∧ (s.rf .IDLE 0 0 7 0 ≠ 0 → s.rf .IDLE 0 0 15 8 ≠ 0 → s.rf .IDLE 0 0 31 16 ≠ 0 → s.clu k = 1 →
      ∃ t, exec (.restEntry k) s = .next t ∧ t.clu k = 2 ∧ t.mem = s.mem
        ∧ ∀ g, g < 4096 → t.core g = if g / 64 = k then { s.core g with power := 3 } else s.core g)
    ∧ (s.rf .IDLE 0 0 15 8 = 0 → exec (.napEntry k) s = .next s ∧ exec (.restEntry k) s = .next s)
    ∧ (s.clu k ≠ 3 → (s.coldBit k = true ∨ s.rf .PSTATE k 0 2 2 = 1) →
      (∀ n, n < 64 → s.idle (64 * k + n) = true ∧ (s.core (64 * k + n)).waking = false) → ∃ t, exec (.coldEntry k) s = .next t ∧ t.clu k = 3
        ∧ (∀ g, g < 4096 → g / 64 = k → t.core g = Core.cold ∧ t.rf .SPLIT g 0 1 0 = 0 ∧ t.rf .SPLIT g 0 3 2 = s.rf .SPLIT g 0 3 2
            ∧ t.rn .SEQMM g 0 = s.rn .SEQMM g 0 ∧ t.rn .SHAPE g 0 = 0 ∧ ∀ o, o < 2 ^ 20 → t.byte (aper g + o) = 0)
        ∧ (∀ g, g < 4096 → g / 64 ≠ k → t.core g = s.core g) ∧ (∀ o, o < dramEnd → t.byte o = s.byte o))
    ∧ ((s.coldBit k = false ∧ s.rf .PSTATE k 0 2 2 = 0) → exec (.coldEntry k) s = .next s))
  ∧ (∀ (g : Nat) (s : State), g < 4096 → (s.core g).power ≠ 0 → (s.core g).waking = false →
    (s.clu (g / 64) = 0 → s.inSvc g = true → ∃ t, exec (.wakeEvent g) s = .next t ∧ t.core g = { s.core g with waking := true }
      ∧ t.regs = s.regs ∧ ∀ h, h ≠ g → t.core h = s.core h)
    ∧ (s.clu (g / 64) = 0 → s.inSvc g = false → exec (.wakeEvent g) s = .next s)
    ∧ (s.clu (g / 64) ≠ 0 → s.mayWake (g / 64) = false → exec (.wakeEvent g) s = .next s)
    ∧ (s.clu (g / 64) ≠ 0 → s.mayWake (g / 64) = true → ∃ t, exec (.wakeEvent g) s = .next t ∧ t.clu (g / 64) = 0
        ∧ (let up (c : Core) : Core := if s.clu (g / 64) = 3 then Core.startZero { c with power := 1 } else { c with power := 1 }
           t.core g = (if s.inSvc g = true then { up (s.core g) with waking := true } else up (s.core g))
           ∧ ∀ h, h < 4096 → h ≠ g → t.core h = if h / 64 = g / 64 then up (s.core h) else s.core h)
        ∧ Sparse.get 0 t.pwr.lock (g / 64) = lockAc (s.clu (g / 64))
        ∧ (s.clu (g / 64) = 3 → t.rn .FCNT (g / 64) 0 = 0) ∧ t.mem = s.mem))
  ∧ (∀ (g : Nat) (s : State), ((s.core g).waking = false → exec (.wakeComplete g) s = .next s)
    ∧ ((s.core g).waking = true → s.inSvc g = false →
        exec (.wakeComplete g) s = .next (s.setCore g { s.core g with waking := false }))
    ∧ ((s.core g).waking = true → s.inSvc g = true → (s.core g).marked = 0 → ∃ t, exec (.wakeComplete g) s = .next t
        ∧ t.core g = Core.endZero { s.core g with power := 0, waking := false, marked := 0 } ∧ Sparse.get 0 t.pwr.lock (g / 64) = 0 ∧ t.rf .HOLD (g / 64) 0 (g % 64) (g % 64) = 0
        ∧ t.mem = s.mem ∧ ∀ h, h ≠ g → t.core h = s.core h)
    ∧ ((s.core g).waking = true → s.inSvc g = true → bit (s.core g).marked 0 = 1 → ∃ t, exec (.wakeComplete g) s = .next t ∧ (t.core g).power = 0
        ∧ (t.core g).waking = false ∧ (t.core g).cc = [] ∧ ∀ o, o < s.hostLs g → t.byte (aper g + o) = 0))
  ∧ (∀ s : State, ((s.stby = true ∨ s.booted = false) → exec .pwrCmdStandby s = .next s)
    ∧ (∀ w, s.stby = false → s.booted = true → s.busyWhy = some w → ∃ t, exec .pwrCmdStandby s = .next t ∧ t.stby = false
        ∧ t.cores = s.cores ∧ t.mem = s.mem ∧ t.rn .RSEQ 0 0 = (s.rn .RSEQ 0 0 + 1) % 2 ^ 32)
    ∧ (s.stby = false → s.booted = true → s.busyWhy = none → ∃ t, exec .pwrCmdStandby s = .next t ∧ t.stby = true
        ∧ (∀ g, g < 4096 → t.core g = Core.cold) ∧ (∀ k, k < 64 → t.clu k = 3) ∧ (∀ e ∈ t.m.llc, e.dirty = false)
        ∧ (∀ o, o < dramEnd → t.byte o = s.byte o) ∧ t.queue = s.queue ∧ t.saved = s.saved))
  ∧ (∀ (c : Nat) (s : State), c < 384 → s.stby = true → s.pwr.leaving = false → NSet.has s.m.selfref c = false →
    (Sparse.get 0 s.m.slot c = 0 → (∀ b, b < 32 → Sparse.get [] s.m.bank (32 * c + b) = []) → ∃ t, exec (.rotaStop c) s = .next t ∧ NSet.has t.m.selfref c = true
      ∧ (t.m.selfref.length = 384 → t.rf .PSTAT 0 0 16 16 = 1) ∧ (t.m.selfref.length ≠ 384 → t.regs = s.regs) ∧ t.mem = s.mem)
    ∧ ((Sparse.get 0 s.m.slot c ≠ 0 ∨ ∃ b, b < 32 ∧ Sparse.get [] s.m.bank (32 * c + b) ≠ []) → exec (.rotaStop c) s = .next s))
  ∧ (∀ s : State,
    (s.stby = true → s.pwr.leaving = false → s.rf .PSTAT 0 0 18 18 = 0 → ∃ t, exec .standbyExit s = .next t ∧ t.pwr.leaving = true
      ∧ t.m.selfref = [] ∧ t.stby = true ∧ t.regs = s.regs ∧ t.mem = s.mem ∧ t.cores = s.cores)
    ∧ ((s.stby = false ∨ s.rf .PSTAT 0 0 18 18 = 1) → exec .standbyExit s = .next s)
    ∧ (s.pwr.leaving = false → exec .rotaRestart s = .next s)
    ∧ (s.pwr.leaving = true → ∃ t, exec .rotaRestart s = .next t ∧ t.stby = false ∧ t.pwr.leaving = false ∧ t.rf .PSTAT 0 0 16 16 = 0
        ∧ t.rf .PSTAT 0 0 18 18 = 0 ∧ t.cxlHeld = [] ∧ (s.cxlHeld = [] → t.cores = s.cores ∧ t.mem = s.mem)
        ∧ (∀ c, c < 384 → t.rf .ROTA c 0 5 0 = 0 ∧ Sparse.get 0 t.m.slot c = 0
          ∧ t.rf .ROTA c 0 31 6 = (s.rf .ROTA c 0 31 6 + 1) % 2 ^ 26)
        ∧ ∀ e off, s.cxlHeld = [e] → e.kind = 0 → s.memOff e.ld e.dpa 0 = some off → s.cxlCut off = false → Sound s →
          Out.cxlData e.ld e.dpa (s.bytes (s.view off) 64) false ∈ t.out)
    ∧ (let held := s.rf .PSTAT 0 0 18 18 = 1 ∧ (s.rf .THERM 0 0 7 0 ≤ s.rf .PTEMP 0 0 7 0 ∨ s.rf .PINS 0 0 31 31 = 1)
       (held → exec .pwrCmdWake s = .next s)
       ∧ (¬held → ∃ t, exec .pwrCmdWake s = .next t ∧ (s.stby = true → t.pwr.leaving = true) ∧ t.mem = s.mem
          ∧ ∀ k, k < 64 → t.clu k = if s.coldBit k = false ∧ s.rf .PSTATE k 0 2 2 = 0 then 0 else s.clu k)))
  ∧ (∀ (watts volts : Nat) (temps : List Nat) (s : State), ((temps.length ≠ 14 ∨ s.booted = false) →
      exec (.powerWindowEnd watts volts temps) s = .next s)
    ∧ (temps.length = 14 → s.booted = true →
      let hot := (hottest temps).2
      let lim := min 2700 (s.rf .LIMIT 0 0 11 0)
      let warn := s.rf .THERM 0 0 7 0
      (∀ x ∈ temps, x ≤ hot) ∧ hot ∈ temps ∧ ∃ t, exec (.powerWindowEnd watts volts temps) s = .next t ∧ t.cores = s.cores ∧ t.mem = s.mem
        ∧ t.rf .PTEMP 0 0 7 0 = hot % 256 ∧ t.rf .MEAS 0 0 11 0 = watts % 2 ^ 12 ∧ t.rf .MEAS 0 0 25 16 = volts % 2 ^ 10
        ∧ (lim = 0 → t.pwr.auto = 0) ∧ (lim ≠ 0 → lim < watts → t.pwr.auto = min 72 (s.pwr.auto + 8))
        ∧ (lim ≠ 0 → watts ≤ lim → 100 * watts < 95 * lim → t.pwr.auto = s.pwr.auto - 2)
        ∧ (lim ≠ 0 → watts ≤ lim → 95 * lim ≤ 100 * watts → t.pwr.auto = s.pwr.auto)
        ∧ (warn ≤ hot → t.pwr.therm = min 72 (s.pwr.therm + 8)) ∧ (hot + 5 < warn → t.pwr.therm = s.pwr.therm - 2)
        ∧ (hot < warn → warn ≤ hot + 5 → t.pwr.therm = s.pwr.therm)
        ∧ ((∃ c, c < 384 ∧ s.rf .TEMP c 0 8 8 = 1) → t.pwr.dhot = 16) ∧ ((∀ c, c < 384 → s.rf .TEMP c 0 8 8 = 0) → t.pwr.dhot = 0)
        ∧ t.rf .PSTAT 0 0 6 0 = min 72 (max (s.rf .CAP 0 0 6 0) (t.pwr.auto + t.pwr.therm + t.pwr.dhot))
        ∧ t.rf .PSTAT 0 0 17 17 = (if 0 < t.pwr.auto + t.pwr.therm + t.pwr.dhot then 1 else 0)
        ∧ t.rn .RSEQ 0 0 = (if s.rf .PSTAT 0 0 17 17 = 0 ∧ 0 < t.pwr.auto + t.pwr.therm + t.pwr.dhot then (s.rn .RSEQ 0 0 + 1) % 2 ^ 32
            else s.rn .RSEQ 0 0)))
  ∧ (∀ (temp : Nat) (s : State), s.booted = true → s.rf .PSTAT 0 0 18 18 = 0 → s.pins.event = 0 → s.pins.cut = false →
    (s.rf .THERM 0 0 15 8 ≤ temp → ∃ t, exec (.thermalTrip false temp) s = .next t ∧ Tripped s t)
    ∧ (temp < s.rf .THERM 0 0 15 8 → exec (.thermalTrip false temp) s = .next s)
    ∧ ((∃ e ∈ s.m.hot, 16 ≤ e.2) → ∃ t, exec (.thermalTrip true temp) s = .next t ∧ Tripped s t)
    ∧ ((∀ e ∈ s.m.hot, e.2 < 16) → exec (.thermalTrip true temp) s = .next s))
  ∧ (∀ s : State, ((s.pins.event ≠ 0 ∨ s.pins.por = true) → exec .leakDetected s = .next s)
    ∧ (s.pins.event = 0 → s.pins.por = false → s.pins.cut = false → ∃ t, exec .leakDetected s = .next t ∧ Tripped s t ∧ t.pins.leakLow = true
        ∧ t.rf .PINS 0 0 31 31 = 1))
  ∧ (∀ (c : Crossing) (x : Nat) (s : State), crossingNum c = some x → (s.rf .XPHASE 0 x 8 8 = 0 → exec (.linkFailed c) s = .next s)
    ∧ (s.rf .XPHASE 0 x 8 8 = 1 → ∃ t, exec (.linkFailed c) s = .next t ∧ (∀ f, f < 16 → t.jobOk f = false)
        ∧ (∀ q ∈ s.reqs, (s.uses q none).contains x = false → q ∈ t.reqs)
        ∧ (∀ q ∈ s.reqs, (s.uses q none).contains x = true → (∀ n k, q.src ≠ .node n k) → ∃ p ∈ t.resps, p.req = q ∧ p.status = 5
            ∧ p.data = List.replicate 128 0 ∧ p.pois = List.range 32)
        ∧ NSet.has t.down x = true ∧ ∀ g, t.core g = { s.core g with phold := (t.core g).phold }))
  ∧ (∀ (k kind i : Nat) (s : State), (s.rf .XPHASE 0 0 8 8 = 0 → exec (.pllLockLoss (.cluster k)) s = .next s)
    ∧ (s.rf .XPHASE 0 0 8 8 = 1 → k < 64 → ∃ t, exec (.pllLockLoss (.cluster k)) s = .next t ∧ t.rf .PSTATE k 0 2 2 = 1 ∧ t.mem = s.mem
        ∧ (∀ g, g < 4096 → g / 64 = k → s.inSvc g = true → t.inSvc g = false ∧ t.core g = { s.core g with stop := [4, 4, 4, 4], quar := true })
        ∧ ∀ g, g < 4096 → g / 64 ≠ k → t.inSvc g = s.inSvc g ∧ t.core g = s.core g)
    ∧ (s.rf .XPHASE 0 0 8 8 = 1 → kind ≠ 0 → i < pllCount kind → ∃ t, exec (.pllLockLoss (.other kind i)) s = .next t
        ∧ t.rf .CLKSTAT 0 0 0 0 = 0 ∧ (∀ f, f < 16 → t.jobOk f = false) ∧ (∀ g, t.core g = { s.core g with phold := (t.core g).phold })
        ∧ t.mem = s.mem))

namespace Sys2Proof.Machine

/-- The controller takes message `m` now and serves its code (R473, R537, R541). -/
def Serves (s : State) (m : MgtMsg) (code : Nat) : Prop :=
  s.mgtOn = true ∧ m.code = code ∧ s.carries m = true ∧ mKnown m = true
    ∧ (code ∈ [1, 2, 3, 4, 5, 0x10, 0x40, 0x41, 0x50] ∨ s.rf .BOOT 0 0 6 6 = 1)
/-- From `u` to `t` the response to `m` leaves and nothing else happens: plain outside a session, sealed with the session's response
key under its next SEQ inside one (R473, R475, R537). -/
def Answers (u : State) (m : MgtMsg) (code : Nat) (body : List Byte) (t : State) : Prop :=
  (m.sess = 0 → t = { u with out := .mgt m.src m.mid 0 code body :: u.out })
  ∧ (m.sess ≠ 0 → ∀ e, u.sess (m.sess - 1) = some e →
      let c := Config.gcmSeal e.k2 e.tx ([BitVec.ofNat 8 code, BitVec.ofNat 8 m.sid, 0, 0] ++ body)
      t = { u with mgt := t.mgt, out := .mgt m.src m.mid m.sess 0x84 (leBytes 8 e.tx ++ c.1 ++ c.2) :: u.out }
        ∧ t.mgt = { u.mgt with sess := t.mgt.sess } ∧ t.sess (m.sess - 1) = some { e with tx := e.tx + 1 }
        ∧ ∀ n, n ≠ m.sess - 1 → t.sess n = u.sess n)
/-- The command `c` leads to the response of `Answers`, from the state in which `m` has left the inbox. -/
def Replies (c : Instr) (s u : State) (m : MgtMsg) (code : Nat) (body : List Byte) : Prop :=
  ∃ t, exec c s = .next t ∧ Answers u m code body t
/-- A byte of the SPI NOR. -/
def norByte (s : State) (a : Nat) : Byte := Sparse.get 0xFF s.mgt.nor a
/-- Session `n` ended, from `s` to `t`, and with it the image transfer it owned; the other sessions stay. -/
def Ended (s t : State) (n : Nat) : Prop :=
  t.sess n = none ∧ (∀ k, k ≠ n → t.sess k = s.sess k) ∧ ((∃ x ∈ s.mgt.xfer, x.1 = n + 1) → t.mgt.xfer = none)
    ∧ ((∀ x ∈ s.mgt.xfer, x.1 ≠ n + 1) → t.mgt.xfer = s.mgt.xfer) ∧ t.regs = s.regs ∧ t.mem = s.mem ∧ t.mgt.nor = s.mgt.nor

end Sys2Proof.Machine

/-- R470 to R475, R524, R535 to R541, R547, R550: sessions and attestation, image updates, unknown codes, fragments, neighbours, I3C addresses
and the Ethernet link. -/
def Obligations.ManagementMessages : Prop :=
  (∀ (m : MgtMsg) (s : State), Serves s m 1 → certificate.length = 9893 ∧ Replies (.getId m) s (s.taken m) m 0x81
    (leBytes 16 Config.serial.toNat ++ Config.identityKey ++ leBytes 4 9893 ++ certificate))
  ∧ (∀ (m : MgtMsg) (s : State), Serves s m 2 →
    (m.body.length ≠ 32 → Replies (.getMeas m) s (s.taken m) m 0xFF [6])
    ∧ (m.body.length = 32 → ∃ t, exec (.getMeas m) s = .next t ∧ t.mgt = { (s.taken m).mgt with signing := s.mgt.signing ++ [m] }
        ∧ t = { s with mgt := t.mgt }))
  ∧ (∀ (m : MgtMsg) (s : State), Serves s m 3 →
    (m.body.length ≠ 1216 → Replies (.keyExch m) s (s.taken m) m 0xFF [6])
    ∧ (m.body.length = 1216 → 4 ≤ s.sessUsed → Replies (.keyExch m) s (s.taken m) m 0xFF [4])
    ∧ (m.body.length = 1216 → s.sessUsed < 4 → ∃ t, exec (.keyExch m) s = .next t
        ∧ t.mgt = { (s.taken m).mgt with signing := s.mgt.signing ++ [m] } ∧ t = { s with mgt := t.mgt }))
  ∧ (∀ s : State, (s.mgt.signing = [] → exec .identitySignature s = .next s)
    ∧ (∀ m rest, s.mgt.signing = m :: rest →
      let ctr := s.rn .IDCTR 0 0
      let idx := if s.mgt.sigLeft = 0 then ctr else s.mgt.sigIdx
      (m.code = 2 → s.installing = true → exec .identitySignature s = .next s)
      ∧ ((m.code = 2 → s.installing = false) → s.mgt.sigLeft = 0 → 2 ^ 40 < ctr + 1024 →
          Replies .identitySignature s { s with mgt := { s.mgt with signing := rest } } m 0xFF [3])
      ∧ ((m.code = 2 → s.installing = false) → (s.mgt.sigLeft = 0 → ctr + 1024 ≤ 2 ^ 40) → m.sess = 0 →
          ∃ t, exec .identitySignature s = .next t ∧ t.mgt.signing = rest ∧ t.mgt.sigIdx = idx + 1 ∧ t.mem = s.mem ∧ t.cores = s.cores
            ∧ t.mgt.sigLeft = (if s.mgt.sigLeft = 0 then 1023 else s.mgt.sigLeft - 1)
            ∧ t.rn .IDCTR 0 0 = (if s.mgt.sigLeft = 0 then ctr + 1024 else ctr)
            ∧ (m.code = 2 → t.out = .mgt m.src m.mid 0 0x82
                (s.reportBytes m.body idx ++ Config.identitySign idx (s.reportBytes m.body idx)) :: s.out)
            ∧ (m.code ≠ 2 → ∀ n, n < 4 → s.sess n = none → (∀ k, k < n → (s.sess k).isSome = true) → ∃ e b,
                t.sess n = some e ∧ e.rx = 0 ∧ e.tx = 0 ∧ e.auth = false ∧ e.check = none ∧ e.peer = m.src
                ∧ (∀ k, k ≠ n → t.sess k = s.sess k) ∧ t.out = .mgt m.src m.mid 0 0x83 (BitVec.ofNat 8 n :: b) :: s.out))))
  ∧ (∀ (m : MgtMsg) (s : State), Serves s m 4 →
    let n := m.body.length
    (s.sess m.sid = none → Replies (.secure m) s (s.taken m) m 0xFF [2])
    ∧ (∀ e, s.sess m.sid = some e → (n < 24 → Replies (.secure m) s (s.taken m) m 0xFF [6])
      ∧ (24 ≤ n → leAt m.body 0 8 ≠ e.rx → ∃ u, Ended (s.taken m) u m.sid ∧ u.out = s.out ∧ Replies (.secure m) s u m 0xFF [2])
      ∧ (24 ≤ n → leAt m.body 0 8 = e.rx →
        let p := Config.gcmOpen e.k1 e.rx ((m.body.drop 8).take (n - 24)) (m.body.drop (n - 16))
        (p = none → Replies (.secure m) s (s.taken m) m 0xFF [2])
        ∧ (∀ b, p = some b → e.peer.path ≠ .doe 0 → 4 ≤ b.length → ∃ t, exec (.secure m) s = .next t
            ∧ t.mgt.inbox = { src := m.src, mid := m.mid, sess := m.sid + 1, code := leAt b 0 1, sid := leAt b 1 1, body := b.drop 4 }
                :: (s.taken m).mgt.inbox
            ∧ t.sess m.sid = some { e with rx := e.rx + 1 } ∧ t = { s with mgt := t.mgt })
        ∧ (∀ b, p = some b → e.peer.path = .doe 0 → ∃ t, exec (.secure m) s = .next t
            ∧ t.sess m.sid = some { e with rx := e.rx + 1, tx := e.tx + 1 } ∧ t.out.length = s.out.length + 1 ∧ t.mem = s.mem
            ∧ (let k := s.rf .IDESTAT 0 0 1 0 ||| (Config.ideKeys b % 4)
               t.rf .IDESTAT 0 0 1 0 = k ∧ t.rf .IDESTAT 0 0 2 2 = if k = 3 then 0 else s.rf .IDESTAT 0 0 2 2)))))
  ∧ (∀ (m : MgtMsg) (s : State), Serves s m 5 → m.sess = 0 →
    (s.sess m.sid = none → Replies (.endSession m) s (s.taken m) m 0xFF [2])
    ∧ (∀ e, s.sess m.sid = some e → ∃ t, exec (.endSession m) s = .next t ∧ Ended s t m.sid
        ∧ t.out = .mgt m.src m.mid 0 0x85 [] :: s.out))
  ∧ (∀ (m : MgtMsg) (s : State), Serves s m 6 →
    (m.sess = 0 → ∃ t, exec (.auth m) s = .next t ∧ Ended s t m.sid ∧ t.out = .mgt m.src m.mid 0 0xFF [5] :: s.out)
    ∧ (m.sess ≠ 0 → ∀ e, s.sess (m.sess - 1) = some e → ∃ t, exec (.auth m) s = .next t
        ∧ t.sess (m.sess - 1) = some { e with check := some m } ∧ t = { s with mgt := t.mgt }))
  ∧ (∀ (n : Nat) (s : State), ((∀ e, s.sess n = some e → e.check = none) → exec (.authCheckComplete n) s = .next s)
    ∧ (∀ e m, s.sess n = some e → e.check = some m → m.sess = n + 1 →
      let good := Config.xmssMtVerify s.jaKey (leBytes 32 e.hash.toNat) m.body
      (good = true → ∃ t, exec (.authCheckComplete n) s = .next t ∧ t.out.length = s.out.length + 1 ∧ t.regs = s.regs
          ∧ t.sess n = some { e with auth := true, check := none, tx := e.tx + 1 })
      ∧ (good = false → ∃ t, exec (.authCheckComplete n) s = .next t ∧ Ended s t n
          ∧ t.out = .mgt m.src m.mid 0 0xFF [5] :: s.out)))
  ∧ (∀ (m : MgtMsg) (s : State), Serves s m 0x20 →
    let k := leAt m.body 0 1
    (s.authorised m = false → Replies (.imageBegin m) s (s.taken m) m 0xFF [5])
    ∧ (s.authorised m = true →
      ((m.body.length ≠ 1 ∨ 1 < k) → Replies (.imageBegin m) s (s.taken m) m 0xFF [6])
      ∧ (m.body.length = 1 → k < 2 → (∃ x ∈ s.mgt.xfer, x.1 ≠ m.sess) → Replies (.imageBegin m) s (s.taken m) m 0xFF [4])
      ∧ (m.body.length = 1 → k < 2 → (∀ x ∈ s.mgt.xfer, x.1 = m.sess) →
        (k = s.bootedSlot → ∃ t, exec (.imageBegin m) s = .next t ∧ t.mgt.nor = s.mgt.nor ∧ t.mgt.xfer = s.mgt.xfer
          ∧ t.rn .RSEQ 0 0 = (s.rn .RSEQ 0 0 + 1) % 2 ^ 32)
        ∧ (k ≠ s.bootedSlot → ∃ t, exec (.imageBegin m) s = .next t ∧ t.mgt.xfer = some (m.sess, k, [0xFF, 0xFF, 0xFF, 0xFF])
          ∧ t.regs = s.regs ∧ ∀ a, norByte t a = if slotBase k ≤ a ∧ a < slotBase k + slotSpan k then 0xFF else norByte s a))))
  ∧ (∀ (m : MgtMsg) (s : State), Serves s m 0x21 →
    let o := leAt m.body 0 4
    let d := m.body.drop 4
    (s.authorised m = false → Replies (.imageWrite m) s (s.taken m) m 0xFF [5])
    ∧ (s.authorised m = true → s.mgt.xfer = none → Replies (.imageWrite m) s (s.taken m) m 0xA1 [1])
    ∧ (∀ own k held, s.authorised m = true → s.mgt.xfer = some (own, k, held) →
      (own ≠ m.sess → Replies (.imageWrite m) s (s.taken m) m 0xFF [4])
      ∧ (own = m.sess → (o % 256 ≠ 0 ∨ d.length = 0 ∨ 1024 < d.length) → Replies (.imageWrite m) s (s.taken m) m 0xFF [6])
      ∧ (own = m.sess → o % 256 = 0 → 0 < d.length → d.length ≤ 1024 → slotSpan k < o + d.length →
          ∃ u, Replies (.imageWrite m) s u m 0xFF [6] ∧ u.rn .RSEQ 0 0 = (s.rn .RSEQ 0 0 + 1) % 2 ^ 32 ∧ u.mgt.nor = s.mgt.nor
            ∧ u.mgt.xfer = s.mgt.xfer ∧ u.mem = s.mem ∧ u.cores = s.cores)
      ∧ (own = m.sess → o % 256 = 0 → 0 < d.length → d.length ≤ 1024 → o + d.length ≤ slotSpan k → k ≠ s.bootedSlot →
          ∃ t, exec (.imageWrite m) s = .next t ∧ t.regs = s.regs
            ∧ t.mgt.xfer = some (own, k, if o = 0 then (List.range 4).map fun i => d.getD i (held.getD i 0xFF) else held)
            ∧ ∀ a, norByte t a = if slotBase k + o ≤ a ∧ a < slotBase k + o + d.length ∧ (o = 0 → slotBase k + 4 ≤ a)
                then norByte s a &&& d.getD (a - slotBase k - o) 0 else norByte s a)))
  ∧ (∀ (m : MgtMsg) (s : State), Serves s m 0x22 →
    (s.authorised m = false → Replies (.imageEnd m) s (s.taken m) m 0xFF [5])
    ∧ (s.authorised m = true → s.mgt.xfer = none → Replies (.imageEnd m) s (s.taken m) m 0xA2 [1])
    ∧ (∀ own k held, s.authorised m = true → s.mgt.xfer = some (own, k, held) →
      (own ≠ m.sess → Replies (.imageEnd m) s (s.taken m) m 0xFF [4])
      ∧ (own = m.sess → k ≠ s.bootedSlot → ∃ t, exec (.imageEnd m) s = .next t ∧ t.mgt.xfer = none ∧ t.regs = s.regs
          ∧ ∀ a, norByte t a = if slotBase k ≤ a ∧ a < slotBase k + held.length then norByte s a &&& held.getD (a - slotBase k) 0
              else norByte s a)))
  ∧ (∀ (m : MgtMsg) (s : State), (s.mgtOn = true → s.carries m = true → mKnown m = false →
      Replies (.unknownCode m) s (s.taken m) m 0xFF [if s.rf .BOOT 0 0 6 6 = 0 then 4 else 1])
    ∧ ((s.mgtOn = false ∨ mKnown m = true ∨ s.carries m = false) → exec (.unknownCode m) s = .next s)
    ∧ (s.mgtOn = true → s.carries m = true → mKnown m = true → s.rf .BOOT 0 0 6 6 = 0 →
        (m.code = 6 → Replies (.auth m) s (s.taken m) m 0xFF [4]) ∧ (m.code = 0x30 → Replies (.jobInstall m) s (s.taken m) m 0xFF [4])))
  ∧ (∀ (src : Peer) (d : List (BitVec 8)) (s : State),
    let mid := leAt d 0 2
    let k := leAt d 2 2
    let n := leAt d 4 2
    let same := fun r : Frags => r.src.addr = src.addr ∧ r.mid = mid
    s.mgtOn = true → s.netUp = true → src.path = .eth → linkLocal src.addr = true → 8 < d.length → d.length ≤ 1032 → k < n → n ≤ 128 →
    (n = 1 → (∀ r ∈ s.mgt.frags, ¬same r) → 12 ≤ d.length → ∃ t, exec (.managementDatagram src d) s = .next t ∧ t = { s with mgt := t.mgt }
      ∧ t.mgt.inbox = s.mgt.inbox ++ [{ src := src, mid := mid, sess := 0, code := leAt d 8 1, sid := leAt d 9 1, body := d.drop 12 }])
    ∧ (1 < n → (∀ r ∈ s.mgt.frags, ¬same r) → ∃ t, exec (.managementDatagram src d) s = .next t ∧ t.mgt.inbox = s.mgt.inbox
      ∧ t.mgt.frags = s.mgt.frags ++ [{ src := src, mid := mid, nfrag := n, got := [(k, d.drop 8)] }])
    ∧ (∀ r, s.mgt.frags = [r] → same r → k ∈ r.got.map (·.1) → exec (.managementDatagram src d) s = .next s)
    ∧ (∃ t, exec (.reassemblyTimeout src mid) s = .next t ∧ t.mgt.inbox = s.mgt.inbox
      ∧ ∀ r, r ∈ t.mgt.frags ↔ r ∈ s.mgt.frags ∧ ¬same r))
  ∧ (∀ (src : Peer) (d : List (BitVec 8)) (kind : Nat) (s : State), s.mgtOn = true →
    ((s.netUp = false ∨ src.path ≠ .eth ∨ linkLocal src.addr = false) →
      exec (.managementDatagram src d) s = .next s ∧ exec (.neighbourDiscovery src kind d) s = .next s)
    ∧ (s.netUp = true → src.path = .eth → linkLocal src.addr = true →
      (d.length = 16 → leNat d.reverse = s.ownAddr → exec (.neighbourDiscovery src 135 d) s
          = .next { s with out := .net src 136 (leBytes 6 (s.rf .NET 0 0 47 0)).reverse :: s.out })
      ∧ exec (.neighbourDiscovery src 128 d) s = .next { s with out := .net src 129 d :: s.out }))
  ∧ (∀ (static dyn : Nat) (s : State), s.mgtOn = true →
    (s.mgt.i3cAddr = none → exec (.entdaa dyn) s = .next { s with mgt := { s.mgt with i3cAddr := some (dyn % 128) } })
    ∧ (s.mgt.i3cAddr = none → static = 0x20 + s.rf .PINS 0 0 28 24 →
        exec (.setdasa static dyn) s = .next { s with mgt := { s.mgt with i3cAddr := some (dyn % 128) } })
    ∧ (static ≠ 0x20 + s.rf .PINS 0 0 28 24 → exec (.setdasa static dyn) s = .next s))
  ∧ (∀ s : State, (s.pins.alive = true → s.pins.por = false → s.netUp = false → ∃ t, exec .ethernetLinkUp s = .next t
      ∧ t.rf .NET 0 0 48 48 = 1 ∧ t.rf .NET 0 0 47 0 = s.rf .NET 0 0 47 0 ∧ t.mem = s.mem ∧ t.cores = s.cores
      ∧ t.records.length = s.records.length ∧ s.out.length ≤ t.out.length)
    ∧ (∃ t, exec .ethernetLinkDown s = .next t ∧ t = { s with regs := t.regs } ∧ t.rf .NET 0 0 48 48 = 0
      ∧ t.rf .NET 0 0 47 0 = s.rf .NET 0 0 47 0))

namespace Sys2Proof.Machine

/-- The `w` bytes at offset `o` are exactly register `a`, which no sleeping core holds (R42, R477). -/
def Exactly (s : State) (o w : Nat) (a : RegAt) : Prop :=
  (w = 2 ∨ w = 4 ∨ w = 8) ∧ o % w = 0 ∧ regsIn o w = [a] ∧ a.base = o ∧ a.w = w ∧ a.i < 4096 ∧ a.j < 2 ^ 20 ∧ s.sleeps a = false
/-- Register `a` alone was written, with `v`. -/
def WroteReg (s t : State) (a : RegAt) (v : Nat) : Prop :=
  t = { s with regs := t.regs, mgt := t.mgt, out := t.out } ∧ t.rn a.r a.i a.j = v
    ∧ ∀ r i j, i < 4096 → j < 2 ^ 20 → (r, i, j) ≠ (a.r, a.i, a.j) → t.rn r i j = s.rn r i j
/-- A refusal was logged (R544) and no register but those of the record store changed. -/
def Logged (s t : State) : Prop :=
  t.rn .RSEQ 0 0 = (s.rn .RSEQ 0 0 + 1) % 2 ^ 32 ∧ t.mem = s.mem ∧ t.cores = s.cores ∧ t.queue = s.queue
    ∧ ∀ r i j, i < 4096 → j < 2 ^ 20 → r ≠ .RSEQ → r ≠ .RDROP → t.rn r i j = s.rn r i j

end Sys2Proof.Machine

/-- R12, R41, R42, R432, R433, R476, R477, R537, R539, R546 to R549: register accesses, job installs, records and telemetry. -/
def Obligations.RegistersAndRecords : Prop :=
  (∀ (off w : Nat) (v : BitVec 64) (ld : Nat) (a : RegAt) (s : State),
    (w ≠ 2 → w ≠ 4 → w ≠ 8 → exec (.registerWrite .mgmt off w v) s = .next s ∧ exec (.registerWrite (.cxl ld) off w v) s = .next s
        ∧ exec (.registerWrite (.bar ld) off w v) s = .next s)
    ∧ (Exactly s off w a →
      (a.r.jobScoped = true → ∃ t, exec (.registerWrite .mgmt off w v) s = .next t ∧ Logged s t)
      ∧ (a.r.jobScoped = false → s.reachable a = true → ∀ m, a.r.rwMask = some m → ∃ t, exec (.registerWrite .mgmt off w v) s = .next t
          ∧ WroteReg s t a (v.toNat % 2 ^ (8 * w) &&& m) ∧ t.out = s.out ∧ t.mgt = s.mgt)
      ∧ (a.r.jobScoped = false → s.reachable a = false → exec (.registerWrite .mgmt off w v) s = .next s)
      ∧ (s.hostUp ld = false ∨ cxlMay ld a = false → exec (.registerWrite (.cxl ld) off w v) s = .next s)
      ∧ (s.hostUp ld = true → cxlMay ld a = true → ∀ m, a.r.rwMask = some m → ∃ t, exec (.registerWrite (.cxl ld) off w v) s = .next t
          ∧ WroteReg s t a (v.toNat % 2 ^ (8 * w) &&& m) ∧ t.out = s.out ∧ t.mgt = s.mgt))
    ∧ ((w = 2 ∨ w = 4 ∨ w = 8) → (∀ b ∈ regsIn off w, s.sleeps b = false) → badSpan off w = true →
        ∃ t, exec (.registerWrite .mgmt off w v) s = .next t ∧ Logged s t)
    ∧ ((w = 2 ∨ w = 4 ∨ w = 8) → badSpan off w = false → regsIn off w = [] → exec (.registerWrite .mgmt off w v) s = .next s))
  ∧ (∀ (f : Nat) (v : BitVec 64) (s : State), f < 16 → s.hostUp f = true →
    let b := 0x100_0000 + f * 0x1_0000
    exec (.registerWrite (.cxl f) b 4 v) s = exec (.queueEnable f (v.setWidth 32)) s
    ∧ exec (.registerWrite (.cxl f) (b + 0x18) 4 v) s = exec (.sqDoorbell f (v.setWidth 32)) s
    ∧ exec (.registerWrite (.cxl f) (b + 0x24) 4 v) s = exec (.cqHeadWrite f (v.setWidth 32)) s
    ∧ (v.getLsbD 0 = true → exec (.registerWrite (.cxl f) (b + 0x30) 4 v) s = exec (.shakeOut f) s)
    ∧ (v.getLsbD 0 = false → exec (.registerWrite (.cxl f) (b + 0x30) 4 v) s = .next s)
    ∧ (v.getLsbD 0 = true → exec (.registerWrite (.cxl f) (b + 0x4C) 4 v) s = exec (.qclrHerr f) s)
    ∧ exec (.registerWrite (.cxl f) (b + 0x6010) 4 v) s = exec (.tbarWrite f (v.setWidth 32)) s
    ∧ exec (.registerWrite (.cxl f) (b + 0x5000) 8 v) s = .next s)
  ∧ (∀ (ld off w : Nat) (v : BitVec 64) (s : State), (w = 2 ∨ w = 4 ∨ w = 8) →
    (∀ o, barFlk ld off = some o → exec (.registerWrite (.bar ld) off w v) s = exec (.registerWrite (.cxl ld) o w v) s
      ∧ (s.barRead ld off w = s.readRegs o w (cxlMay ld)) ∧ ((∀ a ∈ regsIn o w, cxlMay ld a = false) → (s.barRead ld off w).1 = 0))
    ∧ (s.hostUp ld = true → off + w ≤ 0x1_1000 → ∃ t, exec (.registerWrite (.bar ld) off w v) s = .next t ∧ t = { s with bar := t.bar }
        ∧ (∀ i, i < w → t.barByte ld (off + i) = v.toNat / 256 ^ i % 256)
        ∧ ∀ k, (k < 2 ^ 18 * ld + off ∨ 2 ^ 18 * ld + off + w ≤ k) → Sparse.get 0 t.bar k = Sparse.get 0 s.bar k)
    ∧ (∀ vec, s.hostUp ld = true → vec < 4 → off = 0x3_0000 + 16 * vec + 12 → w = 4 →
        exec (.registerWrite (.bar ld) off w v) s = exec (.msixTableWrite ld vec (BitVec.ofNat 128
          (setFld (Sparse.get (1#128 <<< 96) s.msix (4 * ld + vec)).toNat 127 96 (v.toNat % 2 ^ 32)))) s)
    ∧ (0x1_1000 ≤ off → off + w ≤ 0x2_0000 → exec (.registerWrite (.bar ld) off w v) s = .next s ∧ (s.barRead ld off w).1 = 0))
  ∧ (∀ (m : MgtMsg) (s : State), Serves s m 0x30 →
    let nw := leAt m.body 20 4
    ((nw = 0 ∨ 4096 < nw ∨ m.body.length ≠ 32 + 16 * nw + 9893) → Replies (.jobInstall m) s (s.taken m) m 0xFF [6])
    ∧ (1 ≤ nw → nw ≤ 4096 → m.body.length = 32 + 16 * nw + 9893 → ∃ t, exec (.jobInstall m) s = .next t ∧ t = { s with mgt := t.mgt }
        ∧ t.mgt = { (s.taken m).mgt with
            installs := s.mgt.installs ++ [{ msg := m, ok := false, next := 0, applied := 0, skipped := none }] }))
  ∧ (∀ s : State, ((s.mgt.installs = [] ∨ ∃ e rest, s.mgt.installs = e :: rest ∧ e.ok = true) → exec .jobInstallVerify s = .next s)
    ∧ ((s.mgt.installs = [] ∨ ∃ e rest, s.mgt.installs = e :: rest ∧ e.ok = false) → exec .jobInstallWrite s = .next s)
    ∧ (∀ e rest, s.mgt.installs = e :: rest → e.ok = false →
      let b := e.msg.body
      let n := 32 + 16 * leAt b 20 4
      let good := Config.xmssMtVerify s.jaKey (([BitVec.ofNat 8 e.msg.code, BitVec.ofNat 8 e.msg.sid, 0, 0] ++ b).take (4 + n)) (b.drop n) = true
        ∧ leAt b 0 16 = Config.serial.toNat ∧ leAt b 16 4 = s.rn .BOOTNUM 0 0 ∧ s.rn .JSEQ 0 0 < leAt b 24 8
      (good → ∃ t, exec .jobInstallVerify s = .next t ∧ t.rn .JSEQ 0 0 = leAt b 24 8 ∧ t.mgt.installs = { e with ok := true } :: rest
        ∧ t.out = s.out ∧ t.mem = s.mem ∧ ∀ r i j, i < 4096 → j < 2 ^ 20 → r ≠ .JSEQ → t.rn r i j = s.rn r i j)
      ∧ (¬good → ∃ t, exec .jobInstallVerify s = .next t ∧ Logged s t ∧ t.mgt.installs = rest ∧ (e.msg.sess = 0 →
          t.out.head? = some (.mgt e.msg.src e.msg.mid 0 (e.msg.code + 0x80) (leBytes 4 e.applied ++ leBytes 4 0))))))
  ∧ (∀ (s : State) (e : Install) (rest : List Install) (a : RegAt), s.mgt.installs = e :: rest → e.ok = true →
    let b := e.msg.body
    let k := 32 + 16 * e.next
    let nw := leAt b 20 4
    let v := leAt b (k + 8) 8
    Exactly s (leAt b k 4) (leAt b (k + 4) 4) a →
    (∀ m, a.r.jobScoped = true → a.r.rwMask = some m → ∃ t, exec .jobInstallWrite s = .next t ∧ WroteReg s t a (v % 2 ^ (8 * a.w) &&& m)
        ∧ (e.next + 1 < nw → t.mgt.installs = { e with next := e.next + 1, applied := e.applied + 1 } :: rest ∧ t.out = s.out)
        ∧ (nw ≤ e.next + 1 → t.mgt.installs = rest ∧ (e.msg.sess = 0 → t.out = .mgt e.msg.src e.msg.mid 0 (e.msg.code + 0x80)
            (leBytes 4 (e.applied + 1) ++ leBytes 4 (e.skipped.getD nw)) :: s.out)))
    ∧ (a.r.jobScoped = false → ∃ t, exec .jobInstallWrite s = .next t ∧ Logged s t
        ∧ (e.next + 1 < nw → t.mgt.installs = { e with next := e.next + 1, skipped := some (e.skipped.getD e.next) } :: rest)
        ∧ (nw ≤ e.next + 1 → t.mgt.installs = rest ∧ (e.msg.sess = 0 → t.out.head? = some (.mgt e.msg.src e.msg.mid 0 (e.msg.code + 0x80)
            (leBytes 4 e.applied ++ leBytes 4 (e.skipped.getD e.next)))))))
  ∧ (∀ (m : MgtMsg) (s : State), Serves s m 0x10 →
    let o := leAt m.body 0 4
    let w := leAt m.body 4 1
    ((∃ a ∈ regsIn o w, s.sleeps a = true) → exec (.regRead m) s = .next s)
    ∧ ((∀ a ∈ regsIn o w, s.sleeps a = false) →
      ((m.body.length ≠ 5 ∨ (w ≠ 2 ∧ w ≠ 4 ∧ w ≠ 8)) → Replies (.regRead m) s (s.taken m) m 0xFF [6])
      ∧ (m.body.length = 5 → (w = 2 ∨ w = 4 ∨ w = 8) → badSpan o w = true → Replies (.regRead m) s (s.taken m) m 0x90 [4, 0, 0, 0, 0, 0, 0, 0, 0])
      ∧ (m.body.length = 5 → (w = 2 ∨ w = 4 ∨ w = 8) → badSpan o w = false → regsIn o w = [] →
          Replies (.regRead m) s (s.taken m) m 0x90 [2, 0, 0, 0, 0, 0, 0, 0, 0])
      ∧ (∀ a, m.body.length = 5 → Exactly s o w a → s.reachable a = true →
          a.r ∉ [.SERIAL, .SESS, .PATHDR, .PATSEC, .LSCORR, .CCCORR, .GSTEP, .QSTAT, .MXSTAT, .ISTAT, .GSTARVE] →
          Replies (.regRead m) s (s.taken m) m 0x90 (0 :: leBytes 8 (if a.r.wo = true then 0 else s.rn a.r a.i a.j)))))
  ∧ (∀ (m : MgtMsg) (s : State), Serves s m 0x11 →
    let o := leAt m.body 0 4
    let w := leAt m.body 4 1
    let v := leAt m.body 5 8
    (∀ a ∈ regsIn o w, s.sleeps a = false) →
    (s.authorised m = false → Replies (.regWrite m) s (s.taken m) m 0xFF [5])
    ∧ (s.authorised m = true → (m.body.length ≠ 13 ∨ (w ≠ 2 ∧ w ≠ 4 ∧ w ≠ 8)) → Replies (.regWrite m) s (s.taken m) m 0xFF [6])
    ∧ (s.authorised m = true → m.body.length = 13 → (w = 2 ∨ w = 4 ∨ w = 8) → badSpan o w = false → regsIn o w = [] →
        Replies (.regWrite m) s (s.taken m) m 0x91 [2])
    ∧ (∀ a, s.authorised m = true → m.body.length = 13 → Exactly s o w a →
        (a.r.jobScoped = true → ∃ u, Logged s u ∧ Replies (.regWrite m) s u m 0x91 [3])
        ∧ (a.r.jobScoped = false → s.reachable a = true → ∀ k, a.r.rwMask = some k → ∃ u, WroteReg s u a (v % 2 ^ (8 * w) &&& k)
            ∧ Replies (.regWrite m) s u m 0x91 [0])))
  ∧ (∀ (m : MgtMsg) (s : State), Serves s m 0x40 →
    let n := leAt m.body 4 1
    let rs := (s.records.filter fun r => leAt m.body 0 4 ≤ r.rseq).take n
    ((m.body.length ≠ 5 ∨ n = 0 ∨ 16 < n) → Replies (.recGet m) s (s.taken m) m 0xFF [6])
    ∧ (m.body.length = 5 → 1 ≤ n → n ≤ 16 → (∀ r ∈ rs, (Record.bytes r).length = 64)
      ∧ (m.src.path ≠ .i3c → Replies (.recGet m) s (s.taken m) m 0xC0 (rs.map Record.bytes).flatten)
      ∧ (m.src.path = .i3c → ∃ u, Replies (.recGet m) s u m 0xC0 (rs.map Record.bytes).flatten ∧ u = { s.taken m with records := u.records }
          ∧ u.records = s.records.map fun r => if r ∈ rs then { r with i3c := true } else r)))
  ∧ (∀ (m : MgtMsg) (s : State), Serves s m 0x41 →
    let u := leAt m.body 0 4
    (m.body.length ≠ 4 → Replies (.recAck m) s (s.taken m) m 0xFF [6])
    ∧ (m.body.length = 4 → u < s.rn .RACK 0 0 → Replies (.recAck m) s (s.taken m) m 0xC1 [0])
    ∧ (m.body.length = 4 → s.rn .RACK 0 0 ≤ u → ∃ z, Replies (.recAck m) s z m 0xC1 [0] ∧ z.rn .RACK 0 0 = u ∧ z.mem = s.mem
        ∧ z.out = s.out ∧ z.records = s.records.map fun r => if r.rseq ≤ u then { r with acked := true } else r))
  ∧ (∀ (m : MgtMsg) (s : State), Serves s m 0x50 → s.telemetry.length = 128 ∧ Replies (.telem m) s (s.taken m) m 0xD0 s.telemetry)
  ∧ (∀ s : State,
    (s.mgtOn = true → s.netUp = true → s.rf .TELEM 0 0 7 0 ≠ 0 → exec .telemetrySend s = .next { s with out := .telem s.telemetry :: s.out })
    ∧ ((s.mgtOn = false ∨ s.netUp = false ∨ s.rf .TELEM 0 0 7 0 = 0) → exec .telemetrySend s = .next s)
    ∧ (s.netUp = false → exec .fatalRecordResend s = .next s)
    ∧ (let due := fun r : Record => r.cls = 4 ∧ r.acked = false ∧ 1 ≤ r.sent ∧ r.sent < 16
       s.netUp = true → ∃ t, exec .fatalRecordResend s = .next t ∧ t.mem = s.mem ∧ t.regs = s.regs
        ∧ (∀ (i : Nat) (r : Record), s.records[i]? = some r → (due r → t.records[i]? = some { r with sent := r.sent + 1 } ∧ .record r.rseq ∈ t.out)
            ∧ (¬due r → t.records[i]? = some r))
        ∧ ∀ o, o ∈ t.out → o ∈ s.out ∨ ∃ r ∈ s.records, due r ∧ o = .record r.rseq))
  ∧ (∀ s : State, (∃ t, exec .errClrRdrop s = .next t ∧ t = { s with regs := t.regs } ∧ t.rn .RDROP 0 0 = 0
      ∧ ∀ r i j, i < 4096 → j < 2 ^ 20 → r ≠ .RDROP → t.rn r i j = s.rn r i j)
    ∧ (∃ t, exec .errClrCc s = .next t ∧ t = { s with regs := t.regs } ∧ (∀ g, t.rn .CCCORR g 0 = 0)
      ∧ ∀ r i j, r ≠ .CCCORR → t.rn r i j = s.rn r i j)
    ∧ (∃ t, exec .errClrLs s = .next t ∧ t = { s with regs := t.regs } ∧ (∀ g, t.rn .LSCORR g 0 = 0)
      ∧ ∀ r i j, r ≠ .LSCORR → t.rn r i j = s.rn r i j))

namespace Sys2Proof.Machine

/-- What every step keeps: memory in its canonical form, and sixteen fabric ports (R319). -/
structure Inv (s : State) : Prop where
  mem : Memory.wf s.mem
  ports : s.fab.ports.length = 16

end Sys2Proof.Machine

/-- A step executes the command at the front of the queue with the rest; with no command one ac passes (the model's choice, log
entry 6), in which R487's, R497's and R542's counters count. -/
def Obligations.StepTakesTheFront : Prop :=
  (∀ (c : Instr) (rest : List Instr) (s : State), s.pending = c :: rest → step s = exec c { s with pending := rest })
  ∧ (∀ s : State, s.pending = [] →
    ((s.pins.alive = false ∨ s.pins.por = true) → step s = .next s)
    ∧ (s.pins.alive = true → s.pins.por = false → ∃ t, step s = .next t ∧ t.acnt = s.acnt + 1 ∧ t.pending = [] ∧ t.mem = s.mem ∧ t.pois = s.pois
        ∧ t.out = s.out ∧ t.reqs = s.reqs ∧ (s.powered = true → ∀ k, k < 64 →
          (s.clu k ≠ 0 ∨ s.clocked = false ∨ Sparse.get 0 s.pwr.lock k ≠ 0 →
            t.rn .FCNT k 0 = s.rn .FCNT k 0 ∧ t.rn .SKIP k 0 = s.rn .SKIP k 0)
          ∧ (s.clu k = 0 → s.clocked = true → Sparse.get 0 t.pwr.lock k = Sparse.get 0 s.pwr.lock k - 1)
          ∧ (s.clu k = 0 → s.clocked = true → Sparse.get 0 s.pwr.lock k = 0 → s.rf .PSTAT 0 0 6 0 ≤ 144 → t.rn .FCNT k 0 = (s.rn .FCNT k 0 + (144 - s.rf .PSTAT 0 0 6 0)) % 2 ^ 64
              ∧ t.rn .SKIP k 0 = (s.rn .SKIP k 0 + s.rf .PSTAT 0 0 6 0) % 2 ^ 64))))

/-- The state after power-on reset: every register at the value its map gives, no core running, no session, record or job. -/
def Obligations.ResetState : Prop :=
  (∀ (r : Reg) (i j : Nat), r ∉ [.LNKCTL, .QMAP, .IDLE, .LIMIT, .THERM, .CAUSE, .ERRCTL] → State.reset.rn r i j = 0)
  ∧ (∀ p, State.reset.rn .LNKCTL p 0 = 1) ∧ (∀ k, State.reset.rn .QMAP 0 k = 2 ^ 64 - 1) ∧ State.reset.rn .IDLE 0 0 = 0x03E8_4010
  ∧ State.reset.rn .LIMIT 0 0 = 0xA8C ∧ State.reset.rn .THERM 0 0 = 0x6E5F ∧ State.reset.rn .CAUSE 0 0 = 1
  ∧ State.reset.rn .ERRCTL 0 0 = 0x100
  ∧ (∀ g, State.reset.core g = Core.init ∧ State.reset.mxStat g = 0) ∧ State.reset.records = [] ∧ (∀ n, State.reset.sess n = none) ∧ State.reset.acnt = 0
  ∧ (∀ f, State.reset.jobOk f = false) ∧ State.reset.pending = [] ∧ State.reset.pins.por = true ∧ Inv State.reset

/-- Every step of every state answers a next state, takes exactly the front of the queue, and keeps the invariant: memory stays in its
canonical form and the fabric keeps its sixteen ports. -/
def Obligations.StepKeepsInvariant : Prop :=
  ∀ s : State, ∃ t, step s = .next t ∧ t.pending = s.pending.tail ∧ (Inv s → Inv t)
end

