-- ==== Sys2Proof/Laws/Sparse.lean ====
section
/-! SUPPORT. Laws of the finite maps and sets the state is built of: read after write, and the canonical form. -/

namespace Sys2Proof.Machine

variable {α : Type}

@[simp] theorem Sparse.get_nil (d : α) (i : Nat) : Sparse.get d ([] : Sparse α) i = d := rfl

@[simp] theorem Sparse.get_cons (d : α) (k : Nat) (v : α) (m : Sparse α) (i : Nat) :
    Sparse.get d ((k, v) :: m) i = if k = i then v else Sparse.get d m i := rfl

theorem Sparse.get_erase_same (d : α) (m : Sparse α) (i : Nat) : Sparse.get d (Sparse.erase m i) i = d := by
  induction m with
  | nil => rfl
  | cons e m ih =>
    obtain ⟨k, v⟩ := e
    by_cases h : k = i <;> simp_all [Sparse.erase]

theorem Sparse.get_erase_other (d : α) (m : Sparse α) {i k : Nat} (h : k ≠ i) :
    Sparse.get d (Sparse.erase m i) k = Sparse.get d m k := by
  induction m with
  | nil => rfl
  | cons e m ih =>
    obtain ⟨j, v⟩ := e
    by_cases hj : j = i
    · subst hj; simp_all [Sparse.erase, Ne.symm h]
    · simp_all [Sparse.erase]

theorem Sparse.get_insert_other (d : α) (m : Sparse α) {i k : Nat} (v : α) (h : k ≠ i) :
    Sparse.get d (Sparse.insert i v m) k = Sparse.get d m k := by
  induction m with
  | nil => simp [Sparse.insert, Ne.symm h]
  | cons e m ih =>
    obtain ⟨j, w⟩ := e
    simp only [Sparse.insert]
    split <;> simp_all [Ne.symm h]

theorem Sparse.get_insert_same (d : α) (m : Sparse α) (i : Nat) (v : α) (h : ∀ e ∈ m, e.1 ≠ i) :
    Sparse.get d (Sparse.insert i v m) i = v := by
  induction m with
  | nil => simp [Sparse.insert]
  | cons e m ih =>
    obtain ⟨j, w⟩ := e
    have hj : j ≠ i := h (j, w) (by simp)
    simp only [Sparse.insert]
    split
    · simp
    · simp [hj, ih fun e he => h e (by simp [he])]

theorem Sparse.erase_no_key (m : Sparse α) (i : Nat) : ∀ e ∈ Sparse.erase m i, e.1 ≠ i := by
  intro e he; simp only [Sparse.erase, List.mem_filter, bne_iff_ne] at he; exact he.2

/-- A read of the key just written gives the value written. -/
@[simp] theorem Sparse.get_set_same [DecidableEq α] (d : α) (m : Sparse α) (i : Nat) (v : α) :
    Sparse.get d (Sparse.set d m i v) i = v := by
  unfold Sparse.set
  split
  · simp_all [Sparse.get_erase_same]
  · exact Sparse.get_insert_same d _ i v (Sparse.erase_no_key m i)

/-- A write leaves every other key alone, whatever the reader takes for unlisted keys. -/
theorem Sparse.get_set_other [DecidableEq α] (d d' : α) (m : Sparse α) {i k : Nat} (v : α) (h : k ≠ i) :
    Sparse.get d (Sparse.set d' m i v) k = Sparse.get d m k := by
  unfold Sparse.set
  split
  · exact Sparse.get_erase_other d m h
  · rw [Sparse.get_insert_other d _ v h, Sparse.get_erase_other d m h]

/-! ### The canonical form -/

theorem Sparse.mem_insert (i : Nat) (v : α) (m : Sparse α) (e : Nat × α) :
    e ∈ Sparse.insert i v m ↔ e = (i, v) ∨ e ∈ m := by
  induction m with
  | nil => simp [Sparse.insert]
  | cons a m ih =>
    simp only [Sparse.insert]
    split
    · simp
    · simp only [List.mem_cons, ih]
      tauto

theorem Sparse.insert_sorted (i : Nat) (v : α) (m : Sparse α) (h : (m.map Prod.fst).Pairwise (· < ·))
    (hi : ∀ e ∈ m, e.1 ≠ i) : ((Sparse.insert i v m).map Prod.fst).Pairwise (· < ·) := by
  induction m with
  | nil => simp [Sparse.insert]
  | cons a m ih =>
    obtain ⟨k, w⟩ := a
    simp only [List.map_cons, List.pairwise_cons] at h
    have hk : k ≠ i := hi (k, w) (by simp)
    simp only [Sparse.insert]
    split
    · next hlt =>
      simp only [List.map_cons, List.pairwise_cons, List.mem_cons]
      refine ⟨?_, h⟩
      rintro b (rfl | hb)
      · exact hlt
      · exact Nat.lt_trans hlt (h.1 b hb)
    · next hge =>
      simp only [List.map_cons, List.pairwise_cons]
      refine ⟨?_, ih h.2 fun e he => hi e (by simp [he])⟩
      intro b hb
      obtain ⟨e, he, rfl⟩ := List.mem_map.1 hb
      rcases (Sparse.mem_insert i v m e).1 he with rfl | he
      · simp; omega
      · exact h.1 _ (List.mem_map.2 ⟨e, he, rfl⟩)

theorem Sparse.wf_nil [DecidableEq α] (d : α) : Sparse.wf d ([] : Sparse α) := by simp [Sparse.wf]

/-- Leaving entries out keeps the canonical form. -/
theorem Sparse.wf_filter [DecidableEq α] {d : α} {m : Sparse α} (h : Sparse.wf d m) (p : Nat × α → Bool) :
    Sparse.wf d (m.filter p) :=
  ⟨h.1.sublist (List.filter_sublist.map Prod.fst), fun e he => h.2 e (List.mem_of_mem_filter he)⟩

/-- A write keeps the canonical form. -/
theorem Sparse.wf_set [DecidableEq α] {d : α} {m : Sparse α} (h : Sparse.wf d m) (i : Nat) (v : α) :
    Sparse.wf d (Sparse.set d m i v) := by
  unfold Sparse.set
  split
  · exact Sparse.wf_filter h _
  · next hv =>
    have he := Sparse.wf_filter h fun e => e.1 != i
    refine ⟨Sparse.insert_sorted i v _ he.1 (Sparse.erase_no_key m i), ?_⟩
    intro e hm
    rcases (Sparse.mem_insert i v _ e).1 hm with rfl | hm
    · exact hv
    · exact he.2 e hm

/-! ### Sorted sets -/

theorem NSet.mem_add (i : Nat) (s : List Nat) (k : Nat) : k ∈ NSet.add i s ↔ k = i ∨ k ∈ s := by
  induction s with
  | nil => simp [NSet.add]
  | cons a s ih =>
    simp only [NSet.add]
    split
    · simp
    · split
      · next h => subst h; simp
      · simp only [List.mem_cons, ih]; tauto

@[simp] theorem NSet.has_add (i k : Nat) (s : List Nat) : NSet.has (NSet.add i s) k = (k == i || NSet.has s k) := by
  by_cases h : k = i ∨ k ∈ s
  · have := (NSet.mem_add i s k).2 h
    rcases h with rfl | h <;> simp_all [NSet.has]
  · have h' : k ∉ NSet.add i s := fun c => h ((NSet.mem_add i s k).1 c)
    simp only [not_or] at h
    simp_all [NSet.has]

@[simp] theorem NSet.has_del (i k : Nat) (s : List Nat) : NSet.has (NSet.del s i) k = (k != i && NSet.has s k) := by
  simp only [NSet.has, NSet.del]
  by_cases h : k = i <;> by_cases hk : k ∈ s <;> simp_all

/-- Adding a member keeps a set sorted. -/
theorem NSet.sorted_add (i : Nat) (s : List Nat) (h : s.Pairwise (· < ·)) : (NSet.add i s).Pairwise (· < ·) := by
  induction s with
  | nil => simp [NSet.add]
  | cons a s ih =>
    simp only [List.pairwise_cons] at h
    simp only [NSet.add]
    split
    · next hlt =>
      simp only [List.pairwise_cons, List.mem_cons]
      refine ⟨?_, h⟩
      rintro b (rfl | hb)
      · exact hlt
      · exact Nat.lt_trans hlt (h.1 b hb)
    · split
      · simp only [List.pairwise_cons]; exact h
      · simp only [List.pairwise_cons]
        refine ⟨?_, ih h.2⟩
        intro b hb
        rcases (NSet.mem_add i s b).1 hb with rfl | hb
        · omega
        · exact h.1 b hb

end Sys2Proof.Machine
end

