-- ==== Sys2Proof/Laws/State.lean ====
section
/-! SUPPORT. Laws of the state: what each named update leaves alone, and what is read after it. -/

namespace Sys2Proof.Machine

@[simp] theorem State.wr_pending (s : State) (r : Reg) (i j : Nat) (v : Word64) : (s.wr r i j v).pending = s.pending := rfl
@[simp] theorem State.wr_mem (s : State) (r : Reg) (i j : Nat) (v : Word64) : (s.wr r i j v).mem = s.mem := rfl
@[simp] theorem State.wr_pois (s : State) (r : Reg) (i j : Nat) (v : Word64) : (s.wr r i j v).pois = s.pois := rfl
@[simp] theorem State.wr_pat (s : State) (r : Reg) (i j : Nat) (v : Word64) : (s.wr r i j v).pat = s.pat := rfl
@[simp] theorem State.wr_cores (s : State) (r : Reg) (i j : Nat) (v : Word64) : (s.wr r i j v).cores = s.cores := rfl
@[simp] theorem State.wr_m (s : State) (r : Reg) (i j : Nat) (v : Word64) : (s.wr r i j v).m = s.m := rfl
@[simp] theorem State.wr_fab (s : State) (r : Reg) (i j : Nat) (v : Word64) : (s.wr r i j v).fab = s.fab := rfl
@[simp] theorem State.wr_reqs (s : State) (r : Reg) (i j : Nat) (v : Word64) : (s.wr r i j v).reqs = s.reqs := rfl
@[simp] theorem State.wr_resps (s : State) (r : Reg) (i j : Nat) (v : Word64) : (s.wr r i j v).resps = s.resps := rfl
@[simp] theorem State.wr_notices (s : State) (r : Reg) (i j : Nat) (v : Word64) : (s.wr r i j v).notices = s.notices := rfl
@[simp] theorem State.wr_records (s : State) (r : Reg) (i j : Nat) (v : Word64) : (s.wr r i j v).records = s.records := rfl
@[simp] theorem State.wr_ldlog (s : State) (r : Reg) (i j : Nat) (v : Word64) : (s.wr r i j v).ldlog = s.ldlog := rfl
@[simp] theorem State.wr_msix (s : State) (r : Reg) (i j : Nat) (v : Word64) : (s.wr r i j v).msix = s.msix := rfl
@[simp] theorem State.wr_msixEn (s : State) (r : Reg) (i j : Nat) (v : Word64) : (s.wr r i j v).msixEn = s.msixEn := rfl
@[simp] theorem State.wr_pba (s : State) (r : Reg) (i j : Nat) (v : Word64) : (s.wr r i j v).pba = s.pba := rfl
@[simp] theorem State.wr_policy (s : State) (r : Reg) (i j : Nat) (v : Word64) : (s.wr r i j v).policy = s.policy := rfl
@[simp] theorem State.wr_cfg (s : State) (r : Reg) (i j : Nat) (v : Word64) : (s.wr r i j v).cfg = s.cfg := rfl
@[simp] theorem State.wr_bar (s : State) (r : Reg) (i j : Nat) (v : Word64) : (s.wr r i j v).bar = s.bar := rfl
@[simp] theorem State.wr_cxlHeld (s : State) (r : Reg) (i j : Nat) (v : Word64) : (s.wr r i j v).cxlHeld = s.cxlHeld := rfl
@[simp] theorem State.wr_out (s : State) (r : Reg) (i j : Nat) (v : Word64) : (s.wr r i j v).out = s.out := rfl
@[simp] theorem State.wr_nextId (s : State) (r : Reg) (i j : Nat) (v : Word64) : (s.wr r i j v).nextId = s.nextId := rfl
@[simp] theorem State.wr_down (s : State) (r : Reg) (i j : Nat) (v : Word64) : (s.wr r i j v).down = s.down := rfl
@[simp] theorem State.wr_freeCtr (s : State) (r : Reg) (i j : Nat) (v : Word64) : (s.wr r i j v).freeCtr = s.freeCtr := rfl
@[simp] theorem State.wr_acnt (s : State) (r : Reg) (i j : Nat) (v : Word64) : (s.wr r i j v).acnt = s.acnt := rfl
@[simp] theorem State.wr_ladle (s : State) (r : Reg) (i j : Nat) (v : Word64) : (s.wr r i j v).ladle = s.ladle := rfl
@[simp] theorem State.wr_runner (s : State) (r : Reg) (i j : Nat) (v : Word64) : (s.wr r i j v).runner = s.runner := rfl
@[simp] theorem State.wr_vote (s : State) (r : Reg) (i j : Nat) (v : Word64) : (s.wr r i j v).vote = s.vote := rfl
@[simp] theorem State.wr_queue (s : State) (r : Reg) (i j : Nat) (v : Word64) : (s.wr r i j v).queue = s.queue := rfl
@[simp] theorem State.wr_saved (s : State) (r : Reg) (i j : Nat) (v : Word64) : (s.wr r i j v).saved = s.saved := rfl
@[simp] theorem State.wr_quarDue (s : State) (r : Reg) (i j : Nat) (v : Word64) : (s.wr r i j v).quarDue = s.quarDue := rfl
@[simp] theorem State.wr_stby (s : State) (r : Reg) (i j : Nat) (v : Word64) : (s.wr r i j v).stby = s.stby := rfl
@[simp] theorem State.wr_pins (s : State) (r : Reg) (i j : Nat) (v : Word64) : (s.wr r i j v).pins = s.pins := rfl
@[simp] theorem State.wr_mgt (s : State) (r : Reg) (i j : Nat) (v : Word64) : (s.wr r i j v).mgt = s.mgt := rfl
@[simp] theorem State.wr_pwr (s : State) (r : Reg) (i j : Nat) (v : Word64) : (s.wr r i j v).pwr = s.pwr := rfl

@[simp] theorem State.wn_pending (s : State) (r : Reg) (i j v : Nat) : (s.wn r i j v).pending = s.pending := rfl
@[simp] theorem State.wn_mem (s : State) (r : Reg) (i j v : Nat) : (s.wn r i j v).mem = s.mem := rfl
@[simp] theorem State.wn_pois (s : State) (r : Reg) (i j v : Nat) : (s.wn r i j v).pois = s.pois := rfl
@[simp] theorem State.wn_pat (s : State) (r : Reg) (i j v : Nat) : (s.wn r i j v).pat = s.pat := rfl
@[simp] theorem State.wn_cores (s : State) (r : Reg) (i j v : Nat) : (s.wn r i j v).cores = s.cores := rfl
@[simp] theorem State.wn_m (s : State) (r : Reg) (i j v : Nat) : (s.wn r i j v).m = s.m := rfl
@[simp] theorem State.wn_fab (s : State) (r : Reg) (i j v : Nat) : (s.wn r i j v).fab = s.fab := rfl
@[simp] theorem State.wn_reqs (s : State) (r : Reg) (i j v : Nat) : (s.wn r i j v).reqs = s.reqs := rfl
@[simp] theorem State.wn_resps (s : State) (r : Reg) (i j v : Nat) : (s.wn r i j v).resps = s.resps := rfl
@[simp] theorem State.wn_notices (s : State) (r : Reg) (i j v : Nat) : (s.wn r i j v).notices = s.notices := rfl
@[simp] theorem State.wn_records (s : State) (r : Reg) (i j v : Nat) : (s.wn r i j v).records = s.records := rfl
@[simp] theorem State.wn_ldlog (s : State) (r : Reg) (i j v : Nat) : (s.wn r i j v).ldlog = s.ldlog := rfl
@[simp] theorem State.wn_msix (s : State) (r : Reg) (i j v : Nat) : (s.wn r i j v).msix = s.msix := rfl
@[simp] theorem State.wn_msixEn (s : State) (r : Reg) (i j v : Nat) : (s.wn r i j v).msixEn = s.msixEn := rfl
@[simp] theorem State.wn_pba (s : State) (r : Reg) (i j v : Nat) : (s.wn r i j v).pba = s.pba := rfl
@[simp] theorem State.wn_policy (s : State) (r : Reg) (i j v : Nat) : (s.wn r i j v).policy = s.policy := rfl
@[simp] theorem State.wn_cfg (s : State) (r : Reg) (i j v : Nat) : (s.wn r i j v).cfg = s.cfg := rfl
@[simp] theorem State.wn_bar (s : State) (r : Reg) (i j v : Nat) : (s.wn r i j v).bar = s.bar := rfl
@[simp] theorem State.wn_cxlHeld (s : State) (r : Reg) (i j v : Nat) : (s.wn r i j v).cxlHeld = s.cxlHeld := rfl
@[simp] theorem State.wn_out (s : State) (r : Reg) (i j v : Nat) : (s.wn r i j v).out = s.out := rfl
@[simp] theorem State.wn_nextId (s : State) (r : Reg) (i j v : Nat) : (s.wn r i j v).nextId = s.nextId := rfl
@[simp] theorem State.wn_down (s : State) (r : Reg) (i j v : Nat) : (s.wn r i j v).down = s.down := rfl
@[simp] theorem State.wn_freeCtr (s : State) (r : Reg) (i j v : Nat) : (s.wn r i j v).freeCtr = s.freeCtr := rfl
@[simp] theorem State.wn_acnt (s : State) (r : Reg) (i j v : Nat) : (s.wn r i j v).acnt = s.acnt := rfl
@[simp] theorem State.wn_ladle (s : State) (r : Reg) (i j v : Nat) : (s.wn r i j v).ladle = s.ladle := rfl
@[simp] theorem State.wn_runner (s : State) (r : Reg) (i j v : Nat) : (s.wn r i j v).runner = s.runner := rfl
@[simp] theorem State.wn_vote (s : State) (r : Reg) (i j v : Nat) : (s.wn r i j v).vote = s.vote := rfl
@[simp] theorem State.wn_queue (s : State) (r : Reg) (i j v : Nat) : (s.wn r i j v).queue = s.queue := rfl
@[simp] theorem State.wn_saved (s : State) (r : Reg) (i j v : Nat) : (s.wn r i j v).saved = s.saved := rfl
@[simp] theorem State.wn_quarDue (s : State) (r : Reg) (i j v : Nat) : (s.wn r i j v).quarDue = s.quarDue := rfl
@[simp] theorem State.wn_stby (s : State) (r : Reg) (i j v : Nat) : (s.wn r i j v).stby = s.stby := rfl
@[simp] theorem State.wn_pins (s : State) (r : Reg) (i j v : Nat) : (s.wn r i j v).pins = s.pins := rfl
@[simp] theorem State.wn_mgt (s : State) (r : Reg) (i j v : Nat) : (s.wn r i j v).mgt = s.mgt := rfl
@[simp] theorem State.wn_pwr (s : State) (r : Reg) (i j v : Nat) : (s.wn r i j v).pwr = s.pwr := rfl

@[simp] theorem State.wf_pending (s : State) (r : Reg) (i j hi lo v : Nat) : (s.wf r i j hi lo v).pending = s.pending := rfl
@[simp] theorem State.wf_mem (s : State) (r : Reg) (i j hi lo v : Nat) : (s.wf r i j hi lo v).mem = s.mem := rfl
@[simp] theorem State.wf_pois (s : State) (r : Reg) (i j hi lo v : Nat) : (s.wf r i j hi lo v).pois = s.pois := rfl
@[simp] theorem State.wf_pat (s : State) (r : Reg) (i j hi lo v : Nat) : (s.wf r i j hi lo v).pat = s.pat := rfl
@[simp] theorem State.wf_cores (s : State) (r : Reg) (i j hi lo v : Nat) : (s.wf r i j hi lo v).cores = s.cores := rfl
@[simp] theorem State.wf_m (s : State) (r : Reg) (i j hi lo v : Nat) : (s.wf r i j hi lo v).m = s.m := rfl
@[simp] theorem State.wf_fab (s : State) (r : Reg) (i j hi lo v : Nat) : (s.wf r i j hi lo v).fab = s.fab := rfl
@[simp] theorem State.wf_reqs (s : State) (r : Reg) (i j hi lo v : Nat) : (s.wf r i j hi lo v).reqs = s.reqs := rfl
@[simp] theorem State.wf_resps (s : State) (r : Reg) (i j hi lo v : Nat) : (s.wf r i j hi lo v).resps = s.resps := rfl
@[simp] theorem State.wf_notices (s : State) (r : Reg) (i j hi lo v : Nat) : (s.wf r i j hi lo v).notices = s.notices := rfl
@[simp] theorem State.wf_records (s : State) (r : Reg) (i j hi lo v : Nat) : (s.wf r i j hi lo v).records = s.records := rfl
@[simp] theorem State.wf_ldlog (s : State) (r : Reg) (i j hi lo v : Nat) : (s.wf r i j hi lo v).ldlog = s.ldlog := rfl
@[simp] theorem State.wf_msix (s : State) (r : Reg) (i j hi lo v : Nat) : (s.wf r i j hi lo v).msix = s.msix := rfl
@[simp] theorem State.wf_msixEn (s : State) (r : Reg) (i j hi lo v : Nat) : (s.wf r i j hi lo v).msixEn = s.msixEn := rfl
@[simp] theorem State.wf_pba (s : State) (r : Reg) (i j hi lo v : Nat) : (s.wf r i j hi lo v).pba = s.pba := rfl
@[simp] theorem State.wf_policy (s : State) (r : Reg) (i j hi lo v : Nat) : (s.wf r i j hi lo v).policy = s.policy := rfl
@[simp] theorem State.wf_cfg (s : State) (r : Reg) (i j hi lo v : Nat) : (s.wf r i j hi lo v).cfg = s.cfg := rfl
@[simp] theorem State.wf_bar (s : State) (r : Reg) (i j hi lo v : Nat) : (s.wf r i j hi lo v).bar = s.bar := rfl
@[simp] theorem State.wf_cxlHeld (s : State) (r : Reg) (i j hi lo v : Nat) : (s.wf r i j hi lo v).cxlHeld = s.cxlHeld := rfl
@[simp] theorem State.wf_out (s : State) (r : Reg) (i j hi lo v : Nat) : (s.wf r i j hi lo v).out = s.out := rfl
@[simp] theorem State.wf_nextId (s : State) (r : Reg) (i j hi lo v : Nat) : (s.wf r i j hi lo v).nextId = s.nextId := rfl
@[simp] theorem State.wf_down (s : State) (r : Reg) (i j hi lo v : Nat) : (s.wf r i j hi lo v).down = s.down := rfl
@[simp] theorem State.wf_freeCtr (s : State) (r : Reg) (i j hi lo v : Nat) : (s.wf r i j hi lo v).freeCtr = s.freeCtr := rfl
@[simp] theorem State.wf_acnt (s : State) (r : Reg) (i j hi lo v : Nat) : (s.wf r i j hi lo v).acnt = s.acnt := rfl
@[simp] theorem State.wf_ladle (s : State) (r : Reg) (i j hi lo v : Nat) : (s.wf r i j hi lo v).ladle = s.ladle := rfl
@[simp] theorem State.wf_runner (s : State) (r : Reg) (i j hi lo v : Nat) : (s.wf r i j hi lo v).runner = s.runner := rfl
@[simp] theorem State.wf_vote (s : State) (r : Reg) (i j hi lo v : Nat) : (s.wf r i j hi lo v).vote = s.vote := rfl
@[simp] theorem State.wf_queue (s : State) (r : Reg) (i j hi lo v : Nat) : (s.wf r i j hi lo v).queue = s.queue := rfl
@[simp] theorem State.wf_saved (s : State) (r : Reg) (i j hi lo v : Nat) : (s.wf r i j hi lo v).saved = s.saved := rfl
@[simp] theorem State.wf_quarDue (s : State) (r : Reg) (i j hi lo v : Nat) : (s.wf r i j hi lo v).quarDue = s.quarDue := rfl
@[simp] theorem State.wf_stby (s : State) (r : Reg) (i j hi lo v : Nat) : (s.wf r i j hi lo v).stby = s.stby := rfl
@[simp] theorem State.wf_pins (s : State) (r : Reg) (i j hi lo v : Nat) : (s.wf r i j hi lo v).pins = s.pins := rfl
@[simp] theorem State.wf_mgt (s : State) (r : Reg) (i j hi lo v : Nat) : (s.wf r i j hi lo v).mgt = s.mgt := rfl
@[simp] theorem State.wf_pwr (s : State) (r : Reg) (i j hi lo v : Nat) : (s.wf r i j hi lo v).pwr = s.pwr := rfl

@[simp] theorem State.addSat_pending (s : State) (r : Reg) (i j w n : Nat) : (s.addSat r i j w n).pending = s.pending := rfl
@[simp] theorem State.addSat_mem (s : State) (r : Reg) (i j w n : Nat) : (s.addSat r i j w n).mem = s.mem := rfl
@[simp] theorem State.addSat_pois (s : State) (r : Reg) (i j w n : Nat) : (s.addSat r i j w n).pois = s.pois := rfl
@[simp] theorem State.addSat_pat (s : State) (r : Reg) (i j w n : Nat) : (s.addSat r i j w n).pat = s.pat := rfl
@[simp] theorem State.addSat_cores (s : State) (r : Reg) (i j w n : Nat) : (s.addSat r i j w n).cores = s.cores := rfl
@[simp] theorem State.addSat_m (s : State) (r : Reg) (i j w n : Nat) : (s.addSat r i j w n).m = s.m := rfl
@[simp] theorem State.addSat_fab (s : State) (r : Reg) (i j w n : Nat) : (s.addSat r i j w n).fab = s.fab := rfl
@[simp] theorem State.addSat_reqs (s : State) (r : Reg) (i j w n : Nat) : (s.addSat r i j w n).reqs = s.reqs := rfl
@[simp] theorem State.addSat_resps (s : State) (r : Reg) (i j w n : Nat) : (s.addSat r i j w n).resps = s.resps := rfl
@[simp] theorem State.addSat_notices (s : State) (r : Reg) (i j w n : Nat) : (s.addSat r i j w n).notices = s.notices := rfl
@[simp] theorem State.addSat_records (s : State) (r : Reg) (i j w n : Nat) : (s.addSat r i j w n).records = s.records := rfl
@[simp] theorem State.addSat_ldlog (s : State) (r : Reg) (i j w n : Nat) : (s.addSat r i j w n).ldlog = s.ldlog := rfl
@[simp] theorem State.addSat_msix (s : State) (r : Reg) (i j w n : Nat) : (s.addSat r i j w n).msix = s.msix := rfl
@[simp] theorem State.addSat_msixEn (s : State) (r : Reg) (i j w n : Nat) : (s.addSat r i j w n).msixEn = s.msixEn := rfl
@[simp] theorem State.addSat_pba (s : State) (r : Reg) (i j w n : Nat) : (s.addSat r i j w n).pba = s.pba := rfl
@[simp] theorem State.addSat_policy (s : State) (r : Reg) (i j w n : Nat) : (s.addSat r i j w n).policy = s.policy := rfl
@[simp] theorem State.addSat_cfg (s : State) (r : Reg) (i j w n : Nat) : (s.addSat r i j w n).cfg = s.cfg := rfl
@[simp] theorem State.addSat_bar (s : State) (r : Reg) (i j w n : Nat) : (s.addSat r i j w n).bar = s.bar := rfl
@[simp] theorem State.addSat_cxlHeld (s : State) (r : Reg) (i j w n : Nat) : (s.addSat r i j w n).cxlHeld = s.cxlHeld := rfl
@[simp] theorem State.addSat_out (s : State) (r : Reg) (i j w n : Nat) : (s.addSat r i j w n).out = s.out := rfl
@[simp] theorem State.addSat_nextId (s : State) (r : Reg) (i j w n : Nat) : (s.addSat r i j w n).nextId = s.nextId := rfl
@[simp] theorem State.addSat_down (s : State) (r : Reg) (i j w n : Nat) : (s.addSat r i j w n).down = s.down := rfl
@[simp] theorem State.addSat_freeCtr (s : State) (r : Reg) (i j w n : Nat) : (s.addSat r i j w n).freeCtr = s.freeCtr := rfl
@[simp] theorem State.addSat_acnt (s : State) (r : Reg) (i j w n : Nat) : (s.addSat r i j w n).acnt = s.acnt := rfl
@[simp] theorem State.addSat_ladle (s : State) (r : Reg) (i j w n : Nat) : (s.addSat r i j w n).ladle = s.ladle := rfl
@[simp] theorem State.addSat_runner (s : State) (r : Reg) (i j w n : Nat) : (s.addSat r i j w n).runner = s.runner := rfl
@[simp] theorem State.addSat_vote (s : State) (r : Reg) (i j w n : Nat) : (s.addSat r i j w n).vote = s.vote := rfl
@[simp] theorem State.addSat_queue (s : State) (r : Reg) (i j w n : Nat) : (s.addSat r i j w n).queue = s.queue := rfl
@[simp] theorem State.addSat_saved (s : State) (r : Reg) (i j w n : Nat) : (s.addSat r i j w n).saved = s.saved := rfl
@[simp] theorem State.addSat_quarDue (s : State) (r : Reg) (i j w n : Nat) : (s.addSat r i j w n).quarDue = s.quarDue := rfl
@[simp] theorem State.addSat_stby (s : State) (r : Reg) (i j w n : Nat) : (s.addSat r i j w n).stby = s.stby := rfl
@[simp] theorem State.addSat_pins (s : State) (r : Reg) (i j w n : Nat) : (s.addSat r i j w n).pins = s.pins := rfl
@[simp] theorem State.addSat_mgt (s : State) (r : Reg) (i j w n : Nat) : (s.addSat r i j w n).mgt = s.mgt := rfl
@[simp] theorem State.addSat_pwr (s : State) (r : Reg) (i j w n : Nat) : (s.addSat r i j w n).pwr = s.pwr := rfl

@[simp] theorem State.addWrap_pending (s : State) (r : Reg) (i j n : Nat) : (s.addWrap r i j n).pending = s.pending := rfl
@[simp] theorem State.addWrap_mem (s : State) (r : Reg) (i j n : Nat) : (s.addWrap r i j n).mem = s.mem := rfl
@[simp] theorem State.addWrap_pois (s : State) (r : Reg) (i j n : Nat) : (s.addWrap r i j n).pois = s.pois := rfl
@[simp] theorem State.addWrap_pat (s : State) (r : Reg) (i j n : Nat) : (s.addWrap r i j n).pat = s.pat := rfl
@[simp] theorem State.addWrap_cores (s : State) (r : Reg) (i j n : Nat) : (s.addWrap r i j n).cores = s.cores := rfl
@[simp] theorem State.addWrap_m (s : State) (r : Reg) (i j n : Nat) : (s.addWrap r i j n).m = s.m := rfl
@[simp] theorem State.addWrap_fab (s : State) (r : Reg) (i j n : Nat) : (s.addWrap r i j n).fab = s.fab := rfl
@[simp] theorem State.addWrap_reqs (s : State) (r : Reg) (i j n : Nat) : (s.addWrap r i j n).reqs = s.reqs := rfl
@[simp] theorem State.addWrap_resps (s : State) (r : Reg) (i j n : Nat) : (s.addWrap r i j n).resps = s.resps := rfl
@[simp] theorem State.addWrap_notices (s : State) (r : Reg) (i j n : Nat) : (s.addWrap r i j n).notices = s.notices := rfl
@[simp] theorem State.addWrap_records (s : State) (r : Reg) (i j n : Nat) : (s.addWrap r i j n).records = s.records := rfl
@[simp] theorem State.addWrap_ldlog (s : State) (r : Reg) (i j n : Nat) : (s.addWrap r i j n).ldlog = s.ldlog := rfl
@[simp] theorem State.addWrap_msix (s : State) (r : Reg) (i j n : Nat) : (s.addWrap r i j n).msix = s.msix := rfl
@[simp] theorem State.addWrap_msixEn (s : State) (r : Reg) (i j n : Nat) : (s.addWrap r i j n).msixEn = s.msixEn := rfl
@[simp] theorem State.addWrap_pba (s : State) (r : Reg) (i j n : Nat) : (s.addWrap r i j n).pba = s.pba := rfl
@[simp] theorem State.addWrap_policy (s : State) (r : Reg) (i j n : Nat) : (s.addWrap r i j n).policy = s.policy := rfl
@[simp] theorem State.addWrap_cfg (s : State) (r : Reg) (i j n : Nat) : (s.addWrap r i j n).cfg = s.cfg := rfl
@[simp] theorem State.addWrap_bar (s : State) (r : Reg) (i j n : Nat) : (s.addWrap r i j n).bar = s.bar := rfl
@[simp] theorem State.addWrap_cxlHeld (s : State) (r : Reg) (i j n : Nat) : (s.addWrap r i j n).cxlHeld = s.cxlHeld := rfl
@[simp] theorem State.addWrap_out (s : State) (r : Reg) (i j n : Nat) : (s.addWrap r i j n).out = s.out := rfl
@[simp] theorem State.addWrap_nextId (s : State) (r : Reg) (i j n : Nat) : (s.addWrap r i j n).nextId = s.nextId := rfl
@[simp] theorem State.addWrap_down (s : State) (r : Reg) (i j n : Nat) : (s.addWrap r i j n).down = s.down := rfl
@[simp] theorem State.addWrap_freeCtr (s : State) (r : Reg) (i j n : Nat) : (s.addWrap r i j n).freeCtr = s.freeCtr := rfl
@[simp] theorem State.addWrap_acnt (s : State) (r : Reg) (i j n : Nat) : (s.addWrap r i j n).acnt = s.acnt := rfl
@[simp] theorem State.addWrap_ladle (s : State) (r : Reg) (i j n : Nat) : (s.addWrap r i j n).ladle = s.ladle := rfl
@[simp] theorem State.addWrap_runner (s : State) (r : Reg) (i j n : Nat) : (s.addWrap r i j n).runner = s.runner := rfl
@[simp] theorem State.addWrap_vote (s : State) (r : Reg) (i j n : Nat) : (s.addWrap r i j n).vote = s.vote := rfl
@[simp] theorem State.addWrap_queue (s : State) (r : Reg) (i j n : Nat) : (s.addWrap r i j n).queue = s.queue := rfl
@[simp] theorem State.addWrap_saved (s : State) (r : Reg) (i j n : Nat) : (s.addWrap r i j n).saved = s.saved := rfl
@[simp] theorem State.addWrap_quarDue (s : State) (r : Reg) (i j n : Nat) : (s.addWrap r i j n).quarDue = s.quarDue := rfl
@[simp] theorem State.addWrap_stby (s : State) (r : Reg) (i j n : Nat) : (s.addWrap r i j n).stby = s.stby := rfl
@[simp] theorem State.addWrap_pins (s : State) (r : Reg) (i j n : Nat) : (s.addWrap r i j n).pins = s.pins := rfl
@[simp] theorem State.addWrap_mgt (s : State) (r : Reg) (i j n : Nat) : (s.addWrap r i j n).mgt = s.mgt := rfl
@[simp] theorem State.addWrap_pwr (s : State) (r : Reg) (i j n : Nat) : (s.addWrap r i j n).pwr = s.pwr := rfl

@[simp] theorem State.addFld_pending (s : State) (r : Reg) (i j hi lo n : Nat) : (s.addFld r i j hi lo n).pending = s.pending := rfl
@[simp] theorem State.addFld_mem (s : State) (r : Reg) (i j hi lo n : Nat) : (s.addFld r i j hi lo n).mem = s.mem := rfl
@[simp] theorem State.addFld_pois (s : State) (r : Reg) (i j hi lo n : Nat) : (s.addFld r i j hi lo n).pois = s.pois := rfl
@[simp] theorem State.addFld_pat (s : State) (r : Reg) (i j hi lo n : Nat) : (s.addFld r i j hi lo n).pat = s.pat := rfl
@[simp] theorem State.addFld_cores (s : State) (r : Reg) (i j hi lo n : Nat) : (s.addFld r i j hi lo n).cores = s.cores := rfl
@[simp] theorem State.addFld_m (s : State) (r : Reg) (i j hi lo n : Nat) : (s.addFld r i j hi lo n).m = s.m := rfl
@[simp] theorem State.addFld_fab (s : State) (r : Reg) (i j hi lo n : Nat) : (s.addFld r i j hi lo n).fab = s.fab := rfl
@[simp] theorem State.addFld_reqs (s : State) (r : Reg) (i j hi lo n : Nat) : (s.addFld r i j hi lo n).reqs = s.reqs := rfl
@[simp] theorem State.addFld_resps (s : State) (r : Reg) (i j hi lo n : Nat) : (s.addFld r i j hi lo n).resps = s.resps := rfl
@[simp] theorem State.addFld_notices (s : State) (r : Reg) (i j hi lo n : Nat) : (s.addFld r i j hi lo n).notices = s.notices := rfl
@[simp] theorem State.addFld_records (s : State) (r : Reg) (i j hi lo n : Nat) : (s.addFld r i j hi lo n).records = s.records := rfl
@[simp] theorem State.addFld_ldlog (s : State) (r : Reg) (i j hi lo n : Nat) : (s.addFld r i j hi lo n).ldlog = s.ldlog := rfl
@[simp] theorem State.addFld_msix (s : State) (r : Reg) (i j hi lo n : Nat) : (s.addFld r i j hi lo n).msix = s.msix := rfl
@[simp] theorem State.addFld_msixEn (s : State) (r : Reg) (i j hi lo n : Nat) : (s.addFld r i j hi lo n).msixEn = s.msixEn := rfl
@[simp] theorem State.addFld_pba (s : State) (r : Reg) (i j hi lo n : Nat) : (s.addFld r i j hi lo n).pba = s.pba := rfl
@[simp] theorem State.addFld_policy (s : State) (r : Reg) (i j hi lo n : Nat) : (s.addFld r i j hi lo n).policy = s.policy := rfl
@[simp] theorem State.addFld_cfg (s : State) (r : Reg) (i j hi lo n : Nat) : (s.addFld r i j hi lo n).cfg = s.cfg := rfl
@[simp] theorem State.addFld_bar (s : State) (r : Reg) (i j hi lo n : Nat) : (s.addFld r i j hi lo n).bar = s.bar := rfl
@[simp] theorem State.addFld_cxlHeld (s : State) (r : Reg) (i j hi lo n : Nat) : (s.addFld r i j hi lo n).cxlHeld = s.cxlHeld := rfl
@[simp] theorem State.addFld_out (s : State) (r : Reg) (i j hi lo n : Nat) : (s.addFld r i j hi lo n).out = s.out := rfl
@[simp] theorem State.addFld_nextId (s : State) (r : Reg) (i j hi lo n : Nat) : (s.addFld r i j hi lo n).nextId = s.nextId := rfl
@[simp] theorem State.addFld_down (s : State) (r : Reg) (i j hi lo n : Nat) : (s.addFld r i j hi lo n).down = s.down := rfl
@[simp] theorem State.addFld_freeCtr (s : State) (r : Reg) (i j hi lo n : Nat) : (s.addFld r i j hi lo n).freeCtr = s.freeCtr := rfl
@[simp] theorem State.addFld_acnt (s : State) (r : Reg) (i j hi lo n : Nat) : (s.addFld r i j hi lo n).acnt = s.acnt := rfl
@[simp] theorem State.addFld_ladle (s : State) (r : Reg) (i j hi lo n : Nat) : (s.addFld r i j hi lo n).ladle = s.ladle := rfl
@[simp] theorem State.addFld_runner (s : State) (r : Reg) (i j hi lo n : Nat) : (s.addFld r i j hi lo n).runner = s.runner := rfl
@[simp] theorem State.addFld_vote (s : State) (r : Reg) (i j hi lo n : Nat) : (s.addFld r i j hi lo n).vote = s.vote := rfl
@[simp] theorem State.addFld_queue (s : State) (r : Reg) (i j hi lo n : Nat) : (s.addFld r i j hi lo n).queue = s.queue := rfl
@[simp] theorem State.addFld_saved (s : State) (r : Reg) (i j hi lo n : Nat) : (s.addFld r i j hi lo n).saved = s.saved := rfl
@[simp] theorem State.addFld_quarDue (s : State) (r : Reg) (i j hi lo n : Nat) : (s.addFld r i j hi lo n).quarDue = s.quarDue := rfl
@[simp] theorem State.addFld_stby (s : State) (r : Reg) (i j hi lo n : Nat) : (s.addFld r i j hi lo n).stby = s.stby := rfl
@[simp] theorem State.addFld_pins (s : State) (r : Reg) (i j hi lo n : Nat) : (s.addFld r i j hi lo n).pins = s.pins := rfl
@[simp] theorem State.addFld_mgt (s : State) (r : Reg) (i j hi lo n : Nat) : (s.addFld r i j hi lo n).mgt = s.mgt := rfl
@[simp] theorem State.addFld_pwr (s : State) (r : Reg) (i j hi lo n : Nat) : (s.addFld r i j hi lo n).pwr = s.pwr := rfl

@[simp] theorem State.setCore_pending (s : State) (g : Nat) (c : Core) : (s.setCore g c).pending = s.pending := rfl
@[simp] theorem State.setCore_regs (s : State) (g : Nat) (c : Core) : (s.setCore g c).regs = s.regs := rfl
@[simp] theorem State.setCore_mem (s : State) (g : Nat) (c : Core) : (s.setCore g c).mem = s.mem := rfl
@[simp] theorem State.setCore_pois (s : State) (g : Nat) (c : Core) : (s.setCore g c).pois = s.pois := rfl
@[simp] theorem State.setCore_pat (s : State) (g : Nat) (c : Core) : (s.setCore g c).pat = s.pat := rfl
@[simp] theorem State.setCore_m (s : State) (g : Nat) (c : Core) : (s.setCore g c).m = s.m := rfl
@[simp] theorem State.setCore_fab (s : State) (g : Nat) (c : Core) : (s.setCore g c).fab = s.fab := rfl
@[simp] theorem State.setCore_reqs (s : State) (g : Nat) (c : Core) : (s.setCore g c).reqs = s.reqs := rfl
@[simp] theorem State.setCore_resps (s : State) (g : Nat) (c : Core) : (s.setCore g c).resps = s.resps := rfl
@[simp] theorem State.setCore_notices (s : State) (g : Nat) (c : Core) : (s.setCore g c).notices = s.notices := rfl
@[simp] theorem State.setCore_records (s : State) (g : Nat) (c : Core) : (s.setCore g c).records = s.records := rfl
@[simp] theorem State.setCore_ldlog (s : State) (g : Nat) (c : Core) : (s.setCore g c).ldlog = s.ldlog := rfl
@[simp] theorem State.setCore_msix (s : State) (g : Nat) (c : Core) : (s.setCore g c).msix = s.msix := rfl
@[simp] theorem State.setCore_msixEn (s : State) (g : Nat) (c : Core) : (s.setCore g c).msixEn = s.msixEn := rfl
@[simp] theorem State.setCore_pba (s : State) (g : Nat) (c : Core) : (s.setCore g c).pba = s.pba := rfl
@[simp] theorem State.setCore_policy (s : State) (g : Nat) (c : Core) : (s.setCore g c).policy = s.policy := rfl
@[simp] theorem State.setCore_cfg (s : State) (g : Nat) (c : Core) : (s.setCore g c).cfg = s.cfg := rfl
@[simp] theorem State.setCore_bar (s : State) (g : Nat) (c : Core) : (s.setCore g c).bar = s.bar := rfl
@[simp] theorem State.setCore_cxlHeld (s : State) (g : Nat) (c : Core) : (s.setCore g c).cxlHeld = s.cxlHeld := rfl
@[simp] theorem State.setCore_out (s : State) (g : Nat) (c : Core) : (s.setCore g c).out = s.out := rfl
@[simp] theorem State.setCore_nextId (s : State) (g : Nat) (c : Core) : (s.setCore g c).nextId = s.nextId := rfl
@[simp] theorem State.setCore_down (s : State) (g : Nat) (c : Core) : (s.setCore g c).down = s.down := rfl
@[simp] theorem State.setCore_freeCtr (s : State) (g : Nat) (c : Core) : (s.setCore g c).freeCtr = s.freeCtr := rfl
@[simp] theorem State.setCore_acnt (s : State) (g : Nat) (c : Core) : (s.setCore g c).acnt = s.acnt := rfl
@[simp] theorem State.setCore_ladle (s : State) (g : Nat) (c : Core) : (s.setCore g c).ladle = s.ladle := rfl
@[simp] theorem State.setCore_runner (s : State) (g : Nat) (c : Core) : (s.setCore g c).runner = s.runner := rfl
@[simp] theorem State.setCore_vote (s : State) (g : Nat) (c : Core) : (s.setCore g c).vote = s.vote := rfl
@[simp] theorem State.setCore_queue (s : State) (g : Nat) (c : Core) : (s.setCore g c).queue = s.queue := rfl
@[simp] theorem State.setCore_saved (s : State) (g : Nat) (c : Core) : (s.setCore g c).saved = s.saved := rfl
@[simp] theorem State.setCore_quarDue (s : State) (g : Nat) (c : Core) : (s.setCore g c).quarDue = s.quarDue := rfl
@[simp] theorem State.setCore_stby (s : State) (g : Nat) (c : Core) : (s.setCore g c).stby = s.stby := rfl
@[simp] theorem State.setCore_pins (s : State) (g : Nat) (c : Core) : (s.setCore g c).pins = s.pins := rfl
@[simp] theorem State.setCore_mgt (s : State) (g : Nat) (c : Core) : (s.setCore g c).mgt = s.mgt := rfl
@[simp] theorem State.setCore_pwr (s : State) (g : Nat) (c : Core) : (s.setCore g c).pwr = s.pwr := rfl

@[simp] theorem State.modCore_pending (s : State) (g : Nat) (f : Core → Core) : (s.modCore g f).pending = s.pending := rfl
@[simp] theorem State.modCore_regs (s : State) (g : Nat) (f : Core → Core) : (s.modCore g f).regs = s.regs := rfl
@[simp] theorem State.modCore_mem (s : State) (g : Nat) (f : Core → Core) : (s.modCore g f).mem = s.mem := rfl
@[simp] theorem State.modCore_pois (s : State) (g : Nat) (f : Core → Core) : (s.modCore g f).pois = s.pois := rfl
@[simp] theorem State.modCore_pat (s : State) (g : Nat) (f : Core → Core) : (s.modCore g f).pat = s.pat := rfl
@[simp] theorem State.modCore_m (s : State) (g : Nat) (f : Core → Core) : (s.modCore g f).m = s.m := rfl
@[simp] theorem State.modCore_fab (s : State) (g : Nat) (f : Core → Core) : (s.modCore g f).fab = s.fab := rfl
@[simp] theorem State.modCore_reqs (s : State) (g : Nat) (f : Core → Core) : (s.modCore g f).reqs = s.reqs := rfl
@[simp] theorem State.modCore_resps (s : State) (g : Nat) (f : Core → Core) : (s.modCore g f).resps = s.resps := rfl
@[simp] theorem State.modCore_notices (s : State) (g : Nat) (f : Core → Core) : (s.modCore g f).notices = s.notices := rfl
@[simp] theorem State.modCore_records (s : State) (g : Nat) (f : Core → Core) : (s.modCore g f).records = s.records := rfl
@[simp] theorem State.modCore_ldlog (s : State) (g : Nat) (f : Core → Core) : (s.modCore g f).ldlog = s.ldlog := rfl
@[simp] theorem State.modCore_msix (s : State) (g : Nat) (f : Core → Core) : (s.modCore g f).msix = s.msix := rfl
@[simp] theorem State.modCore_msixEn (s : State) (g : Nat) (f : Core → Core) : (s.modCore g f).msixEn = s.msixEn := rfl
@[simp] theorem State.modCore_pba (s : State) (g : Nat) (f : Core → Core) : (s.modCore g f).pba = s.pba := rfl
@[simp] theorem State.modCore_policy (s : State) (g : Nat) (f : Core → Core) : (s.modCore g f).policy = s.policy := rfl
@[simp] theorem State.modCore_cfg (s : State) (g : Nat) (f : Core → Core) : (s.modCore g f).cfg = s.cfg := rfl
@[simp] theorem State.modCore_bar (s : State) (g : Nat) (f : Core → Core) : (s.modCore g f).bar = s.bar := rfl
@[simp] theorem State.modCore_cxlHeld (s : State) (g : Nat) (f : Core → Core) : (s.modCore g f).cxlHeld = s.cxlHeld := rfl
@[simp] theorem State.modCore_out (s : State) (g : Nat) (f : Core → Core) : (s.modCore g f).out = s.out := rfl
@[simp] theorem State.modCore_nextId (s : State) (g : Nat) (f : Core → Core) : (s.modCore g f).nextId = s.nextId := rfl
@[simp] theorem State.modCore_down (s : State) (g : Nat) (f : Core → Core) : (s.modCore g f).down = s.down := rfl
@[simp] theorem State.modCore_freeCtr (s : State) (g : Nat) (f : Core → Core) : (s.modCore g f).freeCtr = s.freeCtr := rfl
@[simp] theorem State.modCore_acnt (s : State) (g : Nat) (f : Core → Core) : (s.modCore g f).acnt = s.acnt := rfl
@[simp] theorem State.modCore_ladle (s : State) (g : Nat) (f : Core → Core) : (s.modCore g f).ladle = s.ladle := rfl
@[simp] theorem State.modCore_runner (s : State) (g : Nat) (f : Core → Core) : (s.modCore g f).runner = s.runner := rfl
@[simp] theorem State.modCore_vote (s : State) (g : Nat) (f : Core → Core) : (s.modCore g f).vote = s.vote := rfl
@[simp] theorem State.modCore_queue (s : State) (g : Nat) (f : Core → Core) : (s.modCore g f).queue = s.queue := rfl
@[simp] theorem State.modCore_saved (s : State) (g : Nat) (f : Core → Core) : (s.modCore g f).saved = s.saved := rfl
@[simp] theorem State.modCore_quarDue (s : State) (g : Nat) (f : Core → Core) : (s.modCore g f).quarDue = s.quarDue := rfl
@[simp] theorem State.modCore_stby (s : State) (g : Nat) (f : Core → Core) : (s.modCore g f).stby = s.stby := rfl
@[simp] theorem State.modCore_pins (s : State) (g : Nat) (f : Core → Core) : (s.modCore g f).pins = s.pins := rfl
@[simp] theorem State.modCore_mgt (s : State) (g : Nat) (f : Core → Core) : (s.modCore g f).mgt = s.mgt := rfl
@[simp] theorem State.modCore_pwr (s : State) (g : Nat) (f : Core → Core) : (s.modCore g f).pwr = s.pwr := rfl

@[simp] theorem State.modGroup_pending (s : State) (x : Who) (f : Group → Group) : (s.modGroup x f).pending = s.pending := rfl
@[simp] theorem State.modGroup_regs (s : State) (x : Who) (f : Group → Group) : (s.modGroup x f).regs = s.regs := rfl
@[simp] theorem State.modGroup_mem (s : State) (x : Who) (f : Group → Group) : (s.modGroup x f).mem = s.mem := rfl
@[simp] theorem State.modGroup_pois (s : State) (x : Who) (f : Group → Group) : (s.modGroup x f).pois = s.pois := rfl
@[simp] theorem State.modGroup_pat (s : State) (x : Who) (f : Group → Group) : (s.modGroup x f).pat = s.pat := rfl
@[simp] theorem State.modGroup_m (s : State) (x : Who) (f : Group → Group) : (s.modGroup x f).m = s.m := rfl
@[simp] theorem State.modGroup_fab (s : State) (x : Who) (f : Group → Group) : (s.modGroup x f).fab = s.fab := rfl
@[simp] theorem State.modGroup_reqs (s : State) (x : Who) (f : Group → Group) : (s.modGroup x f).reqs = s.reqs := rfl
@[simp] theorem State.modGroup_resps (s : State) (x : Who) (f : Group → Group) : (s.modGroup x f).resps = s.resps := rfl
@[simp] theorem State.modGroup_notices (s : State) (x : Who) (f : Group → Group) : (s.modGroup x f).notices = s.notices := rfl
@[simp] theorem State.modGroup_records (s : State) (x : Who) (f : Group → Group) : (s.modGroup x f).records = s.records := rfl
@[simp] theorem State.modGroup_ldlog (s : State) (x : Who) (f : Group → Group) : (s.modGroup x f).ldlog = s.ldlog := rfl
@[simp] theorem State.modGroup_msix (s : State) (x : Who) (f : Group → Group) : (s.modGroup x f).msix = s.msix := rfl
@[simp] theorem State.modGroup_msixEn (s : State) (x : Who) (f : Group → Group) : (s.modGroup x f).msixEn = s.msixEn := rfl
@[simp] theorem State.modGroup_pba (s : State) (x : Who) (f : Group → Group) : (s.modGroup x f).pba = s.pba := rfl
@[simp] theorem State.modGroup_policy (s : State) (x : Who) (f : Group → Group) : (s.modGroup x f).policy = s.policy := rfl
@[simp] theorem State.modGroup_cfg (s : State) (x : Who) (f : Group → Group) : (s.modGroup x f).cfg = s.cfg := rfl
@[simp] theorem State.modGroup_bar (s : State) (x : Who) (f : Group → Group) : (s.modGroup x f).bar = s.bar := rfl
@[simp] theorem State.modGroup_cxlHeld (s : State) (x : Who) (f : Group → Group) : (s.modGroup x f).cxlHeld = s.cxlHeld := rfl
@[simp] theorem State.modGroup_out (s : State) (x : Who) (f : Group → Group) : (s.modGroup x f).out = s.out := rfl
@[simp] theorem State.modGroup_nextId (s : State) (x : Who) (f : Group → Group) : (s.modGroup x f).nextId = s.nextId := rfl
@[simp] theorem State.modGroup_down (s : State) (x : Who) (f : Group → Group) : (s.modGroup x f).down = s.down := rfl
@[simp] theorem State.modGroup_freeCtr (s : State) (x : Who) (f : Group → Group) : (s.modGroup x f).freeCtr = s.freeCtr := rfl
@[simp] theorem State.modGroup_acnt (s : State) (x : Who) (f : Group → Group) : (s.modGroup x f).acnt = s.acnt := rfl
@[simp] theorem State.modGroup_ladle (s : State) (x : Who) (f : Group → Group) : (s.modGroup x f).ladle = s.ladle := rfl
@[simp] theorem State.modGroup_runner (s : State) (x : Who) (f : Group → Group) : (s.modGroup x f).runner = s.runner := rfl
@[simp] theorem State.modGroup_vote (s : State) (x : Who) (f : Group → Group) : (s.modGroup x f).vote = s.vote := rfl
@[simp] theorem State.modGroup_queue (s : State) (x : Who) (f : Group → Group) : (s.modGroup x f).queue = s.queue := rfl
@[simp] theorem State.modGroup_saved (s : State) (x : Who) (f : Group → Group) : (s.modGroup x f).saved = s.saved := rfl
@[simp] theorem State.modGroup_quarDue (s : State) (x : Who) (f : Group → Group) : (s.modGroup x f).quarDue = s.quarDue := rfl
@[simp] theorem State.modGroup_stby (s : State) (x : Who) (f : Group → Group) : (s.modGroup x f).stby = s.stby := rfl
@[simp] theorem State.modGroup_pins (s : State) (x : Who) (f : Group → Group) : (s.modGroup x f).pins = s.pins := rfl
@[simp] theorem State.modGroup_mgt (s : State) (x : Who) (f : Group → Group) : (s.modGroup x f).mgt = s.mgt := rfl
@[simp] theorem State.modGroup_pwr (s : State) (x : Who) (f : Group → Group) : (s.modGroup x f).pwr = s.pwr := rfl

@[simp] theorem State.put_pending (s : State) (a : Nat) (mask : List Bool) (bs : List Byte) : (s.put a mask bs).pending = s.pending := rfl
@[simp] theorem State.put_regs (s : State) (a : Nat) (mask : List Bool) (bs : List Byte) : (s.put a mask bs).regs = s.regs := rfl
@[simp] theorem State.put_pois (s : State) (a : Nat) (mask : List Bool) (bs : List Byte) : (s.put a mask bs).pois = s.pois := rfl
@[simp] theorem State.put_pat (s : State) (a : Nat) (mask : List Bool) (bs : List Byte) : (s.put a mask bs).pat = s.pat := rfl
@[simp] theorem State.put_cores (s : State) (a : Nat) (mask : List Bool) (bs : List Byte) : (s.put a mask bs).cores = s.cores := rfl
@[simp] theorem State.put_m (s : State) (a : Nat) (mask : List Bool) (bs : List Byte) : (s.put a mask bs).m = s.m := rfl
@[simp] theorem State.put_fab (s : State) (a : Nat) (mask : List Bool) (bs : List Byte) : (s.put a mask bs).fab = s.fab := rfl
@[simp] theorem State.put_reqs (s : State) (a : Nat) (mask : List Bool) (bs : List Byte) : (s.put a mask bs).reqs = s.reqs := rfl
@[simp] theorem State.put_resps (s : State) (a : Nat) (mask : List Bool) (bs : List Byte) : (s.put a mask bs).resps = s.resps := rfl
@[simp] theorem State.put_notices (s : State) (a : Nat) (mask : List Bool) (bs : List Byte) : (s.put a mask bs).notices = s.notices := rfl
@[simp] theorem State.put_records (s : State) (a : Nat) (mask : List Bool) (bs : List Byte) : (s.put a mask bs).records = s.records := rfl
@[simp] theorem State.put_ldlog (s : State) (a : Nat) (mask : List Bool) (bs : List Byte) : (s.put a mask bs).ldlog = s.ldlog := rfl
@[simp] theorem State.put_msix (s : State) (a : Nat) (mask : List Bool) (bs : List Byte) : (s.put a mask bs).msix = s.msix := rfl
@[simp] theorem State.put_msixEn (s : State) (a : Nat) (mask : List Bool) (bs : List Byte) : (s.put a mask bs).msixEn = s.msixEn := rfl
@[simp] theorem State.put_pba (s : State) (a : Nat) (mask : List Bool) (bs : List Byte) : (s.put a mask bs).pba = s.pba := rfl
@[simp] theorem State.put_policy (s : State) (a : Nat) (mask : List Bool) (bs : List Byte) : (s.put a mask bs).policy = s.policy := rfl
@[simp] theorem State.put_cfg (s : State) (a : Nat) (mask : List Bool) (bs : List Byte) : (s.put a mask bs).cfg = s.cfg := rfl
@[simp] theorem State.put_bar (s : State) (a : Nat) (mask : List Bool) (bs : List Byte) : (s.put a mask bs).bar = s.bar := rfl
@[simp] theorem State.put_cxlHeld (s : State) (a : Nat) (mask : List Bool) (bs : List Byte) : (s.put a mask bs).cxlHeld = s.cxlHeld := rfl
@[simp] theorem State.put_out (s : State) (a : Nat) (mask : List Bool) (bs : List Byte) : (s.put a mask bs).out = s.out := rfl
@[simp] theorem State.put_nextId (s : State) (a : Nat) (mask : List Bool) (bs : List Byte) : (s.put a mask bs).nextId = s.nextId := rfl
@[simp] theorem State.put_down (s : State) (a : Nat) (mask : List Bool) (bs : List Byte) : (s.put a mask bs).down = s.down := rfl
@[simp] theorem State.put_freeCtr (s : State) (a : Nat) (mask : List Bool) (bs : List Byte) : (s.put a mask bs).freeCtr = s.freeCtr := rfl
@[simp] theorem State.put_acnt (s : State) (a : Nat) (mask : List Bool) (bs : List Byte) : (s.put a mask bs).acnt = s.acnt := rfl
@[simp] theorem State.put_ladle (s : State) (a : Nat) (mask : List Bool) (bs : List Byte) : (s.put a mask bs).ladle = s.ladle := rfl
@[simp] theorem State.put_runner (s : State) (a : Nat) (mask : List Bool) (bs : List Byte) : (s.put a mask bs).runner = s.runner := rfl
@[simp] theorem State.put_vote (s : State) (a : Nat) (mask : List Bool) (bs : List Byte) : (s.put a mask bs).vote = s.vote := rfl
@[simp] theorem State.put_queue (s : State) (a : Nat) (mask : List Bool) (bs : List Byte) : (s.put a mask bs).queue = s.queue := rfl
@[simp] theorem State.put_saved (s : State) (a : Nat) (mask : List Bool) (bs : List Byte) : (s.put a mask bs).saved = s.saved := rfl
@[simp] theorem State.put_quarDue (s : State) (a : Nat) (mask : List Bool) (bs : List Byte) : (s.put a mask bs).quarDue = s.quarDue := rfl
@[simp] theorem State.put_stby (s : State) (a : Nat) (mask : List Bool) (bs : List Byte) : (s.put a mask bs).stby = s.stby := rfl
@[simp] theorem State.put_pins (s : State) (a : Nat) (mask : List Bool) (bs : List Byte) : (s.put a mask bs).pins = s.pins := rfl
@[simp] theorem State.put_mgt (s : State) (a : Nat) (mask : List Bool) (bs : List Byte) : (s.put a mask bs).mgt = s.mgt := rfl
@[simp] theorem State.put_pwr (s : State) (a : Nat) (mask : List Bool) (bs : List Byte) : (s.put a mask bs).pwr = s.pwr := rfl

@[simp] theorem State.poison_pending (s : State) (a n : Nat) : (s.poison a n).pending = s.pending := rfl
@[simp] theorem State.poison_regs (s : State) (a n : Nat) : (s.poison a n).regs = s.regs := rfl
@[simp] theorem State.poison_mem (s : State) (a n : Nat) : (s.poison a n).mem = s.mem := rfl
@[simp] theorem State.poison_pat (s : State) (a n : Nat) : (s.poison a n).pat = s.pat := rfl
@[simp] theorem State.poison_cores (s : State) (a n : Nat) : (s.poison a n).cores = s.cores := rfl
@[simp] theorem State.poison_m (s : State) (a n : Nat) : (s.poison a n).m = s.m := rfl
@[simp] theorem State.poison_fab (s : State) (a n : Nat) : (s.poison a n).fab = s.fab := rfl
@[simp] theorem State.poison_reqs (s : State) (a n : Nat) : (s.poison a n).reqs = s.reqs := rfl
@[simp] theorem State.poison_resps (s : State) (a n : Nat) : (s.poison a n).resps = s.resps := rfl
@[simp] theorem State.poison_notices (s : State) (a n : Nat) : (s.poison a n).notices = s.notices := rfl
@[simp] theorem State.poison_records (s : State) (a n : Nat) : (s.poison a n).records = s.records := rfl
@[simp] theorem State.poison_ldlog (s : State) (a n : Nat) : (s.poison a n).ldlog = s.ldlog := rfl
@[simp] theorem State.poison_msix (s : State) (a n : Nat) : (s.poison a n).msix = s.msix := rfl
@[simp] theorem State.poison_msixEn (s : State) (a n : Nat) : (s.poison a n).msixEn = s.msixEn := rfl
@[simp] theorem State.poison_pba (s : State) (a n : Nat) : (s.poison a n).pba = s.pba := rfl
@[simp] theorem State.poison_policy (s : State) (a n : Nat) : (s.poison a n).policy = s.policy := rfl
@[simp] theorem State.poison_cfg (s : State) (a n : Nat) : (s.poison a n).cfg = s.cfg := rfl
@[simp] theorem State.poison_bar (s : State) (a n : Nat) : (s.poison a n).bar = s.bar := rfl
@[simp] theorem State.poison_cxlHeld (s : State) (a n : Nat) : (s.poison a n).cxlHeld = s.cxlHeld := rfl
@[simp] theorem State.poison_out (s : State) (a n : Nat) : (s.poison a n).out = s.out := rfl
@[simp] theorem State.poison_nextId (s : State) (a n : Nat) : (s.poison a n).nextId = s.nextId := rfl
@[simp] theorem State.poison_down (s : State) (a n : Nat) : (s.poison a n).down = s.down := rfl
@[simp] theorem State.poison_freeCtr (s : State) (a n : Nat) : (s.poison a n).freeCtr = s.freeCtr := rfl
@[simp] theorem State.poison_acnt (s : State) (a n : Nat) : (s.poison a n).acnt = s.acnt := rfl
@[simp] theorem State.poison_ladle (s : State) (a n : Nat) : (s.poison a n).ladle = s.ladle := rfl
@[simp] theorem State.poison_runner (s : State) (a n : Nat) : (s.poison a n).runner = s.runner := rfl
@[simp] theorem State.poison_vote (s : State) (a n : Nat) : (s.poison a n).vote = s.vote := rfl
@[simp] theorem State.poison_queue (s : State) (a n : Nat) : (s.poison a n).queue = s.queue := rfl
@[simp] theorem State.poison_saved (s : State) (a n : Nat) : (s.poison a n).saved = s.saved := rfl
@[simp] theorem State.poison_quarDue (s : State) (a n : Nat) : (s.poison a n).quarDue = s.quarDue := rfl
@[simp] theorem State.poison_stby (s : State) (a n : Nat) : (s.poison a n).stby = s.stby := rfl
@[simp] theorem State.poison_pins (s : State) (a n : Nat) : (s.poison a n).pins = s.pins := rfl
@[simp] theorem State.poison_mgt (s : State) (a n : Nat) : (s.poison a n).mgt = s.mgt := rfl
@[simp] theorem State.poison_pwr (s : State) (a n : Nat) : (s.poison a n).pwr = s.pwr := rfl

@[simp] theorem State.clean_pending (s : State) (a n : Nat) (mask : List Bool) : (s.clean a n mask).pending = s.pending := rfl
@[simp] theorem State.clean_regs (s : State) (a n : Nat) (mask : List Bool) : (s.clean a n mask).regs = s.regs := rfl
@[simp] theorem State.clean_mem (s : State) (a n : Nat) (mask : List Bool) : (s.clean a n mask).mem = s.mem := rfl
@[simp] theorem State.clean_pat (s : State) (a n : Nat) (mask : List Bool) : (s.clean a n mask).pat = s.pat := rfl
@[simp] theorem State.clean_cores (s : State) (a n : Nat) (mask : List Bool) : (s.clean a n mask).cores = s.cores := rfl
@[simp] theorem State.clean_m (s : State) (a n : Nat) (mask : List Bool) : (s.clean a n mask).m = s.m := rfl
@[simp] theorem State.clean_fab (s : State) (a n : Nat) (mask : List Bool) : (s.clean a n mask).fab = s.fab := rfl
@[simp] theorem State.clean_reqs (s : State) (a n : Nat) (mask : List Bool) : (s.clean a n mask).reqs = s.reqs := rfl
@[simp] theorem State.clean_resps (s : State) (a n : Nat) (mask : List Bool) : (s.clean a n mask).resps = s.resps := rfl
@[simp] theorem State.clean_notices (s : State) (a n : Nat) (mask : List Bool) : (s.clean a n mask).notices = s.notices := rfl
@[simp] theorem State.clean_records (s : State) (a n : Nat) (mask : List Bool) : (s.clean a n mask).records = s.records := rfl
@[simp] theorem State.clean_ldlog (s : State) (a n : Nat) (mask : List Bool) : (s.clean a n mask).ldlog = s.ldlog := rfl
@[simp] theorem State.clean_msix (s : State) (a n : Nat) (mask : List Bool) : (s.clean a n mask).msix = s.msix := rfl
@[simp] theorem State.clean_msixEn (s : State) (a n : Nat) (mask : List Bool) : (s.clean a n mask).msixEn = s.msixEn := rfl
@[simp] theorem State.clean_pba (s : State) (a n : Nat) (mask : List Bool) : (s.clean a n mask).pba = s.pba := rfl
@[simp] theorem State.clean_policy (s : State) (a n : Nat) (mask : List Bool) : (s.clean a n mask).policy = s.policy := rfl
@[simp] theorem State.clean_cfg (s : State) (a n : Nat) (mask : List Bool) : (s.clean a n mask).cfg = s.cfg := rfl
@[simp] theorem State.clean_bar (s : State) (a n : Nat) (mask : List Bool) : (s.clean a n mask).bar = s.bar := rfl
@[simp] theorem State.clean_cxlHeld (s : State) (a n : Nat) (mask : List Bool) : (s.clean a n mask).cxlHeld = s.cxlHeld := rfl
@[simp] theorem State.clean_out (s : State) (a n : Nat) (mask : List Bool) : (s.clean a n mask).out = s.out := rfl
@[simp] theorem State.clean_nextId (s : State) (a n : Nat) (mask : List Bool) : (s.clean a n mask).nextId = s.nextId := rfl
@[simp] theorem State.clean_down (s : State) (a n : Nat) (mask : List Bool) : (s.clean a n mask).down = s.down := rfl
@[simp] theorem State.clean_freeCtr (s : State) (a n : Nat) (mask : List Bool) : (s.clean a n mask).freeCtr = s.freeCtr := rfl
@[simp] theorem State.clean_acnt (s : State) (a n : Nat) (mask : List Bool) : (s.clean a n mask).acnt = s.acnt := rfl
@[simp] theorem State.clean_ladle (s : State) (a n : Nat) (mask : List Bool) : (s.clean a n mask).ladle = s.ladle := rfl
@[simp] theorem State.clean_runner (s : State) (a n : Nat) (mask : List Bool) : (s.clean a n mask).runner = s.runner := rfl
@[simp] theorem State.clean_vote (s : State) (a n : Nat) (mask : List Bool) : (s.clean a n mask).vote = s.vote := rfl
@[simp] theorem State.clean_queue (s : State) (a n : Nat) (mask : List Bool) : (s.clean a n mask).queue = s.queue := rfl
@[simp] theorem State.clean_saved (s : State) (a n : Nat) (mask : List Bool) : (s.clean a n mask).saved = s.saved := rfl
@[simp] theorem State.clean_quarDue (s : State) (a n : Nat) (mask : List Bool) : (s.clean a n mask).quarDue = s.quarDue := rfl
@[simp] theorem State.clean_stby (s : State) (a n : Nat) (mask : List Bool) : (s.clean a n mask).stby = s.stby := rfl
@[simp] theorem State.clean_pins (s : State) (a n : Nat) (mask : List Bool) : (s.clean a n mask).pins = s.pins := rfl
@[simp] theorem State.clean_mgt (s : State) (a n : Nat) (mask : List Bool) : (s.clean a n mask).mgt = s.mgt := rfl
@[simp] theorem State.clean_pwr (s : State) (a n : Nat) (mask : List Bool) : (s.clean a n mask).pwr = s.pwr := rfl

@[simp] theorem State.notify_pending (s : State) (n : Notice) : (s.notify n).pending = s.pending := rfl
@[simp] theorem State.notify_regs (s : State) (n : Notice) : (s.notify n).regs = s.regs := rfl
@[simp] theorem State.notify_mem (s : State) (n : Notice) : (s.notify n).mem = s.mem := rfl
@[simp] theorem State.notify_pois (s : State) (n : Notice) : (s.notify n).pois = s.pois := rfl
@[simp] theorem State.notify_pat (s : State) (n : Notice) : (s.notify n).pat = s.pat := rfl
@[simp] theorem State.notify_cores (s : State) (n : Notice) : (s.notify n).cores = s.cores := rfl
@[simp] theorem State.notify_m (s : State) (n : Notice) : (s.notify n).m = s.m := rfl
@[simp] theorem State.notify_fab (s : State) (n : Notice) : (s.notify n).fab = s.fab := rfl
@[simp] theorem State.notify_reqs (s : State) (n : Notice) : (s.notify n).reqs = s.reqs := rfl
@[simp] theorem State.notify_resps (s : State) (n : Notice) : (s.notify n).resps = s.resps := rfl
@[simp] theorem State.notify_records (s : State) (n : Notice) : (s.notify n).records = s.records := rfl
@[simp] theorem State.notify_ldlog (s : State) (n : Notice) : (s.notify n).ldlog = s.ldlog := rfl
@[simp] theorem State.notify_msix (s : State) (n : Notice) : (s.notify n).msix = s.msix := rfl
@[simp] theorem State.notify_msixEn (s : State) (n : Notice) : (s.notify n).msixEn = s.msixEn := rfl
@[simp] theorem State.notify_pba (s : State) (n : Notice) : (s.notify n).pba = s.pba := rfl
@[simp] theorem State.notify_policy (s : State) (n : Notice) : (s.notify n).policy = s.policy := rfl
@[simp] theorem State.notify_cfg (s : State) (n : Notice) : (s.notify n).cfg = s.cfg := rfl
@[simp] theorem State.notify_bar (s : State) (n : Notice) : (s.notify n).bar = s.bar := rfl
@[simp] theorem State.notify_cxlHeld (s : State) (n : Notice) : (s.notify n).cxlHeld = s.cxlHeld := rfl
@[simp] theorem State.notify_out (s : State) (n : Notice) : (s.notify n).out = s.out := rfl
@[simp] theorem State.notify_nextId (s : State) (n : Notice) : (s.notify n).nextId = s.nextId := rfl
@[simp] theorem State.notify_down (s : State) (n : Notice) : (s.notify n).down = s.down := rfl
@[simp] theorem State.notify_freeCtr (s : State) (n : Notice) : (s.notify n).freeCtr = s.freeCtr := rfl
@[simp] theorem State.notify_acnt (s : State) (n : Notice) : (s.notify n).acnt = s.acnt := rfl
@[simp] theorem State.notify_ladle (s : State) (n : Notice) : (s.notify n).ladle = s.ladle := rfl
@[simp] theorem State.notify_runner (s : State) (n : Notice) : (s.notify n).runner = s.runner := rfl
@[simp] theorem State.notify_vote (s : State) (n : Notice) : (s.notify n).vote = s.vote := rfl
@[simp] theorem State.notify_queue (s : State) (n : Notice) : (s.notify n).queue = s.queue := rfl
@[simp] theorem State.notify_saved (s : State) (n : Notice) : (s.notify n).saved = s.saved := rfl
@[simp] theorem State.notify_quarDue (s : State) (n : Notice) : (s.notify n).quarDue = s.quarDue := rfl
@[simp] theorem State.notify_stby (s : State) (n : Notice) : (s.notify n).stby = s.stby := rfl
@[simp] theorem State.notify_pins (s : State) (n : Notice) : (s.notify n).pins = s.pins := rfl
@[simp] theorem State.notify_mgt (s : State) (n : Notice) : (s.notify n).mgt = s.mgt := rfl
@[simp] theorem State.notify_pwr (s : State) (n : Notice) : (s.notify n).pwr = s.pwr := rfl

@[simp] theorem State.send_pending (s : State) (mk : Nat → Req) : (s.send mk).pending = s.pending := rfl
@[simp] theorem State.send_regs (s : State) (mk : Nat → Req) : (s.send mk).regs = s.regs := rfl
@[simp] theorem State.send_mem (s : State) (mk : Nat → Req) : (s.send mk).mem = s.mem := rfl
@[simp] theorem State.send_pois (s : State) (mk : Nat → Req) : (s.send mk).pois = s.pois := rfl
@[simp] theorem State.send_pat (s : State) (mk : Nat → Req) : (s.send mk).pat = s.pat := rfl
@[simp] theorem State.send_cores (s : State) (mk : Nat → Req) : (s.send mk).cores = s.cores := rfl
@[simp] theorem State.send_m (s : State) (mk : Nat → Req) : (s.send mk).m = s.m := rfl
@[simp] theorem State.send_fab (s : State) (mk : Nat → Req) : (s.send mk).fab = s.fab := rfl
@[simp] theorem State.send_resps (s : State) (mk : Nat → Req) : (s.send mk).resps = s.resps := rfl
@[simp] theorem State.send_notices (s : State) (mk : Nat → Req) : (s.send mk).notices = s.notices := rfl
@[simp] theorem State.send_records (s : State) (mk : Nat → Req) : (s.send mk).records = s.records := rfl
@[simp] theorem State.send_ldlog (s : State) (mk : Nat → Req) : (s.send mk).ldlog = s.ldlog := rfl
@[simp] theorem State.send_msix (s : State) (mk : Nat → Req) : (s.send mk).msix = s.msix := rfl
@[simp] theorem State.send_msixEn (s : State) (mk : Nat → Req) : (s.send mk).msixEn = s.msixEn := rfl
@[simp] theorem State.send_pba (s : State) (mk : Nat → Req) : (s.send mk).pba = s.pba := rfl
@[simp] theorem State.send_policy (s : State) (mk : Nat → Req) : (s.send mk).policy = s.policy := rfl
@[simp] theorem State.send_cfg (s : State) (mk : Nat → Req) : (s.send mk).cfg = s.cfg := rfl
@[simp] theorem State.send_bar (s : State) (mk : Nat → Req) : (s.send mk).bar = s.bar := rfl
@[simp] theorem State.send_cxlHeld (s : State) (mk : Nat → Req) : (s.send mk).cxlHeld = s.cxlHeld := rfl
@[simp] theorem State.send_out (s : State) (mk : Nat → Req) : (s.send mk).out = s.out := rfl
@[simp] theorem State.send_down (s : State) (mk : Nat → Req) : (s.send mk).down = s.down := rfl
@[simp] theorem State.send_freeCtr (s : State) (mk : Nat → Req) : (s.send mk).freeCtr = s.freeCtr := rfl
@[simp] theorem State.send_acnt (s : State) (mk : Nat → Req) : (s.send mk).acnt = s.acnt := rfl
@[simp] theorem State.send_ladle (s : State) (mk : Nat → Req) : (s.send mk).ladle = s.ladle := rfl
@[simp] theorem State.send_runner (s : State) (mk : Nat → Req) : (s.send mk).runner = s.runner := rfl
@[simp] theorem State.send_vote (s : State) (mk : Nat → Req) : (s.send mk).vote = s.vote := rfl
@[simp] theorem State.send_queue (s : State) (mk : Nat → Req) : (s.send mk).queue = s.queue := rfl
@[simp] theorem State.send_saved (s : State) (mk : Nat → Req) : (s.send mk).saved = s.saved := rfl
@[simp] theorem State.send_quarDue (s : State) (mk : Nat → Req) : (s.send mk).quarDue = s.quarDue := rfl
@[simp] theorem State.send_stby (s : State) (mk : Nat → Req) : (s.send mk).stby = s.stby := rfl
@[simp] theorem State.send_pins (s : State) (mk : Nat → Req) : (s.send mk).pins = s.pins := rfl
@[simp] theorem State.send_mgt (s : State) (mk : Nat → Req) : (s.send mk).mgt = s.mgt := rfl
@[simp] theorem State.send_pwr (s : State) (mk : Nat → Req) : (s.send mk).pwr = s.pwr := rfl

/-! ### Registers -/

theorem Reg.ctorIdx_lt (r : Reg) : r.ctorIdx < 256 := by cases r <;> decide

theorem Reg.ctorIdx_inj {r r' : Reg} (h : r.ctorIdx = r'.ctorIdx) : r = r' := by
  have := congrArg Reg.ofNat h
  rwa [Reg.ofNat_ctorIdx, Reg.ofNat_ctorIdx] at this

/-- Registers are told apart by name, instance and entry (an entry number is below 2^20). -/
theorem Reg.key_inj {r r' : Reg} {i i' j j' : Nat} (hj : j < 2 ^ 20) (hj' : j' < 2 ^ 20)
    (h : r.key i j = r'.key i' j') : r = r' ∧ i = i' ∧ j = j' := by
  have h1 := r.ctorIdx_lt
  have h2 := r'.ctorIdx_lt
  unfold Reg.key at h
  exact ⟨Reg.ctorIdx_inj (by omega), by omega, by omega⟩

@[simp] theorem State.rd_wr_same (s : State) (r : Reg) (i j : Nat) (v : Word64) : (s.wr r i j v).rd r i j = v :=
  Sparse.get_set_same _ _ _ _

theorem State.rd_wr_other (s : State) {r r' : Reg} {i i' j j' : Nat} (v : Word64) (h : r'.key i' j' ≠ r.key i j) :
    (s.wr r i j v).rd r' i' j' = s.rd r' i' j' :=
  Sparse.get_set_other _ _ _ _ h

@[simp] theorem State.rn_wr_same (s : State) (r : Reg) (i j : Nat) (v : Word64) : (s.wr r i j v).rn r i j = v.toNat := by
  simp [State.rn]

@[simp] theorem State.rd_wn_same (s : State) (r : Reg) (i j v : Nat) : (s.wn r i j v).rd r i j = BitVec.ofNat 64 v := by
  simp [State.wn]

@[simp] theorem State.rn_wn_same (s : State) (r : Reg) (i j v : Nat) : (s.wn r i j v).rn r i j = v % 2 ^ 64 := by
  simp [State.rn]

/-- Registers of different names never share a place. -/
theorem Reg.key_ne {r r' : Reg} (h : r' ≠ r) (i j i' j' : Nat) : r'.key i' j' ≠ r.key i j := by
  intro c
  have h1 := r.ctorIdx_lt
  have h2 := r'.ctorIdx_lt
  unfold Reg.key at c
  exact h (Reg.ctorIdx_inj (by omega))

/-! ### Cores and groups -/

@[simp] theorem State.core_setCore_same (s : State) (g : Nat) (c : Core) : (s.setCore g c).core g = c :=
  Sparse.get_set_same _ _ _ _

theorem State.core_setCore_other (s : State) {g g' : Nat} (c : Core) (h : g' ≠ g) : (s.setCore g c).core g' = s.core g' :=
  Sparse.get_set_other _ _ _ _ h

@[simp] theorem State.core_modCore_same (s : State) (g : Nat) (f : Core → Core) : (s.modCore g f).core g = f (s.core g) :=
  State.core_setCore_same s g _

theorem State.core_modCore_other (s : State) {g g' : Nat} (f : Core → Core) (h : g' ≠ g) :
    (s.modCore g f).core g' = s.core g' :=
  State.core_setCore_other s _ h

theorem State.core_of_cores {s t : State} (h : t.cores = s.cores) (g : Nat) : t.core g = s.core g := by
  unfold State.core; rw [h]

theorem State.group_of_cores {s t : State} (h : t.cores = s.cores) (x : Who) : t.group x = s.group x := by
  unfold State.group; rw [State.core_of_cores h]

theorem State.rd_of_regs {s t : State} (h : t.regs = s.regs) (r : Reg) (i j : Nat) : t.rd r i j = s.rd r i j := by
  unfold State.rd; rw [h]

/-- The group found after every group `x` names has been changed, if the change keeps its name. -/
theorem find_map_group (x : Who) (f : Group → Group) (hf : ∀ gr, Group.is x (f gr) = Group.is x gr) (l : List Group) :
    (l.map fun gr => if Group.is x gr then f gr else gr).find? (Group.is x) = (l.find? (Group.is x)).map f := by
  induction l with
  | nil => rfl
  | cons a l ih =>
    by_cases h : Group.is x a = true
    · simp [List.find?, h, hf]
    · simp only [Bool.not_eq_true] at h
      simp [List.find?, h, ih]

theorem State.group_modGroup_same (s : State) (x : Who) (f : Group → Group)
    (hf : ∀ gr, Group.is x (f gr) = Group.is x gr) : (s.modGroup x f).group x = (s.group x).map f := by
  unfold State.modGroup State.group
  rw [State.core_modCore_same]
  exact find_map_group x f hf _

/-! ### The pattern image: what it says depends on its bytes alone -/

theorem State.patB_of_pat {s t : State} (h : t.pat = s.pat) (o : Nat) : t.patB o = s.patB o := by
  unfold State.patB; rw [h]

theorem State.patLe_of_pat {s t : State} (h : t.pat = s.pat) (n : Nat) : ∀ o, t.patLe o n = s.patLe o n := by
  induction n with
  | zero => intro o; rfl
  | succ n ih => intro o; simp only [State.patLe, ih, State.patB_of_pat h]

theorem State.secGo_of_pat {s t : State} (h : t.pat = s.pat) (ty n : Nat) : ∀ o, t.secGo ty n o = s.secGo ty n o := by
  induction n with
  | zero => intro o; rfl
  | succ n ih => intro o; simp only [State.secGo, ih, State.patLe_of_pat h]

theorem State.sec_of_pat {s t : State} (h : t.pat = s.pat) (ty : Nat) : t.sec ty = s.sec ty :=
  State.secGo_of_pat h ty 8 0

theorem State.nf_of_pat {s t : State} (h : t.pat = s.pat) : t.nf = s.nf := by
  unfold State.nf; rw [State.sec_of_pat h]

theorem State.flk_of_pat {s t : State} (h : t.pat = s.pat) (f o n : Nat) : t.flk f o n = s.flk f o n := by
  unfold State.flk; rw [State.sec_of_pat h, State.nf_of_pat h, State.patLe_of_pat h]

theorem State.isGuest_of_pat {s t : State} (h : t.pat = s.pat) (f : Nat) : t.isGuest f = s.isGuest f := by
  unfold State.isGuest; rw [State.flk_of_pat h]

theorem State.window_of_pat {s t : State} (h : t.pat = s.pat) (f w : Nat) : t.window f w = s.window f w := by
  unfold State.window; simp only [State.flk_of_pat h]

theorem State.nwin_of_pat {s t : State} (h : t.pat = s.pat) (f : Nat) : t.nwin f = s.nwin f := by
  unfold State.nwin; rw [State.flk_of_pat h]

theorem State.inMap_of_pat {s t : State} (h : t.pat = s.pat) (f g : Nat) : t.inMap f g = s.inMap f g := by
  unfold State.inMap; rw [State.flk_of_pat h]

theorem State.region_of_pat {s t : State} (h : t.pat = s.pat) (r : Nat) : t.region r = s.region r := by
  unfold State.region; simp only [State.sec_of_pat h, State.patLe_of_pat h]

theorem State.coreRec_of_pat {s t : State} (h : t.pat = s.pat) (g : Nat) : t.coreRec g = s.coreRec g := by
  unfold State.coreRec; simp only [State.sec_of_pat h, State.patB_of_pat h]

theorem State.guestOf_of_pat {s t : State} (h : t.pat = s.pat) (g : Nat) : t.guestOf g = s.guestOf g := by
  unfold State.guestOf; rw [State.coreRec_of_pat h]

end Sys2Proof.Machine
end

