-- ==== Sys2Proof/Laws/Issue.lean ====
section
/-! SUPPORT. Laws of presenting and issuing an instruction: when it is not issued, when it faults, what its issue leaves alone. -/

namespace Sys2Proof.Machine

@[simp] theorem Group.is_advance (x : Who) (gr : Group) : Group.is x gr.advance = Group.is x gr := rfl
@[simp] theorem Group.is_setUnif (x : Who) (gr : Group) (i : Nat) (v : Word64) (p : Bool) :
    Group.is x (gr.setUnif i v p) = Group.is x gr := rfl
@[simp] theorem Group.is_setLane (x : Who) (gr : Group) (r l : Nat) (v : Word32) (p : Bool) :
    Group.is x (gr.setLane r l v p) = Group.is x gr := rfl
@[simp] theorem Group.is_setMask (x : Who) (gr : Group) (i : Nat) (v : Word64) (p : Bool) :
    Group.is x (gr.setMask i v p) = Group.is x gr := by unfold Group.setMask; split <;> rfl
@[simp] theorem Group.is_jump (x : Who) (gr : Group) (t : Nat) : Group.is x (gr.jump t) = Group.is x gr := rfl

/-! ### Registers of a group: read after write -/

@[simp] theorem Group.unif_setUnif_same (gr : Group) (i : Nat) (v : Word64) (p : Bool) : (gr.setUnif i v p).unif i = v :=
  Sparse.get_set_same _ _ _ _

theorem Group.unif_setUnif_other (gr : Group) {i j : Nat} (v : Word64) (p : Bool) (h : j ≠ i) :
    (gr.setUnif i v p).unif j = gr.unif j :=
  Sparse.get_set_other _ _ _ _ h

@[simp] theorem Group.unifP_setUnif_same (gr : Group) (i : Nat) (v : Word64) (p : Bool) :
    (gr.setUnif i v p).unifP i = p := by
  cases p <;> simp [Group.unifP, Group.setUnif]

theorem Group.unifP_setUnif_other (gr : Group) {i j : Nat} (v : Word64) (p : Bool) (h : j ≠ i) :
    (gr.setUnif i v p).unifP j = gr.unifP j := by
  cases p <;> simp [Group.unifP, Group.setUnif, h]

@[simp] theorem Group.lane_setLane_same (gr : Group) (r l : Nat) (v : Word32) (p : Bool) :
    (gr.setLane r l v p).lane r l = v :=
  Sparse.get_set_same _ _ _ _

theorem Group.lane_setLane_other (gr : Group) {r l r' l' : Nat} (v : Word32) (p : Bool) (h : 64 * r' + l' ≠ 64 * r + l) :
    (gr.setLane r l v p).lane r' l' = gr.lane r' l' :=
  Sparse.get_set_other _ _ _ _ h

@[simp] theorem Group.laneP_setLane_same (gr : Group) (r l : Nat) (v : Word32) (p : Bool) :
    (gr.setLane r l v p).laneP r l = p := by
  cases p <;> simp [Group.laneP, Group.setLane]

theorem Group.laneP_setLane_other (gr : Group) {r l r' l' : Nat} (v : Word32) (p : Bool)
    (h : 64 * r' + l' ≠ 64 * r + l) : (gr.setLane r l v p).laneP r' l' = gr.laneP r' l' := by
  cases p <;> simp [Group.laneP, Group.setLane, h]

theorem Group.mask_setMask_same (gr : Group) {i : Nat} (v : Word64) (p : Bool) (h : i ≠ 0) :
    (gr.setMask i v p).mask i = v := by
  simp only [Group.mask, Group.setMask, h, if_false]
  exact Sparse.get_set_same _ _ _ _

theorem Group.mask_setMask_other (gr : Group) {i j : Nat} (v : Word64) (p : Bool) (h : j ≠ i) :
    (gr.setMask i v p).mask j = gr.mask j := by
  unfold Group.mask Group.setMask
  split
  · rfl
  · split
    · rfl
    · exact Sparse.get_set_other _ _ _ _ h

/-- k0 reads as all ones, whatever is written to it (R131). -/
@[simp] theorem Group.mask_zero (gr : Group) : gr.mask 0 = BitVec.allOnes 64 := rfl

@[simp] theorem Group.setMask_zero (gr : Group) (v : Word64) (p : Bool) : gr.setMask 0 v p = gr := rfl

/-! ### Reading the word -/

theorem State.raiseVec_only (s : State) (ld v : Nat) :
    s.raiseVec ld v = { s with out := (s.raiseVec ld v).out, pba := (s.raiseVec ld v).pba } := by
  unfold State.raiseVec
  dsimp only
  split <;> rfl

theorem State.logTo_only (s : State) (f c n : Nat) :
    s.logTo f c n = { s with ldlog := (s.logTo f c n).ldlog, out := (s.logTo f c n).out, pba := (s.logTo f c n).pba } := by
  unfold State.logTo
  dsimp only
  generalize (if c ≥ 3 then 2 else 0) = l
  split
  · rw [State.raiseVec_only]
  · rfl

theorem State.keep_only (s : State) (r : Record) :
    s.keep r = { s with records := (s.keep r).records, regs := (s.keep r).regs } := by
  unfold State.keep
  split
  · rfl
  · split <;> rfl

theorem State.record_only (s : State) (cls code src inst : Nat) (fl : Option Nat) (d0 d1 d2 : Nat) :
    s.record cls code src inst fl d0 d1 d2 = { s with regs := (s.record cls code src inst fl d0 d1 d2).regs, records := (s.record cls code src inst fl d0 d1 d2).records, out := (s.record cls code src inst fl d0 d1 d2).out, ldlog := (s.record cls code src inst fl d0 d1 d2).ldlog, pba := (s.record cls code src inst fl d0 d1 d2).pba } := by
  unfold State.record
  dsimp only
  by_cases h : s.rf .NET 0 0 48 48 = 1
  · simp only [h, if_true]
    rw [State.keep_only]
    cases fl
    · rfl
    · dsimp only
      rw [State.logTo_only]
      rfl
  · simp only [h, if_false]
    rw [State.keep_only]
    cases fl
    · rfl
    · dsimp only
      rw [State.logTo_only]
      rfl

theorem State.corr_only (s : State) (r : Reg) (i j src inst kind : Nat) :
    s.corr r i j src inst kind = { s with regs := (s.corr r i j src inst kind).regs, records := (s.corr r i j src inst kind).records, out := (s.corr r i j src inst kind).out, ldlog := (s.corr r i j src inst kind).ldlog, pba := (s.corr r i j src inst kind).pba } := by
  unfold State.corr
  dsimp only
  split
  · rw [State.record_only]; rfl
  · rfl

theorem State.scrubWord_only (s : State) (w : Nat) :
    s.scrubWord w = { s with m := (s.scrubWord w).m, regs := (s.scrubWord w).regs, records := (s.scrubWord w).records, out := (s.scrubWord w).out, ldlog := (s.scrubWord w).ldlog, pba := (s.scrubWord w).pba, pois := (s.scrubWord w).pois } := by
  unfold State.scrubWord
  split
  · rfl
  · dsimp only
    split
    · rw [State.corr_only]
    · rw [State.record_only]; rfl

/-- `t` differs from `s` only where an error of storage and its record are kept. -/
def Scrubbed (s t : State) : Prop := t = { s with m := t.m, regs := t.regs, records := t.records, out := t.out, ldlog := t.ldlog, pba := t.pba, pois := t.pois }

theorem Scrubbed.refl (s : State) : Scrubbed s s := rfl

theorem Scrubbed.trans {s t u : State} (h1 : Scrubbed s t) (h2 : Scrubbed t u) : Scrubbed s u := by
  cases s; cases t; cases u
  simp only [Scrubbed, State.mk.injEq, true_and] at *
  simp [h1, h2]

theorem State.scrubWord_scrubbed (s : State) (w : Nat) : Scrubbed s (s.scrubWord w) := State.scrubWord_only s w

theorem State.scrubs_scrubbed (ws : List Nat) : ∀ s : State, Scrubbed s (ws.foldl State.scrubWord s) := by
  induction ws with
  | nil => exact Scrubbed.refl
  | cons w ws ih => exact fun s => (State.scrubWord_scrubbed s w).trans (ih _)

theorem State.scrub_only (s : State) (a n : Nat) : Scrubbed s (s.scrub a n) := by
  unfold State.scrub
  split
  · exact Scrubbed.refl s
  · exact State.scrubs_scrubbed _ s

theorem State.poisEvent_only (s : State) (f : Nat) (p : Bool) :
    s.poisEvent f p = { s with notices := (s.poisEvent f p).notices } := by
  unfold State.poisEvent
  split <;> rfl

/-- As `Scrubbed`, and notices may be put in flight. -/
def Noted (s t : State) : Prop := t = { s with m := t.m, regs := t.regs, records := t.records, out := t.out, ldlog := t.ldlog, pba := t.pba, pois := t.pois, notices := t.notices }

theorem Noted.of_scrubbed {s t u : State} (h : Scrubbed s t) (hu : u = { t with notices := u.notices }) : Noted s u := by
  cases s; cases t; cases u
  simp only [Scrubbed, Noted, State.mk.injEq, true_and] at *
  simp [h, hu]

/-- Reading the word changes no core, no byte and no unit (R138, R195). -/
theorem State.fetched_only (s : State) (x : Who) (pc : Nat) : Noted s (s.fetched x pc) :=
  Noted.of_scrubbed (State.scrub_only s (lsAt x.core pc) 8) (State.poisEvent_only _ _ _)

theorem State.fetched_cores (s : State) (x : Who) (pc : Nat) : (s.fetched x pc).cores = s.cores := by
  rw [State.fetched_only s x pc]

theorem State.poisEvent_notices (s : State) (f : Nat) (p : Bool) :
    (s.poisEvent f p).notices = s.notices ++ if p then [.stepEv f 0] else [] := by
  cases p <;> simp [State.poisEvent, State.stepEvent, State.notify]

/-- A word without a latent error or poison is read with no other effect. -/
theorem State.fetched_clean (s : State) (x : Who) (pc : Nat) (h : s.m.lerr = [])
    (hp : s.poisoned (lsAt x.core pc) 8 = false) : s.fetched x pc = s := by
  simp [State.fetched, State.scrub, h, hp, State.poisEvent]

/-! ### Issue -/

theorem present_issues {x : Who} {gr : Group} {s : State} {held : State → Group → Bool} {chk : Check}
    {eff : State → Group → State} (hg : s.group x = some gr) (hr : (s.core x.core).runs x.strm = true)
    (hf : s.fetchOk x gr.pc = true) (hh : held s gr = false) (hc : chk s gr = none) :
    present x held chk eff s = eff ((s.fetched x gr.pc).retire x) gr := by
  simp [present, hg, hr, hf, hh, hc]

theorem present_faults {x : Who} {gr : Group} {s : State} {held : State → Group → Bool} {chk : Check}
    {eff : State → Group → State} {e : Nat × Nat} (hg : s.group x = some gr)
    (hr : (s.core x.core).runs x.strm = true) (hf : s.fetchOk x gr.pc = true) (hh : held s gr = false)
    (hc : chk s gr = some e) :
    present x held chk eff s = ((s.fetched x gr.pc).countIssue x).raise x e.1 gr.pc e.2 := by
  simp [present, hg, hr, hf, hh, hc]

theorem presentReg_issues {x : Who} {gr : Group} {s : State} {regs : List Nat} {chk : Check}
    {eff : State → Group → State} (h : Issues s x gr false regs) (hc : chk s gr = none) :
    presentReg x regs chk eff s = eff ((s.fetched x gr.pc).retire x) gr :=
  present_issues h.here h.runs h.fetch h.free hc

theorem presentMem_issues {x : Who} {gr : Group} {s : State} {regs : List Nat} {chk : Check}
    {eff : State → Group → State} (h : Issues s x gr true regs) (hc : chk s gr = none) :
    presentMem x regs chk eff s = eff ((s.fetched x gr.pc).retire x) gr :=
  present_issues h.here h.runs h.fetch h.free hc

theorem State.countIssue_only (s : State) (x : Who) : s.countIssue x = { s with regs := (s.countIssue x).regs } := by
  unfold State.countIssue
  dsimp only
  split
  · split
    · split <;> rfl
    · rfl
  · rfl

theorem State.countIssue_other (s : State) (x : Who) {d : Word64} {k : Nat}
    (h1 : k ≠ Reg.key .ISSUE x.core (streamNum x.strm)) (h2 : k ≠ Reg.key .GSTARVE x.core 0) :
    Sparse.get d (s.countIssue x).regs k = Sparse.get d s.regs k := by
  unfold State.countIssue
  dsimp only
  have hI : ∀ s : State, Sparse.get d (s.addWrap .ISSUE x.core (streamNum x.strm) 1).regs k = Sparse.get d s.regs k :=
    fun s => Sparse.get_set_other _ _ _ _ h1
  have hG : ∀ (s : State) (v : Nat), Sparse.get d (s.wn .GSTARVE x.core 0 v).regs k = Sparse.get d s.regs k :=
    fun s v => Sparse.get_set_other _ _ _ _ h2
  split
  · split
    · split
      · rw [hG, hI]
      · simp only [State.wf, hG, hI]
    · simp only [State.wf, hG, hI]
  · rw [hI]

theorem State.countIssue_count (s : State) (x : Who) :
    (s.countIssue x).rd .ISSUE x.core (streamNum x.strm) = s.rd .ISSUE x.core (streamNum x.strm) + 1 := by
  unfold State.countIssue
  dsimp only
  have hI : (s.addWrap .ISSUE x.core (streamNum x.strm) 1).rd .ISSUE x.core (streamNum x.strm)
      = s.rd .ISSUE x.core (streamNum x.strm) + 1 := by simp [State.addWrap]
  have hG : ∀ (s : State) (v : Nat), (s.wn .GSTARVE x.core 0 v).rd .ISSUE x.core (streamNum x.strm)
      = s.rd .ISSUE x.core (streamNum x.strm) :=
    fun s v => State.rd_wr_other _ _ (Reg.key_ne (by decide) _ _ _ _)
  split
  · split
    · split
      · rw [hG, hI]
      · simp only [State.wf, hG, hI]
    · simp only [State.wf, hG, hI]
  · rw [hI]

/-- The peers of a changed group. -/
theorem State.group_modGroup_other (s : State) {x y : Who} (f : Group → Group)
    (hf : ∀ gr, ∀ z, Group.is z (f gr) = Group.is z gr) (h : y ≠ x) : (s.modGroup x f).group y = s.group y := by
  unfold State.group
  by_cases hc : y.core = x.core
  · unfold State.modGroup
    rw [hc, State.core_modCore_same]
    unfold Core.group
    dsimp only
    induction (s.core x.core).groups with
    | nil => rfl
    | cons a l ih =>
      by_cases hx : Group.is x a = true
      · have hy : Group.is y a = false := by
          obtain ⟨yc, ys, yg⟩ := y; obtain ⟨xc, xs, xg⟩ := x
          simp only [Group.is, Bool.and_eq_true, decide_eq_true_eq, Who.mk.injEq, ne_eq, not_and] at *
          by_contra hn
          simp only [Bool.not_eq_false, Bool.and_eq_true, decide_eq_true_eq] at hn
          exact h hc (by rw [← hn.1, hx.1]) (by rw [← hn.2, hx.2])
        simp [List.find?, hx, hy, hf, ih]
      · simp only [Bool.not_eq_true] at hx
        by_cases hy : Group.is y a = true
        · simp [List.find?, hx, hy]
        · simp only [Bool.not_eq_true] at hy
          simp [List.find?, hx, hy, ih]
  · unfold State.modGroup
    rw [State.core_modCore_other _ _ hc]

/-- An instruction that only changes its own group retires with that change. -/
theorem retired_regEff {x : Who} {gr : Group} {b : State} (f : Group → Group) (p : Bool)
    (hf : ∀ h z, Group.is z (f h) = Group.is z h) (hg : b.group x = some gr) :
    Retired x (f gr.advance) p b ((b.retire x).regEff x f p) := by
  have hcores : ((b.retire x).regEff x f p).cores = ((b.retire x).modGroup x f).cores := by
    unfold State.regEff; rw [State.poisEvent_only]
  have hregs : ((b.retire x).regEff x f p).regs = (b.countIssue x).regs := by
    unfold State.regEff; rw [State.poisEvent_only]; rfl
  have hci : ∀ g, (b.countIssue x).core g = b.core g := by
    intro g; rw [State.countIssue_only]; rfl
  have hgr : (b.retire x).group x = some gr.advance := by
    unfold State.retire
    rw [State.group_modGroup_same _ _ Group.advance (fun _ => rfl)]
    unfold State.group
    rw [State.core_modCore_same, hci]
    unfold State.group at hg
    simpa [Core.group] using congrArg (Option.map Group.advance) hg
  have hlast : (b.retire x).core x.core
      = { b.core x.core with groups := ((b.retire x).core x.core).groups,
                             lastq := (b.core x.core).lastq.set (streamNum x.strm) x.grp } := by
    unfold State.retire State.modGroup
    simp only [State.core_modCore_same, hci]
  refine ⟨?_, ?_, ?_, ?_, ?_, ?_, ?_, ?_⟩
  · unfold State.regEff
    rw [State.poisEvent_only]
    unfold State.retire
    rw [State.countIssue_only]
    rfl
  · rw [State.rd_of_regs hregs, State.countIssue_count]
  · intro d k h1 h2
    rw [hregs]
    exact State.countIssue_other b x h1 h2
  · rw [State.group_of_cores hcores, State.group_modGroup_same _ _ _ (fun h => hf h x), hgr]
    rfl
  · intro y hy
    rw [State.group_of_cores hcores, State.group_modGroup_other _ _ hf hy]
    unfold State.retire
    rw [State.group_modGroup_other _ Group.advance (fun _ _ => rfl) hy]
    unfold State.group
    by_cases hc : y.core = x.core
    · rw [hc, State.core_modCore_same, hci]; rfl
    · rw [State.core_modCore_other _ _ hc, hci]
  · intro g hne
    rw [State.core_of_cores hcores]
    unfold State.retire State.modGroup
    rw [State.core_modCore_other _ _ hne, State.core_modCore_other _ _ hne, State.core_modCore_other _ _ hne, hci]
  · rw [State.core_of_cores hcores]
    unfold State.modGroup
    rw [State.core_modCore_same, hlast]
  · unfold State.regEff
    rw [State.poisEvent_notices]
    have h1 : ((b.retire x).modGroup x f).notices = b.notices := by
      unfold State.retire; rw [State.countIssue_only]; rfl
    have hp : (b.retire x).pat = b.pat := by
      unfold State.retire; rw [State.countIssue_only]; rfl
    have h2 : (b.retire x).flaskOf x = b.flaskOf x := by
      unfold State.flaskOf
      rw [State.guestOf_of_pat hp, hlast]
    rw [h1, h2]

end Sys2Proof.Machine
end

