-- ==== Sys2Proof/Laws/Memory.lean ====
section
/-! SUPPORT. Laws of memory: the canonical form through every operation that changes it, and what a byte reads after a write. -/

namespace Sys2Proof.Machine

/-! ### The canonical form -/

theorem reset_memory_wf : Memory.wf State.reset.mem := Sparse.wf_nil 0

/-- Writing bytes keeps the canonical form. -/
theorem putBytes_wf {m : List Host.Cell} (h : Memory.wf m) (a : Nat) (mask : List Bool) (bs : List Byte) :
    Memory.wf (putBytes m a mask bs) := by
  induction bs generalizing m a mask with
  | nil => exact h
  | cons b bs ih =>
    refine ih ?_ _ _
    split
    · exact Sparse.wf_set h a b
    · exact h

theorem State.put_wf {s : State} (h : Memory.wf s.mem) (a : Nat) (mask : List Bool) (bs : List Byte) : Memory.wf (s.put a mask bs).mem :=
  putBytes_wf h a mask bs

/-- Leaving bytes out (zeroing them) keeps the canonical form. -/
theorem memory_filter_wf {m : List Host.Cell} (h : Memory.wf m) (p : Host.Cell → Bool) : Memory.wf (m.filter p) := Sparse.wf_filter h p

/-- Putting saved bytes back keeps the canonical form. -/
theorem memory_foldl_wf (f : Host.Cell → Nat) (l : List Host.Cell) {m : List Host.Cell} (h : Memory.wf m) :
    Memory.wf (l.foldl (fun m e => Sparse.set 0 m (f e) e.2) m) := by
  induction l generalizing m with
  | nil => exact h
  | cons e l ih => exact ih (Sparse.wf_set h _ _)

theorem State.zeroLs_wf {s : State} (h : Memory.wf s.mem) (g lo hi : Nat) : Memory.wf (s.zeroLs g lo hi).mem := memory_filter_wf h _

/-! ### Reading back -/

/-- The bytes a masked write selects, read back; the mask that ends early selects the rest. -/
theorem get_putBytes (m : List Host.Cell) (a : Nat) (mask : List Bool) (bs : List Byte) (k : Nat) :
    Sparse.get 0 (putBytes m a mask bs) k
      = if a ≤ k ∧ k < a + bs.length ∧ mask.getD (k - a) true = true then bs.getD (k - a) 0 else Sparse.get 0 m k := by
  induction bs generalizing m a mask with
  | nil => simp [putBytes]; omega
  | cons b bs ih =>
    rw [putBytes, ih]
    rcases Nat.lt_trichotomy k a with h | h | h
    · simp only [show ¬(a + 1 ≤ k) by omega, show ¬(a ≤ k) by omega, false_and, if_false]
      split
      · exact Sparse.get_set_other _ _ _ _ (by omega)
      · rfl
    · subst h
      rw [if_neg (by omega)]
      cases mask with
      | nil => simp
      | cons x l => cases x <;> simp
    · obtain ⟨j, rfl⟩ : ∃ j, k = a + 1 + j := ⟨k - a - 1, by omega⟩
      have e : a + 1 + j - a = j + 1 := by omega
      have hm : mask.tail.getD j true = mask.getD (j + 1) true := by cases mask <;> simp
      rw [show a + 1 + j - (a + 1) = j from by omega, e, hm, List.getD_cons_succ]
      have hg : Sparse.get 0 (if mask.headD true = true then Sparse.set 0 m a b else m) (a + 1 + j) = Sparse.get 0 m (a + 1 + j) := by
        split
        · exact Sparse.get_set_other _ _ _ _ (by omega)
        · rfl
      rw [hg]
      by_cases c : j < bs.length ∧ mask.getD (j + 1) true = true
      · rw [if_pos ⟨by omega, by omega, c.2⟩, if_pos ⟨by omega, by simp; omega, c.2⟩]
      · rw [if_neg fun h => c ⟨by omega, h.2.2⟩, if_neg fun h => c ⟨by have := h.2.1; simp at this; omega, h.2.2⟩]

/-- A byte outside a write reads as before. -/
theorem State.byte_put_other (s : State) {a k : Nat} (mask : List Bool) {bs : List Byte} (h : k < a ∨ a + bs.length ≤ k) :
    (s.put a mask bs).byte k = s.byte k := by
  unfold State.byte State.put
  rw [get_putBytes, if_neg (by omega)]

/-- A byte of an unmasked write reads as written. -/
theorem State.byte_put_same (s : State) {a i : Nat} {bs : List Byte} (h : i < bs.length) : (s.put a [] bs).byte (a + i) = bs.getD i 0 := by
  unfold State.byte State.put
  rw [get_putBytes, if_pos ⟨by omega, by omega, by simp⟩, Nat.add_sub_cancel_left]

end Sys2Proof.Machine
end

