-- ==== Sys2Proof/WellFormed.lean ====
section
/-! DEFINITION. The commands whose operands name what the module has: a core, flask, port, channel or node that exists, a message or
a flit of the stated size. The meanings are total; what a command that names no unit of the module does is of no account. -/

namespace Sys2Proof

/-- A core (R4): 4,096 of them. -/
def coreOk (g : Nat) : Bool := g < 4096
/-- A flask, or its LD (R42): 16 of them. -/
def flaskOk (f : Nat) : Bool := f < 16
/-- A fabric port (R42, R482): 16 of them. -/
def portOk (p : Nat) : Bool := p < 16
/-- A DRAM channel (R42): 384 of them. -/
def chanOk (c : Nat) : Bool := c < 384
/-- A node (R321): 14 bits. -/
def nodeOk (d : Nat) : Bool := d < 16384
/-- A fabric message (R321): its data part has the length its header gives. -/
def msgOk (m : Msg) : Bool := m.data.length = 4 * (m.w0.toNat / 2 ^ 52 % 512)
/-- What a lane's decoder saw (R309, R310): eight lanes, 544 symbols of 10 bits. -/
def laneOk (w : LaneWord) : Bool := w.lane < 8 && w.errs.all fun e => e.1 < 544 && e.2 < 1024
/-- A crossing between dies that exist (R2, R28): four compute dies, eight memory-side dies, two I/O dies. -/
def crossOk : Crossing → Bool
  | .link a b => a < 4 && b < 4 && a ≠ b
  | .mem d m => d < 4 && m < 8
  | .io d i => d < 4 && i < 2
/-- A PLL of R482. -/
def pllOk : PllUnit → Bool
  | .cluster k => k < 64
  | .other kind _ => kind ≠ 0
/-- The management controller, or the host of an LD. -/
def pathOk : RegPath → Bool
  | .mgmt => true
  | .cxl ld | .bar ld => flaskOk ld

/-- The operands of a command are within what the module has. -/
def Instr.wf : Instr → Bool
  | .linkFailed c => crossOk c
  | .registerWrite p off width _ => pathOk p && off < 2 ^ 40 && (width = 2 || width = 4 || width = 8)
  | .nop x _ | .umov x _ | .umovh x _ | .uadd x _ | .usub x _ | .umul x _ | .uand x _ | .uor x _ | .uxor x _
    | .ushl x _ | .ushr x _ | .usar x _ | .umin x _ | .umax x _ | .uslt x _ | .ugid x _ | .br x _ | .brc x _
    | .brm x _ | .exit x _ | .mwait x _ | .unlistedOpcode x _ | .iadd x _ | .isub x _ | .iand x _ | .ior x _
    | .ixor x _ | .ishl x _ | .ishr x _ | .isar x _ | .imov x _ | .sel x _ | .lid x _ | .fabs x _ | .fneg x _
    | .icmp x _ | .fcmp x _ | .kop x _ | .kmovu x _ | .umovk x _ | .fadd x _ | .fsub x _ | .fmul x _ | .ffma x _
    | .fmin x _ | .fmax x _ | .itof x _ | .utof x _ | .ftoi x _ | .ftou x _ | .widh x _ | .widb x _ | .fexp2 x _
    | .flog2 x _ | .frcp x _ | .frsq x _ | .fdiv x _ | .fsqrt x _ | .perm x _ | .bcst x _ | .rdl x _ | .wadd x _
    | .wmul x _ | .wtree x _ | .ld x _ | .ldh x _ | .ldb x _ | .st x _ | .ldu x _ | .stu x _ | .atom x _ | .fence x _
    | .pfset x _ | .cvt x _ | .castl x _ | .casts x _ | .castm x _ | .rcset x _ | .rcget x _ | .rcclr x _ | .mload x _
    | .mstream x _ | .mdrain x _ | .lcmk x _ | .bar x _ | .signal x _ | .swait x _ | .dma x _ | .qput x _ | .qtake x _
    | .rnext x _ | .rfree x _ | .watchdogFault x => coreOk x.core
  | .loadResponse _ | .atomResponse _ | .storeAcknowledgement _ | .cacheFill _ | .llcRequest _ | .nearMemoryRequest _
    | .barrierArrival _ | .barrierDeparture _ | .signalUpdate _ | .pollReturn _ | .remoteRequestIntake _
    | .lnkNodeWrite _ | .stepEventNotice _ | .faultNotice _ | .identify | .getLdInfo | .getLdAllocations
    | .setLdAllocations _ | .getQosControl | .ideIntegrityFailure | .cxlPerst _ | .cxlLinkStateChange _ _ _ _
    | .powerOnResetRelease | .parameterTableRead _ | .slotHeadersRead | .imageRead | .signatureVerify
    | .pllLockAndLinkTraining _ _ _ _ | .lpddr6Training _ | .dramZeroing | .registerLoad | .identitySignature
    | .jobInstallVerify | .jobInstallWrite | .telemetrySend | .managementDatagram _ _ | .reassemblyTimeout _ _
    | .neighbourDiscovery _ _ _ | .fatalRecordResend | .ethernetLinkUp | .errClrRdrop | .errClrCc | .errClrLs
    | .crystalLoss | .pwrCmdWake | .pwrCmdStandby | .standbyExit | .rotaRestart | .thermalTrip _ _ | .rstCmdModule
    | .moduleResetPin _ | .inputRising | .undervoltage | .overvoltage | .overcurrent | .powerOnResetAssert
    | .leakDetected | .moduleResetRelease | .alwaysOnSupplyStart | .alwaysOnSupplyLoss | .apertureAccess _
    | .ethernetLinkDown => true
  | .mloadGrant g | .mstreamGrant g | .edgeLanding g | .mdrainGrant g | .arrayZeroingEnd g | .mxclrGate g
    | .mxclrVec g | .mxclrEdge g | .mxclrAln g | .exclrAtom g | .exclrIssue g | .syncclrPoll g | .launchAccept g _
    | .splitZeroingEnd g | .guaranteedModeStart g | .guaranteedModeEnd g | .sequencerMismatch g _ | .quarantineReset g
    | .prefetchLineRequest g | .dmaStart g _ | .dmaSignalUpdate g _ | .strikeQuarantine g | .wakeEvent g
    | .wakeComplete g | .holdEntry g => coreOk g
  | .planeReady g pl => coreOk g && pl < 2
  | .rcclrClear g slot => coreOk g && slot < 64
  | .bankSlot c slot => chanOk c && slot < 32
  | .dramDataArrival line | .backingRestoreComplete line => line < 3 * 2 ^ 33
  | .refreshSlot c _ _ | .scrubSlot c | .chnClrPin c | .chnClrScrub c | .chnClrRs c | .rotaStop c => chanOk c
  | .dgctlSnap m mask => m < 8 && mask < 2 ^ 16
  | .msdClrRest m | .msdClrPois m | .msdClrLlc m => m < 8
  | .landingNotice src tsl _ => nodeOk src && tsl < 4
  | .flitSlot p | .keepaliveTimeout p | .electricalIdle p | .portTraining p _ _ | .moduleStartTimeout p | .portUp p
    | .lnkCtlEn p _ | .portReset p | .lnkClrFlit p | .lnkClrDrop p | .lnkClrReject p | .lnkClrDown p | .lnkClrReplay p
    | .lnkClrFec p | .cageInsertion p _ | .cageRemoval p | .cageOvercurrent p | .cmisModuleReady p => portOk p
  | .dataFlit p fec flit | .keepalive p fec flit | .skip p fec flit | .idle p fec flit =>
    portOk p && flit.length = 200 && fec.all laneOk
  | .rd p m | .wr p m | .wrm p m | .atomMessage p m | .floor p m | .cmp p m | .rdrsp p m | .atrsp p m | .unreach p m
    | .unknownOpcodeMessage p m | .copyAgeDiscard p m | .leaf p m _ | .part p m _ | .late p m _ | .tund p m
    | .rblk p m | .rcrd p m | .qrdy p m | .qcrd p m | .voteUp p m | .voteDecision p m | .jobctlProbe p m
    | .jobctlAbort p m => portOk p && msgOk m
  | .floorSend d => nodeOk d
  | .lnkRouteWrite d mask => nodeOk d && mask < 2 ^ 16
  | .jobCommit f | .evalHold f _ | .tbarWrite f _ | .queueEnable f _ | .sqDoorbell f _ | .cqHeadWrite f _
    | .descriptorTake f | .seqReread f | .queueNop f | .launch f | .glaunch f | .queueSignal f | .wait f | .waitPoll f
    | .waitTimeout f | .copy f | .save f | .restore f | .imodTimer f | .shakeOut f | .shakeOutDrainEnd f | .ldReset f
    | .qclrHerr f => flaskOk f
  | .gradientMark m | .updateMark m => coreOk m.who.core && flaskOk m.flask
  | .layerReductionStart i g _ | .lateCreditReturn i g | .layerAbandon i g _ | .broadcastWaitExpiry i g _ => i < 2 && g < 4
  | .ldlClrChk i | .ldlClrNf i | .ldlClrLate i | .ldlClrDup i | .ldlClrStale i | .runClrDup i => i < 2
  | .ldlGcfgWrite g _ => g < 4
  | .rblkSend ctx => ctx < 32
  | .ldlVcfgWrite v _ | .stepEndPoll v | .riserCopyComplete v | .moduleTerm v | .voteWaitExpiry v _ | .probeTimer v
    | .stepCompletion v | .replayResponsePoll v | .replayTimeout v | .pourFinish v _ | .riserRestore v _ => v < 4
  | .bindingNotice f g | .completionNotice f g => flaskOk f && coreOk g
  | .cxlMemRead h _ | .getEventInterruptPolicy h | .setEventInterruptPolicy h _
    | .getFwInfo h | .getSupportedLogs h | .getLog h | .identifyMemoryDevice h | .getHealthInfo h
    | .getPoisonList h _ _ | .discovery h | .cxlTableAccess h => flaskOk h
  | .cxlMemWrite h _ data _ _ | .clearPoison h _ data => flaskOk h && data.length = 64
  | .getEventRecords h log | .clearEventRecords h log _ => flaskOk h && log < 4
  | .launchComplete f tag => flaskOk f && tag < 2 ^ 32
  | .unsupportedCommand h _ => h ≤ 16
  | .imageBegin m | .imageWrite m | .imageEnd m | .getId m | .getMeas m | .keyExch m | .secure m | .endSession m
    | .unknownCode m | .jobInstall m | .auth m | .regRead m | .regWrite m | .recGet m | .recAck m | .telem m =>
    m.sess ≤ 4 && m.code < 256 && m.sid < 256
  | .authCheckComplete sess => sess < 4
  | .setdasa static dyn => static < 128 && dyn < 128
  | .entdaa dyn => dyn < 128
  | .pllLockLoss u => pllOk u
  | .napEntry k | .restEntry k | .coldEntry k => k < 64
  | .powerWindowEnd _ _ temps => temps.length = 14
  | .hardwareShutdown die _ => die < 14
  | .configurationRequest h off _ _ => flaskOk h && off < 4096
  | .msixTableWrite h vec _ => flaskOk h && vec < 4

end Sys2Proof
end

