-- ==== Sys2Proof/Tests/Slice0.lean ====
section
/-! SUPPORT. The model's own tests: ill-formed commands refused by the operand check, one step on a small state per family with the
result worked out from the spec, and for every statement with hypotheses a state and operands that meet them. -/

set_option Elab.async false

namespace Sys2Proof.Tests
open Sys2Proof Sys2Proof.Machine

/-! ### Small states -/

/-- A number of fields, each given by its lowest bit and its value. -/
def bits (l : List (Nat × Nat)) : Nat := l.foldl (fun a e => a + e.2 * 2 ^ e.1) 0
/-- An instruction word of fields. -/
def W (l : List (Nat × Nat)) : BitVec 56 := BitVec.ofNat 56 (bits l)

/-- The thread group of the tests: core 0, stream F, index 0. -/
def X : Who := ⟨0, .f, 0⟩

/-- A group at 0x1000 whose uniforms 1 to 4 hold 5, 7, the first aperture's address, and a descriptor; lane registers 1 and 2 hold 3
and 4 in lane 0, 9 and 2 in lane 1. -/
def G : Group :=
  { strm := .f, q := 0, pc := 0x1000, win := 0x1000, v := [(64, 3), (65, 9), (128, 4), (129, 2)], vp := [], k := [(1, 3)], kp := [],
    u := [(1, 5), (2, 7), (3, 0xF000_0000_2000), (4, 0x400_2000)], up := [], busy := [], stores := [], loads := [], acq := [],
    blist := [], wait := none, ring := [], own := 0 }

/-- A pattern image with one host flask: one window, the first 256 MiB, readable, writable and executable by atomics; one host window;
core 0 in its core map (R464, R466). -/
def pat1 : Sparse Byte := [(0, 3), (5, 8), (12, 1), (13, 1), (271, 0x70), (274, 1), (784, 1), (1032, 1)]

/-- A booted module in which core 0 runs the groups `gs`, with the registers `rs`. -/
def S (gs : List Group) (rs : List (Reg × Nat × Nat × Word64)) : State :=
  let s := { State.reset with
    pins := { State.reset.pins with por := false, rising := false }, pat := pat1,
    cores := [(0, { Core.init with groups := gs, lpg := 262144 })] }
  let l : List (Reg × Nat × Nat × Word64) := [(.BOOT, 0, 0, 0x4A), (.XPHASE, 0, 0, 0x100), (.SHAPE, 0, 0, 1)]
  (l ++ rs).foldl (fun s e => s.wr e.1 e.2.1 e.2.2.1 e.2.2.2) s

/-- The module with group `G` on core 0. -/
def S0 : State := S [G] []

/-- What a group needs to issue, as one boolean. -/
def canIssue (s : State) (x : Who) (gr : Group) (memSyn : Bool) (regs : List Nat) : Bool :=
  decide (s.group x = some gr) && (s.core x.core).runs x.strm && s.fetchOk x gr.pc && !(gr.held memSyn regs)

theorem issues_of {s : State} {x : Who} {gr : Group} {memSyn : Bool} {regs : List Nat} (h : canIssue s x gr memSyn regs = true) :
    Issues s x gr memSyn regs := by
  simp only [canIssue, Bool.and_eq_true, decide_eq_true_eq, Bool.not_eq_true'] at h
  exact ⟨h.1.1.1, h.1.1.2, h.1.2, h.2⟩

/-- A property of the state a command leaves. -/
def after (c : Instr) (s : State) (p : State → Bool) : Bool :=
  match exec c s with
  | .next t => p t
  | _ => false
/-- A property of group `X` in the state a command leaves. -/
def groupAfter (c : Instr) (s : State) (p : Group → Bool) : Bool := after c s fun t => (t.group X).any p

/-! ### Control (p01) -/

/-- UADD u3 = u1 + u2. -/
def wU : BitVec 56 := W [(51, 3), (46, 1), (41, 2)]
theorem hyp_UniformArithmetic : Issues S0 X G false (uForm2.regs wU.toNat) ∧ fld wU.toNat 39 32 = 0 ∧ fld wU.toNat 31 0 = 0 :=
  ⟨issues_of (by decide +kernel), by decide, by decide⟩
theorem test_uadd : groupAfter (.uadd X wU) S0 (fun g => g.unif 3 = 12 && g.pc = 0x1008) = true := by decide +kernel
theorem test_usub_immediate :
    groupAfter (.usub X (W [(51, 3), (46, 1), (40, 1), (0, 0xFFFF_FFFF)])) S0 (fun g => g.unif 3 = 6) = true := by decide +kernel
theorem hyp_UniformMoves : Issues S0 X G false [] ∧ Issues S0 X G false [256 + 3, 256 + 1] ∧ Issues S0 X G false [256 + 3] :=
  ⟨issues_of (by decide +kernel), issues_of (by decide +kernel), issues_of (by decide +kernel)⟩
theorem test_umovh : groupAfter (.umovh X (W [(51, 1), (0, 0x8000_0001)])) S0 (fun g => g.unif 1 = 0x8000_0001_0000_0005) = true := by
  decide +kernel
/-- BRC u1 < u2 by +2 words, and by a target before the start of local store. -/
def wB (off : Nat) : BitVec 56 := W [(51, 1), (46, 2), (40, 2), (0, off)]
theorem hyp_Branches : Issues S0 X G false [256 + 1, 256 + 2] ∧ sgn 32 (wB 2).toNat = 2 ∧ S0.fetchOk X 0x1010 = true
    ∧ S0.fetchOk X 0x80000 = false ∧ sgn 32 (wB 0xFFFF_0000).toNat = -65536 := by
  and_intros <;> first | exact issues_of (by decide +kernel) | decide +kernel
theorem test_brc_taken : groupAfter (.brc X (wB 2)) S0 (fun g => g.pc = 0x1010 && g.win = 0x1000) = true := by decide +kernel
theorem test_brc_out_of_region : after (.brc X (wB 0xFFFF_0000)) S0 (fun t => (t.core 0).stop = [3, 3, 3, 0] && t.notices.length = 1) = true := by
  decide +kernel
theorem hyp_ExitMwaitAndIllegal : Issues S0 X G false [] ∧ (S0.core 0).mxIdle .f = true
    ∧ ({ Core.init with mq := [⟨X, 0, .load 0 false 0 64 2 0 0, []⟩] } : Core).mxIdle .f = false
    ∧ S0.group X = some G ∧ (S0.core 0).runs .f = true ∧ S0.fetchOk X G.pc = true ∧ fld (0x15 * 2 ^ 56) 63 56 = 0x15 := by
  and_intros <;> first | exact issues_of (by decide +kernel) | decide +kernel
theorem test_exit : after (.exit X 0) S0 (fun t => (t.core 0).groups = []) = true := by decide +kernel
theorem test_unlisted : after (.unlistedOpcode X (0x15#64 <<< 56)) S0 (fun t => (t.core 0).stop = [3, 3, 3, 0]) = true := by
  decide +kernel

/-! ### Vectors (p02) -/

/-- v3 = v1 op v2 under k0. -/
def wV : BitVec 56 := W [(45, 3), (37, 1), (29, 2)]
theorem hyp_VectorInteger : Issues S0 X G false ((laneForm 2).regs wV.toNat) ∧ (laneForm 2).ok (S0.rpl X) wV.toNat = true
    ∧ Issues S0 X G false ((laneForm 1).regs (W [(45, 3), (37, 1)]).toNat) ∧ (laneForm 1).ok (S0.rpl X) (W [(45, 3), (37, 1)]).toNat = true
    ∧ Issues S0 X G false [3] ∧ 3 < S0.rpl X
    ∧ ({ laneForm 2 with c := .mask } : VForm).ok (S0.rpl X) (W [(45, 3), (37, 1), (29, 2), (21, 1)]).toNat = true :=
  ⟨issues_of (by decide +kernel), by decide +kernel, issues_of (by decide +kernel), by decide +kernel, issues_of (by decide +kernel),
    by decide +kernel, by decide +kernel⟩
theorem test_isub : groupAfter (.isub X wV) S0 (fun g => g.lane 3 0 = 0xFFFF_FFFF && g.lane 3 1 = 7 && g.lane 3 2 = 0) = true := by
  decide +kernel
theorem test_iadd_masked : groupAfter (.iadd X (W [(53, 1), (45, 1), (37, 1), (17, 1), (0, 0xFFFF)])) S0
    (fun g => g.lane 1 0 = 2 && g.lane 1 1 = 8 && g.lane 1 2 = 0) = true := by decide +kernel
theorem hyp_VectorFloat : Issues S0 X G false ((laneForm 3).regs (W [(45, 3), (37, 1), (29, 2), (21, 4)]).toNat)
    ∧ (laneForm 3).ok (S0.rpl X) (W [(45, 3), (37, 1), (29, 2), (21, 4)]).toNat = true :=
  ⟨issues_of (by decide +kernel), by decide +kernel⟩
theorem test_itof : groupAfter (.itof X (W [(45, 3), (37, 1)])) S0 (fun g => g.lane 3 0 = 0x4040_0000 && g.lane 3 1 = 0x4110_0000) = true := by
  decide +kernel
theorem test_fadd : toF32 (vAdd (f32 0x3F80_0000) (f32 0x3380_0000)) = 0x3F80_0000 ∧ toF32 (vAdd (f32 0x3F80_0001) (f32 0x3380_0000)) = 0x3F80_0002 := by
  decide +kernel
theorem hyp_MaskRows : Issues S0 X G false ((cmpForm 6).regs wV.toNat) ∧ (cmpForm 6).ok (S0.rpl X) wV.toNat = true
    ∧ (cmpForm 5).ok (S0.rpl X) wV.toNat = true ∧ Issues S0 X G false [256 + 3] :=
  ⟨issues_of (by decide +kernel), by decide +kernel, by decide +kernel, issues_of (by decide +kernel)⟩
theorem test_icmp_below : groupAfter (.icmp X (W [(53, 1), (45, 2), (37, 1), (29, 2), (21, 2)])) S0 (fun g => g.mask 2 = 1) = true := by
  decide +kernel
theorem test_icmp_k0 : groupAfter (.icmp X (W [(45, 0), (37, 1), (29, 2), (21, 2)])) S0 (fun g => g.mask 0 = BitVec.allOnes 64) = true := by
  decide +kernel
theorem hyp_CrossLaneAndW80 : Issues S0 X G false [3, 1, 2] ∧ Issues S0 X G false [256 + 3, 1] ∧ quadForm.ok (S0.rpl X) (W [(45, 4), (37, 8), (29, 12)]).toNat = true
    ∧ Issues S0 X G false (quadForm.regs (W [(45, 4), (37, 8), (29, 12)]).toNat)
    ∧ Issues S0 X G false [4, 5, 6, 7, 256 + 4] ∧ (G.unif 4).toNat = 0x400_2000 ∧ fld (G.unif 4).toNat 19 0 = 0x2000
    ∧ fld (G.unif 4).toNat 35 20 = 64 ∧ S0.lsOk 0 false (0x2000 + 63 * 16) 16 = true ∧ fld (G.unif 1).toNat 19 0 % 16 ≠ 0 :=
  ⟨issues_of (by decide +kernel), issues_of (by decide +kernel), by decide +kernel, issues_of (by decide +kernel),
    issues_of (by decide +kernel), by decide, by decide, by decide, by decide +kernel, by decide⟩
theorem test_bcst : groupAfter (.bcst X (W [(45, 3), (37, 1), (0, 1)])) S0 (fun g => g.lane 3 0 = 9 && g.lane 3 63 = 9) = true := by
  decide +kernel
theorem test_rdl : groupAfter (.rdl X (W [(45, 6), (37, 1), (0, 1)])) S0 (fun g => g.unif 6 = 9) = true := by decide +kernel

/-! ### Memory instructions (p03) -/

/-- LD of 4 bytes per lane at u3 + the lane's v1, scaled by 4, under k1. -/
def wL : BitVec 56 := W [(53, 1), (45, 5), (37, 1), (32, 3), (29, 2), (22, 1)]
/-- A store-ready group: the same, NOV. -/
theorem lanes_wL : lanesM G wL.toNat = [(0, 0xF000_0000_200C), (1, 0xF000_0000_2024)] := by decide +kernel
theorem clean_wL : cleanM G wL.toNat := by unfold cleanM; decide +kernel
theorem own_wL (p : Nat) (h : p = 0 ∨ p = 1 ∨ p = 2) : OwnStore S0 X p 4 (lanesM G wL.toNat) := by
  rw [lanes_wL]
  rcases h with rfl | rfl | rfl <;> constructor <;> decide +kernel
theorem hyp_LocalLoads : Issues S0 X G true (regsM wL.toNat 4) ∧ formM (S0.rpl X) wL.toNat 4 = true ∧ cleanM G wL.toNat
    ∧ OwnStore S0 X 0 4 (lanesM G wL.toNat) ∧ (∀ e ∈ lanesM G wL.toNat, S0.poisoned (fld e.2 47 0) 4 = false) :=
  ⟨issues_of (by decide +kernel), by decide +kernel, clean_wL, own_wL 0 (by decide), by decide +kernel⟩
theorem test_ld : groupAfter (.ld X wL) { S0 with mem := [(0xF000_0000_200C, 0x78), (0xF000_0000_200F, 0x12)] }
    (fun g => g.lane 5 0 = 0x1200_0078 && g.lane 5 1 = 0) = true := by decide +kernel
/-- LDU u6 from u3 + 8, plain. -/
def wLU : BitVec 56 := W [(45, 6), (32, 3), (29, 3), (23, 1), (0, 8)]
theorem hyp_LocalLoads_ldu : Issues S0 X G true [256 + 6, 256 + 3] ∧ formU wLU.toNat = true
    ∧ OwnStore S0 X 0 8 [(0, wrap 64 ((G.unif 3).toNat + sgn 22 wLU.toNat))] :=
  ⟨issues_of (by decide +kernel), by decide +kernel, by constructor <;> decide +kernel⟩
/-- A group whose u3 is a DRAM address, on a core with no cache. -/
def GD : Group := { G with u := [(3, 0x8000)] }
def SD : State := S [GD] []
theorem hyp_RemoteLoads : Issues SD X GD true (regsM wL.toNat 4) ∧ formM (SD.rpl X) wL.toNat 4 = true ∧ cleanM GD wL.toNat ∧ SD.ccSize 0 = 0
    ∧ SD.paramHeld X (lanesM GD wL.toNat) = false
    ∧ (∀ e ∈ lanesM GD wL.toNat, own 0 e.2 = false ∧ SD.addrBad (some 0) (SD.flaskOf X) 0 e.2 4 = false) :=
  ⟨issues_of (by decide +kernel), by decide +kernel, by unfold cleanM; decide +kernel, by decide +kernel, by decide +kernel, by decide +kernel⟩
theorem test_ld_one_line : after (.ld X wL) SD (fun t => t.reqs.map Req.addr = [0x8000] && t.reqs.map Req.lanes = [[(0, 0x800C), (1, 0x8024)]]) = true := by
  decide +kernel
theorem hyp_LocalStores : Issues S0 X G true (regsM wL.toNat 4) ∧ OwnStore S0 X 1 4 (lanesM G wL.toNat) ∧ Issues S0 X G true [256 + 6, 256 + 3]
    ∧ OwnStore S0 X 1 8 [(0, wrap 64 ((G.unif 3).toNat + sgn 22 wLU.toNat))] :=
  ⟨issues_of (by decide +kernel), own_wL 1 (by decide), issues_of (by decide +kernel),
    by constructor <;> decide +kernel⟩
/-- ST of v1 at u3 + 0 for every lane: the highest lane, 63, wins with 0. -/
theorem test_st_highest_lane : after (.st X (W [(45, 1), (32, 3), (29, 2), (23, 1)])) { S0 with mem := [(0xF000_0000_2000, 0x55)] }
    (fun t => t.byte 0xF000_0000_2000 = 0) = true := by decide +kernel
theorem test_st : after (.st X (W [(53, 1), (45, 2), (37, 1), (32, 3), (29, 2), (22, 1)])) S0
    (fun t => t.mem = [(0xF000_0000_200C, 4), (0xF000_0000_2024, 2)]) = true := by decide +kernel
/-- ATOM ADD of v2 at u3 + v5, returning into v6, under k1. -/
def wA : BitVec 56 := W [(53, 1), (45, 6), (37, 5), (29, 2), (16, 3), (10, 2), (4, 1)]
theorem hyp_LocalAtomics : Issues S0 X G true (regSpan 6 4 ++ [5] ++ regSpan 2 4 ++ [256 + 3]) ∧ formA (S0.rpl X) wA.toNat = true
    ∧ fld wA.toNat 6 5 = 0 ∧ OwnStore S0 X 2 4 ((G.onLanes 1).map fun l => (l, ((G.unif 3).toNat + (G.lane 5 l).toNat) % 2 ^ 64)) :=
  ⟨issues_of (by decide +kernel), by decide +kernel, by decide +kernel, by constructor <;> decide +kernel⟩
theorem test_atom_add : after (.atom X wA) { S0 with mem := [(0xF000_0000_2000, 10)] }
    (fun t => t.le 0xF000_0000_2000 4 = 16 && (t.group X).any (fun g => g.lane 6 0 = 10 && g.lane 6 1 = 14) && t.rn .ATOM 0 0 = 1) = true := by
  decide +kernel
theorem hyp_FenceAndPrefetch : Issues S0 X G true [] ∧ Issues (S [{ G with stores := [5] }] []) X { G with stores := [5] } true []
    ∧ Issues (S [{ G with u := [(2, 0x8000), (3, 4)] }] []) X { G with u := [(2, 0x8000), (3, 4)] } true [256 + 2, 257 + 2] :=
  ⟨issues_of (by decide +kernel), issues_of (by decide +kernel), issues_of (by decide +kernel)⟩
theorem test_fence_release_waits :
    after (.fence X (W [(27, 2), (24, 1)])) (S [{ G with stores := [5] }] []) (· = S [{ G with stores := [5] }] []) = true := by decide +kernel
/-! ### The caster (p04) -/

/-- Thirty-two mantissas of width 8, the first with its leading bit. -/
def ms8 : List Int := 127 :: -127 :: 64 :: List.replicate 29 1
theorem hyp_CastBlockRange : (List.replicate 32 (Val.fin false 1 0, false)).length = 32 := by decide
theorem hyp_CastRoundTrip : ms8.length = 32 ∧ (∀ q ∈ ms8, -((2 : Int) ^ 7 - 1) ≤ q ∧ q ≤ 2 ^ 7 - 1) ∧ (∃ q ∈ ms8, (2 : Int) ^ 6 ≤ |q|) := by
  decide
/-- The block of mantissas `ms`, of width `m` and scale `sc`, comes back from the cast as it was. -/
def back (m sc : Nat) (ms : List Int) (prop : Bool) : Bool :=
  let r := castToBs m (false, prop, false, 0) (0, 0, 0, 0) 0 (ms.map fun q => (bsVal m sc q, false))
  r.1 = sc && r.2.1 = ms && !r.2.2.1 && r.2.2.2.1 = 0 && r.2.2.2.2.1 = 0 && r.2.2.2.2.2.1 = 0 && r.2.2.2.2.2.2 = [(sc, sc)]
theorem test_round_trip : back 8 200 ms8 false = true := by decide +kernel
theorem test_round_trip_ends : back 2 0 (List.replicate 32 1) true = true ∧ back 16 254 (List.replicate 32 (-16384)) true = true := by
  decide +kernel
theorem test_nonfinite_block : (castToBs 4 (false, false, false, 0) (0, 0, 0, 0) 0
    ((Val.nan, false) :: List.replicate 31 (Val.fin false 1 0, false))).1 = 0xFF := by decide +kernel
/-- CVT v5 = binary16 of v1 under k1, slot 2, key u8. -/
def wC : BitVec 56 := W [(53, 1), (45, 5), (37, 1), (27, 0x11), (22, 0x12), (16, 2), (11, 8)]
theorem hyp_RegisterCasts : Issues S0 X G false (elemSpan 0x12 5 ++ elemSpan 0x11 1 ++ keyRegs wC.toNat) ∧ convOk .f wC.toNat false = true
    ∧ cvtPair 0x11 0x12 = true ∧ elemReg (S0.rpl X) 0x12 5 = true ∧ castlPair 8 0x11 = true
    ∧ S0.blocksOk X 8 (BitVec.ofNat 64 (0x3000 * 2 ^ 20 + 0x2000)) 2 = true := by
  and_intros <;> first | exact issues_of (by decide +kernel) | decide +kernel
theorem test_cvt_f16 : groupAfter (.cvt X wC) (S [{ G with v := [(64, 0x3FC0_0000), (65, 0x7F00_0000)] }] [])
    (fun g => g.lane 5 0 = 0x3E00 && g.lane 5 1 = 0x7BFF) = true := by decide +kernel
/-- A group whose u9 describes blocks at 0x2000 with scales at 0x3000. -/
def GB : Group := { G with u := [(9, BitVec.ofNat 64 (0x3000 * 2 ^ 20 + 0x2000))] }
/-- CASTS of v1 to BS8 at u9, two blocks, slot 0. -/
def wS : BitVec 56 := W [(45, 1), (32, 9), (27, 0x11), (22, 8)]
theorem hyp_BlockCasts : Issues (S [GB] []) X GB false (elemSpan 0x11 1 ++ [256 + 9] ++ keyRegs wS.toNat) ∧ castsPair 0x11 8 = true
    ∧ convOk .f wS.toNat true = true ∧ (S [GB] []).blocksOk X 8 (GB.unif 9) 2 = true
    ∧ (∀ i, i < 2 → fld (GB.unif 9).toNat 39 20 + i < fld (GB.unif 9).toNat 19 0
        ∨ fld (GB.unif 9).toNat 19 0 + 2 * 4 * 8 ≤ fld (GB.unif 9).toNat 39 20 + i)
    ∧ castmPair 8 4 = true ∧ Issues (S [GB] []) X GB false ([256 + 9, 256 + 9] ++ keyRegs wS.toNat) := by
  and_intros <;> first | exact issues_of (by decide +kernel) | decide +kernel
theorem test_casts : after (.casts X wS) (S [{ GB with v := [(64, 0x3F80_0000)] }] [])
    (fun t => t.byte (aper 0 + 0x2000) = 64 && t.byte (aper 0 + 0x2001) = 0 && t.byte (aper 0 + 0x3000) = 127 && t.byte (aper 0 + 0x3001) = 0) = true := by
  decide +kernel
theorem hyp_RangeCounters : Issues S0 X G false [256 + 1] ∧ Issues S0 X G false [256 + 3 % 32] ∧ Issues S0 X G false []
    ∧ (S0.core 0).slotBusy .f 5 = false :=
  ⟨issues_of (by decide +kernel), issues_of (by decide +kernel), issues_of (by decide +kernel), by decide +kernel⟩
theorem test_rcset : after (.rcset X (W [(32, 1), (16, 5)])) (S [{ G with u := [(1, 0x1234_5678_0000_FFFF)] }] [])
    (fun t => t.rn .RCCFG 0 5 = 0xFF07 && t.rn .RCTID 0 5 = 0x1234_5678) = true := by decide +kernel

/-! ### The matrix array (p05) -/

/-- MLOAD of plane 1, ROW, BS8, 64 columns, 2 blocks, from u9. -/
def wM : BitVec 56 := W [(51, 9), (50, 1), (44, 8), (38, 63), (37, 1)]
def ldOp : MOp := .load 1 false 8 64 2 0x2000 0x3000
/-- A core whose matrix queue holds `q`, with planes `ps` and landings `ls`. -/
def SM (q : List MQ) (ps : List Plane) (ls : List Landing) : State :=
  let s := S [GB] [(.EWIN, 0, 0, 0x0100_0100)]
  s.setCore 0 { s.core 0 with mq := q, planes := ps, land := ls }
def P0 : List Plane := [Plane.zeroTile true, Plane.zeroTile true]
def full : List MQ := List.replicate 4 ⟨X, 0, ldOp, []⟩
theorem hyp_MatrixIssue : Issues (SM [] P0 []) X GB false [256 + 9] ∧ fld wM.toNat 36 0 = 0 ∧ decodeLoad GB wM.toNat = ldOp
    ∧ ldOp.legal ((SM [] P0 []).edgeWindow 0 .f) = true ∧ (∀ r ∈ ldOp.ranges, (SM [] P0 []).lsOk 0 false r.1 r.2 = true)
    ∧ Issues (SM full P0 []) X GB false [256 + 9] ∧ (((SM full P0 []).core 0).mq.filter fun m => m.who.strm = .f && m.op.port = 0).length = 4 := by
  and_intros <;> first | exact issues_of (by decide +kernel) | decide +kernel
theorem test_mload_full : after (.mload X wM) (SM full P0 []) (· = SM full P0 []) = true := by decide +kernel
theorem hyp_PlaneLoad : ((SM [⟨X, 0, ldOp, []⟩] P0 []).core 0).mq = [⟨X, 0, ldOp, []⟩] ∧ elemBits 8 = 8
    ∧ (((SM [] [{ Plane.zeroTile false with loading := some .f }, Plane.zeroTile true] []).core 0).plane 0).loading ≠ none := by decide +kernel
/-- Element 1 of block 2, and that block's scale. -/
def cells0 : List Host.Cell := [(aper 0 + 0x2041, 0x80), (aper 0 + 0x3002, 7)]
theorem test_mload_grant : after (.mloadGrant 0) ({ SM [⟨X, 0, .load 1 false 8 2 1 0x2000 0x3000, cells0⟩] P0 [] with mem := cells0 })
    (fun t => ((t.core 0).plane 1).held 1 1 = -32768 && Sparse.get 0 ((t.core 0).plane 1).scale 2 = 7) = true := by decide +kernel
/-- An MSTREAM of two vectors of BS8 on plane 0, to entries 3 and 4. -/
def stOp : MOp := .stream 0 false 8 2 3 false 0 0 true 0x2000 0x3000 2
theorem hyp_StreamAndLanding : ((SM [⟨X, 0, stOp, []⟩] P0 []).core 0).mq = [⟨X, 0, stOp, []⟩] ∧ (((SM [⟨X, 0, stOp, []⟩] P0 []).core 0).plane 0).ready = true
    ∧ (∀ v, v < 2 → (SM [⟨X, 0, stOp, []⟩] P0 []).lsOk 0 false (0x2000 + (v * 2 + 1) * blockBytes 8) (blockBytes 8) = true
      ∧ (SM [⟨X, 0, stOp, []⟩] P0 []).lsOk 0 false (0x3000 + v * 2 + 1) 1 = true) := by decide +kernel
theorem test_mstream_grant : after (.mstreamGrant 0) (SM [⟨X, 0, stOp, []⟩] P0 [])
    (fun t => (t.core 0).land.map (fun d => (d.ent, d.last)) = [(3, false), (4, true)] && t.rn .MXVEC 0 0 = 2) = true := by decide +kernel
/-- A landing that adds 1 to column 0 of entry 3. -/
def land1 : Landing :=
  { strm := .f, ent := 3, pair := false, lam := 0, tix := 0, m := 1, start := false, cols := [[(toW (.fin false 1 0), false)]], last := true }
theorem test_landing_adds : after (.edgeLanding 0) ((SM [] P0 [land1]).modCore 0 fun c => { c with edge := [(3, toW (.fin false 2 0))] })
    (fun t => (t.core 0).edge = [(3, toW (.fin false 3 0))] && (t.core 0).land = []) = true := by decide +kernel
def drOp : MOp := .drain 3 1 false 0 1 0x14 0 0 0 0 0x4000 0 0 1 0 1 0 0 0 0 0 0
theorem hyp_DrainAndZeroing : ((SM [⟨X, 0, drOp, []⟩] P0 []).core 0).mq = [⟨X, 0, drOp, []⟩] ∧ ((SM [⟨X, 0, drOp, []⟩] P0 []).core 0).land = []
    ∧ (((SM [] P0 []).modCore 0 fun c => { c with zero := true }).core 0).zero = true := by decide +kernel
theorem test_drain : after (.mdrainGrant 0) ((SM [⟨X, 0, drOp, []⟩] P0 []).modCore 0 fun c => { c with edge := [(3, 0x1_8000_0000_0000_0005)] })
    (fun t => t.le (aper 0 + 0x4000) 16 = 0x1_8000_0000_0000_0005) = true := by decide +kernel

/-! ### Synchronisation (p06) -/

/-- BAR on the object at u3 with 2 participants, scope 1. -/
def wBar : BitVec 56 := W [(51, 3), (43, 1), (0, 2)]
theorem hyp_SynchronisationIssue : Issues S0 X G true [256 + 3] ∧ S0.addrBad (some 0) (S0.flaskOf X) 2 (G.unif 3).toNat 16 = false
    ∧ S0.addrBad (some 0) (S0.flaskOf X) 0 (G.unif 3).toNat 16 = false ∧ Issues S0 X G true [256 + 3, 256 + 1]
    ∧ S0.addrBad (some 0) (S0.flaskOf X) 2 (G.unif 3).toNat 8 = false ∧ S0.paramHeld X [(0, (G.unif 3).toNat)] = false :=
  ⟨issues_of (by decide +kernel), by decide +kernel, by decide +kernel, issues_of (by decide +kernel), by decide +kernel, by decide +kernel⟩
/-- A group whose u8 to u11 describe a copy of 16 bytes within DRAM with no signal. -/
def GM : Group := { G with u := [(8, 0x8000), (9, 0x9000), (10, 16)] }
theorem hyp_SynchronisationIssue_dma : Issues (S [GM] []) X GM true [256 + 8, 257 + 8, 258 + 8, 259 + 8] ∧ (S [GM] []).dmaAt 0 0 = none ∧ (S [] [(.JACT, 0, 0, 0x8000_0007)]).jobOk 0 = true
    ∧ (∀ p ∈ pieces 0x8000 0x9000 (pieceFuel 16) 16, (S [GM] []).pieceBad (some 0) 0 0 p.1 p.2.2 = false
        ∧ (S [GM] []).pieceBad (some 0) 0 1 p.2.1 p.2.2 = false) :=
  ⟨issues_of (by decide +kernel), by decide +kernel, by decide +kernel⟩
theorem test_bar : after (.bar X wBar) S0 (fun t => t.reqs.map (fun r => (r.kind, r.addr, r.ops)) = [(.arrive, 0xF000_0000_2000, [(2, 0)])]
    && (t.group X).any fun g => g.wait.isSome && g.blist = [0xF000_0000_2000]) = true := by decide +kernel
theorem test_dma : after (.dma X (W [(51, 8)])) (S [GM] []) (fun t => (t.dmaAt 0 0).any fun d => d.dst = 0x9000 && d.len = 16) = true := by
  decide +kernel
theorem hyp_BarrierRound : fld (7 * 2 ^ 64) 15 0 = 0 ∧ fld (7 * 2 ^ 64) 31 16 = 0 := by decide
theorem test_barrier_round : (barArrive (7 * 2 ^ 64) 1) = (8 * 2 ^ 64 + 2 ^ 48 + 2 ^ 32, true) := by decide +kernel
/-! ### Homes and what returns (p07, p08) -/

/-- A request of group `X`, numbered 0. -/
def rq (k : RKind) (addr size : Nat) : Req :=
  { id := 0, src := .grp X, pc := 0x1000, flask := 0, kind := k, addr := addr, size := size, data := [], mask := [], aop := 0, ops := [],
    ret := false, pois := false, rel := [], lanes := [], reg := 0, sz := 4, conv := 0, alloc := false, taint := false, cnt := 0, flag := none }
/-- The module with one request in flight, line 0x100 in the last-level cache, and a byte of it. -/
def SR (q : Req) : State :=
  { S0 with reqs := [q], mem := [(0x8004, 0x2A)], m := { S0.m with llc := [⟨S0.home 0x100, S0.llcSet 0x100, 0, 0x100, false⟩] } }
theorem atHand_dram {q : Req} (h : ((SR q).reqs.find? fun r => r.id = q.id) = some q) (k : q.src = .grp X) (r : (SR q).ready q = true)
    (c : (SR q).cutRoute q = false)
    (a : fld q.addr 47 0 < dramEnd ∧ (SR q).rotaOn ((SR q).chan ((SR q).view (fld q.addr 47 0) / 128)).1 = true
            ∧ ((SR q).llcFind ((SR q).view (fld q.addr 47 0) / 128)).isSome = true
            ∧ (SR q).missUsed ((SR q).view (fld q.addr 47 0) / 128) < 64) : AtHand (SR q) q :=
  ⟨h, ⟨X, k⟩, r, c, ⟨rfl, rfl⟩, Or.inl ⟨a.1, a.2.1, a.2.2.1, a.2.2.2, fun e he => nomatch (show e ∈ ([] : List (Nat × List Req)) from he)⟩⟩
theorem hyp_MemoryReadsAndWrites : AtHand (SR (rq .read 0x8000 128)) (rq .read 0x8000 128) ∧ AtHand (SR (rq .write 0x8004 4)) (rq .write 0x8004 4) :=
  ⟨atHand_dram (by decide +kernel) rfl (by decide +kernel) (by decide +kernel) (by decide +kernel), atHand_dram (by decide +kernel) rfl (by decide +kernel) (by decide +kernel) (by decide +kernel)⟩
/-- The same at a running core's local store. -/
theorem hyp_MemoryReadsAndWrites_aperture : AtHand (SR (rq .read (aper 0 + 0x40) 8)) (rq .read (aper 0 + 0x40) 8) :=
  ⟨by decide +kernel, ⟨X, rfl⟩, by decide +kernel, by decide +kernel, ⟨rfl, rfl⟩, Or.inr ⟨by decide +kernel, 0, by decide +kernel⟩⟩
theorem hyp_MemoryReadsAndWrites_miss : (SR (rq .read 0x10000 128)).llcFind 0x200 = none ∧ (SR (rq .read 0x10000 128)).ready (rq .read 0x10000 128) = true
    ∧ (SR (rq .read 0x10000 128)).cutRoute (rq .read 0x10000 128) = false := by
  decide +kernel
theorem test_llc_read : after (.llcRequest 0) (SR (rq .read 0x8000 8)) (fun t => t.resps.map Resp.data = [[0, 0, 0, 0, 0x2A, 0, 0, 0]] && t.reqs = []) = true := by
  decide +kernel
theorem test_llc_write : after (.llcRequest 0) (SR { rq .write 0x8004 2 with data := [7, 8], mask := [false, true] })
    (fun t => t.mem = [(0x8004, 0x2A), (0x8005, 8)]) = true := by decide +kernel
theorem hyp_MemoryUpdates : AtHand (SR { rq .atom 0x8004 4 with ops := [(1, 0)] }) { rq .atom 0x8004 4 with ops := [(1, 0)] }
    ∧ AtHand (SR { rq .arrive 0x8000 16 with aop := 0xD, ops := [(1, 0)] }) { rq .arrive 0x8000 16 with aop := 0xD, ops := [(1, 0)] }
    ∧ AtHand (SR { rq .depart 0x8000 16 with aop := 0xE }) { rq .depart 0x8000 16 with aop := 0xE }
    ∧ AtHand (SR { rq .signal 0x8000 8 with ops := [(9, 0)] }) { rq .signal 0x8000 8 with ops := [(9, 0)] } :=
  ⟨atHand_dram (by decide +kernel) rfl (by decide +kernel) (by decide +kernel) (by decide +kernel), atHand_dram (by decide +kernel) rfl (by decide +kernel) (by decide +kernel) (by decide +kernel),
    atHand_dram (by decide +kernel) rfl (by decide +kernel) (by decide +kernel) (by decide +kernel), atHand_dram (by decide +kernel) rfl (by decide +kernel) (by decide +kernel) (by decide +kernel)⟩
theorem test_near_memory_add : after (.nearMemoryRequest 0) (SR { rq .atom 0x8004 4 with ops := [(0xFFFF_FFFF, 0)] })
    (fun t => t.le 0x8004 4 = 0x29 && t.resps.map Resp.olds = [[0x2A]]) = true := by decide +kernel
theorem test_signal_update : after (.signalUpdate 0) (SR { rq .signal 0x8000 8 with ops := [(9, 0)] }) (fun t => t.le 0x8000 8 = 9 + 0x2A * 2 ^ 32) = true := by
  decide +kernel

/-- The module with one response waiting for group `X`, which waits for request 0. -/
def SP (p : Resp) (g : Group) : State := { S [g] [] with resps := [p] }
def rs (q : Req) (d : List Byte) : Resp := { req := q, data := d, pois := [], olds := [], status := 0 }
def ldRq : Req := { rq .read 0x8000 128 with lanes := [(0, 0x8000), (1, 0x8004)], reg := 5 }
def GW : Group := { G with loads := [0], busy := [(0, [5])] }
theorem hyp_Responses : Answered (SP (rs ldRq (leBytes 128 0x7_0000_0003)) GW) 0 (rs ldRq (leBytes 128 0x7_0000_0003))
    ∧ (SP (rs ldRq (leBytes 128 0x7_0000_0003)) GW).group X = some GW ∧ (ldRq.lanes.map Prod.fst).Nodup ∧ (∀ e ∈ ldRq.lanes, e.1 < 64)
    ∧ (SP (rs { ldRq with alloc := true } []) GW).inOrder ldRq = true ∧ (rs ldRq []).syncPoison = false ∧ (S [GW] [(.SPLIT, 0, 0, 1)]).ccSize 0 = 0x2_0000 := by
  unfold Answered; decide +kernel
theorem test_load_response : after (.loadResponse 0) (SP (rs ldRq (leBytes 128 0x7_0000_0003)) GW)
    (fun t => (t.group X).any fun g => g.lane 5 0 = 3 && g.lane 5 1 = 7 && g.busy = [] && g.loads = []) = true := by decide +kernel
theorem test_cache_fill : after (.cacheFill 0) { S [GW] [(.SPLIT, 0, 0, 1)] with resps := [rs { ldRq with alloc := true } (leBytes 128 5)] }
    (fun t => (t.core 0).cc.map CLine.line = [0x100]) = true := by decide +kernel
def pf0 : Pf := { addr := 0x8000, nlines := 2, stride := -1, tgt := 0, strm := .f, inflight := [] }
def SF : State := S0.modCore 0 fun c => { c with pf := [(0, some pf0)], pfLast := 15 }
theorem hyp_PrefetchAndLanding : (SF.core 0).pfLast = (0 + 15) % 16 ∧ Sparse.get none (SF.core 0).pf 0 = some pf0 ∧ (SF.core 0).phold = false ∧ (∀ k, k < 16 → S0.pfCan 0 k = false)
    ∧ SF.addrBad (some 0) 0 0 0x8000 128 = false ∧ SF.addrBad (some 0) 0 0 (2 ^ 47) 128 = true
    ∧ Notice.landing 3 1 true ∈ ({ S0 with notices := [.landing 3 1 true] } : State).notices ∧ (S0.landEnt 13).fin = none := by decide +kernel
theorem test_prefetch : after (.prefetchLineRequest 0) SF (fun t => t.reqs.map Req.addr = [0x8000]
    && (Sparse.get none (t.core 0).pf 0).any fun p => p.addr = 0x7F80 && p.nlines = 1) = true := by decide +kernel
theorem test_landing_other_gen : after (.landingNotice 3 1 true) { S0 with notices := [.landing 3 1 true] }
    (fun t => t.landEnt 13 = ⟨true, 1, none⟩) = true := by decide +kernel
theorem hyp_PrefetchAndLanding_final :
    (({ S0 with fab := { S0.fab with land := [(13, ⟨true, 4, some (5, rq .write 0x8000 8)⟩)] } } : State).landEnt 13).fin = some (5, rq .write 0x8000 8) := by
  decide +kernel
def w0 : Wait := { kind := .swait, addr := 0x8000, cond := 0, val := 5, scp := 0, count := 0, ready := true, since := 0 }
def GP : Group := { G with wait := some w0 }
theorem hyp_WaitsAndDma : Answered (SP (rs (rq .poll 0x8000 8) (leBytes 8 5)) GP) 0 (rs (rq .poll 0x8000 8) (leBytes 8 5))
    ∧ ((SP (rs (rq .poll 0x8000 8) (leBytes 8 5)) GP).core 0).groups = [GP] ∧ w0.since ≤ (rq .poll 0x8000 8).id
    ∧ (SP (rs (rq .poll 0x8000 8) (leBytes 8 5)) GP).addrBad (some 0) 0 0 0x8000 8 = false
    ∧ ({ w0 with ready := false } : Wait).ready = false ∧ ({ rq .poll 0x8000 8 with reg := 1 } : Req).reg = 1 ∧ (S [GP] [(.WDOG, 0, 0, 100)]).rn .WDOG 0 0 ≠ 0
    ∧ (S [GP] [(.WDOG, 0, 0, 100)]).group X = some GP := by unfold Answered; decide +kernel
theorem test_poll_releases : after (.pollReturn 0) (SP (rs (rq .poll 0x8000 8) (leBytes 8 5)) GP) (fun t => (t.group X).any fun g => g.wait = none) = true := by
  decide +kernel
theorem test_poll_waits : after (.pollReturn 0) (SP (rs (rq .poll 0x8000 8) (leBytes 8 4)) GP) (fun t => (t.group X).any fun g => g.wait.isSome) = true := by
  decide +kernel
def d0 : Dma :=
  { who := X, pc := 0x1000, flask := 0, src := 0x8000, dst := 0x9000, len := 16, sinc := 1, sig := 0xA000, after := [], started := false, mode := 0, pois := false, sigP := false,
    reads := [], writes := [], npieces := 0, tsl := 0, gen := false, sigSent := false }
def SDm (d : Dma) : State := S0.modCore 0 fun c => { c with dma := [(0, some d)] }
theorem hyp_WaitsAndDma_dma : (SDm d0).dmaAt 0 0 = some d0 ∧ d0.mode ≠ 2
    ∧ (SDm d0).paramHeld X ((pieces d0.src d0.dst (pieceFuel d0.len) d0.len).map fun p => (0, p.1)) = false
    ∧ (SDm { d0 with started := true }).dmaAt 0 0 = some { d0 with started := true } := by decide +kernel
theorem test_dma_start : after (.dmaStart 0 0) (SDm d0) (fun t => t.reqs.map (fun r => (r.addr, r.size)) = [(0x8000, 16)]) = true := by decide +kernel
theorem test_dma_signal : after (.dmaSignalUpdate 0 0) (SDm { d0 with started := true }) (fun t => t.reqs.map (fun r => (r.kind, r.addr, r.ops)) = [(.signal, 0xA000, [(1, 0)])]) = true := by
  decide +kernel

/-! ### The memory-side dies (p09) -/

/-- The module with a bank queue at slot 5 of channel 0, and requests that miss on `ms`. -/
def SB (q : List BankReq) (arr : List Nat) (ms : List (Nat × List Req)) : State :=
  { S0 with m := { S0.m with bank := [(5, q)], arriving := arr, miss := ms, slot := [(0, 5)] } }
theorem hyp_BankSlots : (SB [⟨0x100, true⟩] [] []).rotaOn 0 = true ∧ Sparse.get [] (SB [⟨0x100, true⟩] [] []).m.bank (32 * 0 + 5) = [⟨0x100, true⟩]
    ∧ Sparse.get 0 (SB [] [] []).m.slot 0 = 5 ∧ Sparse.get 0 (SB [] [] []).m.slot 1 ≠ 5 ∧ S0.noAlloc 0x100 = false := by decide +kernel
theorem hyp_BankSlots_data : CleanLine (SB [] [0x100] [(0x100, [rq .read 0x8000 8])]) 0x100 := ⟨rfl, rfl, rfl, by decide +kernel⟩
theorem test_bank_writes_first : after (.bankSlot 0 5) (SB [⟨1, false⟩, ⟨2, true⟩, ⟨3, true⟩] [] [])
    (fun t => Sparse.get [] t.m.bank 5 = [⟨1, false⟩, ⟨3, true⟩]) = true := by decide +kernel
theorem test_data_arrival : after (.dramDataArrival 0x100) { SB [] [0x100] [(0x100, [rq .read 0x8000 8])] with mem := [(0x8001, 3)] }
    (fun t => t.resps.map Resp.data = [[0, 3, 0, 0, 0, 0, 0, 0]] && (t.llcFind 0x100).isSome) = true := by decide +kernel
/-- Channel 0 next takes slot `k`. -/
def SSlot (k : Nat) : State := { S0 with m := { S0.m with slot := [(0, k)] } }
theorem hyp_ChannelUpkeep : S0.rotaOn 383 = true ∧ S0.rf .ROTA 383 0 31 6 = 0 ∧ Sparse.get 0 S0.m.patq 0 = 0
    ∧ Sparse.get 0 (SSlot 32).m.slot 0 = 32 ∧ Sparse.get 0 (SSlot 33).m.slot 0 = 33
    ∧ CleanLine S0 (S0.lineAt 383 (S0.rf .PATROL 383 0 25 0))
    ∧ Sparse.get [] ({ S0.m with scrubq := [(7, [(0x100, false)])] } : Mem).scrubq 7 = [(0x100, false)] := by
  and_intros <;> first | exact issues_of (by decide +kernel) | decide +kernel
/-- A REGION section whose record 0 has a backing copy in region 2 (R231, R465). -/
def patR : Sparse Byte := [(0, 4), (4, 16), (12, 0x40), (14, 4)]
theorem hyp_ChannelUpkeep_restore : bit (({ S0 with pat := patR, m := { S0.m with restore := [0x100] } } : State).lineRegion 0x100) 50 = 1
    ∧ fld (({ S0 with pat := patR } : State).lineRegion 0x100) 48 37 = 2 := by decide +kernel
theorem test_refresh_status : after (.refreshSlot 0 85 true) (SSlot 32) (fun t => t.rn .TEMP 0 0 = 85 + 256 && t.rf .ROTA 0 0 5 0 = 32) = true := by
  decide +kernel
theorem test_restore : after (.backingRestoreComplete 0x100)
    { S0 with pat := patR, mem := [(2 * 2 ^ 30 + 0x8003, 9)], m := { S0.m with restore := [0x100] } }
    (fun t => t.byte 0x8003 = 9 && t.rn .RESTORE (t.home 0x100) 0 = 1) = true := by decide +kernel
theorem test_snapshot : after (.dgctlSnap 2 2) (S [] [(.DGSUM, 2, 1, 0xABCD), (.DGSUM, 2, 0, 5), (.DGFLAG, 2, 0, 2)])
    (fun t => t.rn .DGSNAP 2 1 = 0xABCD && t.rn .DGSUM 2 1 = 0 && t.rn .DGSUM 2 0 = 5 && t.rn .DGFLAG 2 0 = 0x2_0000) = true := by decide +kernel
theorem hyp_DieClears : bit 0x8000 15 = 1 ∧ bit 0x8000 0 = 0 ∧ (S0.rd .DGSUM 2 15) = 0 := by decide +kernel
/-! ### Launches and cores (p10) -/

/-- A LAUNCH of flask 0 on core 0 (and, where `more`, core 1): 16-register groups, one on F at 0x100, two on B at 0x200. -/
def dL (todo : List Nat) : Desc :=
  { idx := 0, words := [bits [(16, 1), (32, 9)], bits [(0, 0), (12, 1)], bits [(13, 1), (18, 2)], bits [(0, 0x100), (20, 0x200), (40, 0x300)], 0x77],
    tries := 0, disp := true, todo := todo, acc := [], rej := [] }
/-- The module with descriptor `d` in hand of flask 0. -/
def SQ (d : Desc) (gs : List Group) (rs : List (Reg × Nat × Nat × Word64)) : State :=
  { S gs rs with queue := [(0, { QueueSt.init with hand := some d })] }
theorem hyp_LaunchAcceptance : (SQ (dL [0]) [] []).launching 0 1 = some (0, dL [0]) ∧ (SQ (dL [0]) [] []).inSvc 0 = true
    ∧ (SQ (dL [0]) [] []).coldBit 0 = false ∧ ((SQ (dL [0]) [] []).core 0).awake = true ∧ ((SQ (dL [0]) [] []).core 0).kindBusy false = false
    ∧ (SQ (dL [0]) [] []).rejects 0 0 (dL [0]) = false ∧ ((SQ (dL [0]) [G] []).core 0).kindBusy false = true
    ∧ (SQ (dL [0, 1]) [] [(.QMAP, 0, 0, 0)]).launching 0 1 = some (0, dL [0, 1]) ∧ (SQ (dL [0, 1]) [] [(.QMAP, 0, 0, 0)]).inSvc 0 = false := by
  decide +kernel
/-- A GLAUNCH of guest flask 0 on core 0: one group of 16 registers at 0x80000 - 0x8000. -/
def dG : Desc :=
  { idx := 0, words := [bits [(16, 2)], bits [(12, 1)], bits [(9, 1)], 0x7_8000, 5], tries := 0, disp := true, todo := [0], acc := [], rej := [] }
def patG : Sparse Byte := [(0, 3), (5, 8), (8, 1), (12, 1), (13, 1), (271, 0x70), (274, 1), (784, 1), (1032, 1), (2056, 5), (2060, 1), (2064, 1)]
theorem hyp_LaunchAcceptance_guest : ({ SQ dG [] [(.SPLIT, 0, 0, 4)] with pat := patG } : State).launching 0 2 = some (0, dG)
    ∧ ({ SQ dG [] [(.SPLIT, 0, 0, 4)] with pat := patG } : State).rejects 0 0 dG = false := by decide +kernel
theorem test_launch : after (.launchAccept 0 false) (SQ (dL [0]) [] [])
    (fun t => (t.core 0).groups.map (fun g => (g.strm, g.q, g.pc, g.unif 0)) = [(.f, 0, 0x100, 0x77), (.b, 1, 0x200, 0x77), (.b, 2, 0x200, 0x77)]
      && t.rn .SHAPE 0 0 = 8 + 2 * 256) = true := by decide +kernel
theorem hyp_CoreConditions : ((S0.modCore 0 fun c => { c with zbusy := true }).core 0).zbusy = true
    ∧ (S [{ G with strm := .g }] []).hasGuest 0 = true ∧ (S [{ G with strm := .g }] []).rf .GSTARVE 0 0 29 29 = 0
    ∧ S0.hasGuest 0 = false ∧ (S [G] [(.GSTARVE, 0, 0, 0x2000_0000)]).rf .GSTARVE 0 0 29 29 = 1 ∧ S0.inSvc 0 = true ∧ (S0.core 0).awake = true
    ∧ ((S0.modCore 0 fun c => { c with quar := true }).core 0).quar = true ∧ S0.quiet 0 false = true ∧ S0.quiet 0 true = true
    ∧ ({ S0 with quarDue := [0] } : State).quarDue.contains 0 = true := by decide +kernel
theorem test_sequencer_mismatch : after (.sequencerMismatch 0 .u) S0 (fun t => (t.core 0).stop = [4, 4, 4, 4] && t.rn .SEQMM 0 0 = 5
    && t.rn .QMAP 0 0 = 0xFFFF_FFFF_FFFF_FFFE && t.notices = [.stepEv 0 3]) = true := by decide +kernel

/-! ### The fabric between nodes (p11) -/

/-- A message: opcode, destination, source, job, DLEN; SEQ and the rest of word 1; OFFSET and BLEN; FLOOR. -/
def msg (op vc dst src job dlen seq w1 off blen floor : Nat) (d : List Byte) : Msg :=
  { w0 := BitVec.ofNat 64 (bits [(0, op), (6, vc), (8, dst), (22, src), (36, job), (52, dlen)]), w1 := BitVec.ofNat 64 (seq + w1),
    w2 := BitVec.ofNat 64 (bits [(0, off), (48, blen)]), w3 := BitVec.ofNat 64 (bits [(32, floor)]), data := d }
/-- A module that is node 1, whose flask 0 runs job 7 with window 0: offsets 0 to 0xFFFF at 0x4000, all permissions; node 2 by port 3. -/
def SN : State := S [G] [(.NODE, 0, 0, 0x8000_0001), (.JACT, 0, 0, 0x8000_0007), (.JWSIZE, 0, 32, BitVec.ofNat 64 (bits [(0, 16), (60, 7), (63, 1)])),
  (.JWTGT, 0, 32, 0x4000), (.ROUTE, 0, 2, 8), (.LNKSTAT, 3, 0, 1)]
def mRd : Msg := msg 1 0 1 2 7 0 1 0 0x80 7 1 []
def mWr : Msg := msg 2 0 1 2 7 2 1 0 0x80 7 1 [1, 2, 3, 4, 5, 6, 7, 8]
theorem hyp_RequestArrival : requestRow .rd mRd ∧ requestRow .wr mWr ∧ NewNumber SN mRd ∧ SN.storeUsed (mSrc mRd % 2) < 16384 ∧ SN.nodeValid = true
    ∧ SN.jobFlask mRd = some 0 ∧ SN.stopped 0 = false ∧ SN.jobWin 0 0 = (true, 0, 0x10000, 7, 0x4000) ∧ mOffset mRd % 128 + requestLen mRd ≤ 128
    ∧ bit (SN.jobWin 0 0).2.2.2.1 (permOf mRd) = 1 ∧ SN.reach none 0 (permOf mRd) (0x4000 + 0x80) (requestLen mRd) = true
    ∧ SN.jobFlask (msg 1 0 1 2 8 0 1 0 0x80 7 1 []) = none
    ∧ seqAbove (mSeq (msg 1 0 1 2 7 0 0 0 0x80 7 1 [])) (Sparse.get 0 SN.fab.base 2) = 0 := by
  refine ⟨Or.inl ⟨rfl, by decide +kernel⟩, Or.inr (Or.inl ⟨rfl, by decide +kernel⟩), ?_⟩
  unfold NewNumber; decide +kernel
theorem test_wr : after (.wr 3 mWr) SN (fun t => t.reqs.map (fun r => (r.kind, r.addr, r.size, r.data)) = [(.write, 0x4080, 8, [1, 2, 3, 4, 5, 6, 7, 8])]) = true := by
  decide +kernel
theorem test_reject : after (.rd 3 (msg 1 0 1 2 8 0 1 0 0x80 7 1 [])) SN
    (fun t => t.reqs = [] && t.rn .REJECT 3 0 = 1 && t.fab.store.map (fun e => (mOp e.msg, mStatus e.msg)) = [(0x10, 1)]) = true := by decide +kernel
def o0 : Outst := { dst := 2, seq := 5, req := rq .read 0 8, port := 3, msg := mRd }
def SO : State := { SN with fab := { SN.fab with outs := [o0] } }
/-- A group's read of node 2, offset 0x100. -/
def qRem : Req := rq .read (bits [(63, 1), (48, 2), (0, 0x100)]) 8
theorem hyp_CompletionArrival : o0 ∈ SO.fab.outs ∧ o0.dst = mSrc (msg 0x11 2 1 2 7 2 5 0 0 0 1 []) ∧ o0.seq = mSeq (msg 0x11 2 1 2 7 2 5 0 0 0 1 [])
    ∧ mOp (msg 0x11 2 1 2 7 2 5 0 0 0 1 []) = 0x11 ∧ bit qRem.addr 63 = 1 ∧ nodeOf qRem.addr = 2 ∧ SN.fab.ports.length = 16 ∧ SN.ownNode = 1
    ∧ bit (SN.rn .ROUTE 0 2) 3 = 1 ∧ SN.portUp 3 = true ∧ S0.nodeValid = false ∧ (∀ p, p < 16 → bit (SN.rn .ROUTE 0 3) p = 1 → SN.portUp p = false) := by
  decide +kernel
theorem test_rdrsp : after (.rdrsp 3 (msg 0x11 2 1 2 7 2 5 0 0 7 1 [8, 7, 6, 5, 4, 3, 2, 1])) SO
    (fun t => t.resps.map (fun r => (r.data, r.status)) = [([8, 7, 6, 5, 4, 3, 2, 1], 0)] && t.fab.outs = []) = true := by decide +kernel
theorem test_remote_intake : after (.remoteRequestIntake 0) { SN with reqs := [qRem] }
    (fun t => t.fab.outs.map (fun o => (o.dst, o.seq, o.port)) = [(2, 1, 3)] && (t.port 3).tx.length = 1 && t.reqs = []) = true := by decide +kernel
theorem get_none {α : Type} (d : α) (m : Sparse α) (i : Nat) (h : ∀ e ∈ m, e.1 ≠ i) : Sparse.get d m i = d := by
  induction m with
  | nil => rfl
  | cons e m ih =>
    obtain ⟨k, v⟩ := e
    rw [Sparse.get, if_neg (h (k, v) (by simp)), ih fun e he => h e (by simp [he])]
/-- No flask of the module has a job: no FLK_JACT has been written. -/
theorem noJob (f : Nat) : S0.jobOk f = false := by
  have h : ∀ e ∈ S0.regs, e.1 % 256 ≠ Reg.JACT.ctorIdx := by decide +kernel
  have g : S0.rd .JACT f 0 = 0 := get_none _ _ _ fun e he hk => h e he (by rw [hk, Reg.key]; exact Nat.mul_add_mod' _ _ _)
  rw [State.jobOk, State.rf, State.rn, g]; rfl
theorem hyp_FabricUpkeep : mOp (msg 5 3 1 2 0 0 0 0 0 0 9 []) = 5 ∧ mFloor (msg 5 3 1 2 0 0 0 0 0 0 9 []) = 9
    ∧ seqBelow 9 (Sparse.get 0 SN.fab.floorIn 2) = false ∧ SN.pickPort 2 0 = some 3 ∧ opKnown (mOp (msg 7 0 1 2 0 0 0 0 0 0 0 [])) = false ∧ opKnown 0x3A = false
    ∧ (∀ f, S0.jobOk f = false) ∧ SN.jobOk 0 = true ∧ (∀ w, w < 32 → SN.winOk 0 w = true) ∧ (∀ o ∈ SO.fab.outs, o.dst ≠ 3) ∧ (∃ o ∈ SO.fab.outs, o.dst = 2) := by
  and_intros <;> first | decide +kernel | exact noJob
theorem test_floor : after (.floor 3 (msg 5 3 1 2 0 0 0 0 0 0 9 [])) { SN with fab := { SN.fab with store := [⟨2, 8, mRd⟩, ⟨2, 9, mRd⟩, ⟨4, 1, mRd⟩] } }
    (fun t => t.fab.store.map Stored.seq = [9, 1]) = true := by decide +kernel
theorem test_route_zero_refused : after (.lnkRouteWrite 2 0) SO (fun t => t.rn .ROUTE 0 2 = 8 && t.rn .RSEQ 0 0 = 1) = true := by decide +kernel
/-! ### Ports (p12) -/

theorem leNat_leBytes (n v : Nat) : leNat (leBytes n v) = v % 256 ^ n := by
  induction n generalizing v with
  | zero => simp [leBytes, leNat, Nat.mod_one]
  | succ n ih =>
    have h8 : (BitVec.ofNat 8 v).toNat = v % 256 := by rw [BitVec.toNat_ofNat]
    rw [leBytes, leNat, ih, h8, pow_succ, mul_comm (256 ^ n) 256, Nat.mod_mul]
theorem leBytes_length (n v : Nat) : (leBytes n v).length = n := by
  induction n generalizing v with
  | zero => rfl
  | succ n ih => simp [leBytes, ih]
/-- A flit: bytes 0 to 195 with their CRC. -/
def flitOf (b : List Byte) : List Byte := b ++ leBytes 4 (flitCrc b).toNat
theorem slice_end (b c : List Byte) (n : Nat) (h : c.length = n) : slice (b ++ c) b.length n = c := by
  apply List.ext_getElem
  · simp [slice, h]
  · intro i h1 h2
    simp [slice, List.getD, h2]
theorem flitGood_flitOf (b : List Byte) (h : b.length = 196) : flitGood (flitOf b) = true := by
  have h4 : slice (flitOf b) 196 4 = leBytes 4 (flitCrc b).toNat := by
    have := slice_end b (leBytes 4 (flitCrc b).toNat) 4 (leBytes_length _ _)
    rwa [h] at this
  have ht : (flitOf b).take 196 = b := by simp [flitOf, ← h]
  simp only [flitGood, leAt, h4, leNat_leBytes, ht, Bool.and_eq_true, decide_eq_true_eq]
  exact ⟨by simp [flitOf, leBytes_length, h], Nat.mod_eq_of_lt (flitCrc b).isLt⟩
theorem slice_start (b c : List Byte) (i n : Nat) (h : i + n ≤ b.length) : slice (b ++ c) i n = slice b i n := by
  apply List.ext_getElem
  · simp [slice]
  · intro k h1 h2
    simp [slice] at h1
    simp [slice, List.getD, List.getElem?_append_left (show i + k < b.length by omega)]
/-- A module whose port 3 is trained. -/
def ST : State := S [] [(.LNKSTAT, 3, 0, 2)]
theorem hyp_FlitSending : ST.trained 3 = true ∧ ST.fab.ports.length = 16 ∧ (ST.port 3).slot % 4096 ≠ 4095 ∧ (ST.port 3).ka = ST.acnt / 25
    ∧ (ST.port 3).replay = [] ∧ ((ST.modPort 3 fun q => { q with cur := some (0, 0, mRd), left := [1, 2], ka := 1 }).port 3).left = [1, 2]
    ∧ ((ST.modPort 3 fun q => { q with slot := 4095 }).port 3).slot % 4096 = 4095
    ∧ ((ST.modPort 3 fun q => { q with replay := [(1, [2])] }).port 3).replay = [(1, [2])] := by decide +kernel
theorem test_replay : after (.flitSlot 3) (ST.modPort 3 fun q => { q with replay := [(1, [2])] }) (fun t => t.out = [.flit 3 [2]] && (t.port 3).replay = []) = true := by
  decide +kernel
/-- A DATA flit of LSN 0 that holds `mRd` alone; a SKIP. -/
def bData : List Byte := leBytes 8 0 ++ msgBytes mRd ++ List.replicate 156 0
def bKind (k : Nat) : List Byte := leBytes 8 (k + 2 * 2 ^ 27 + 5 * 2 ^ 29) ++ List.replicate 188 0
theorem ctl_flitOf (b : List Byte) (h : b.length = 196) : flitCtl (flitOf b) = leAt b 0 8 := by
  simp [flitCtl, leAt, flitOf, slice_start b _ 0 8 (by omega)]
theorem hyp_FlitReceiving : CleanFlit (flitOf bData) 0 ∧ fld (flitCtl (flitOf bData)) 14 3 = (ST.port 3).ack ∧ (ST.port 3).part = []
    ∧ slice (flitOf bData) 8 188 = msgBytes mRd ++ List.replicate (188 - (msgBytes mRd).length) 0
    ∧ CleanFlit (flitOf (bKind 2)) 2 ∧ CleanFlit (flitOf (bKind 3)) 3 ∧ CleanFlit (flitOf (bKind 1)) 1 ∧ flitGood [] = false
    ∧ mDlen mRd = 0 := by
  have h0 : bData.length = 196 := by decide +kernel
  have h (k : Nat) : (bKind k).length = 196 := by rw [bKind, List.length_append, leBytes_length, List.length_replicate]
  refine ⟨⟨flitGood_flitOf _ h0, ?_, ?_⟩, ?_, by decide +kernel, ?_, ⟨flitGood_flitOf _ (h 2), ?_, ?_⟩, ⟨flitGood_flitOf _ (h 3), ?_, ?_⟩,
    ⟨flitGood_flitOf _ (h 1), ?_, ?_⟩, rfl, by decide +kernel⟩
  all_goals first
    | (rw [ctl_flitOf _ (by exact h0)]; decide +kernel)
    | (rw [flitOf, slice_start bData _ 8 188 (by rw [h0])]; decide +kernel)
/-- A cable with a valid block: 2 m copper at 110 units. -/
def blk : List Byte := let b := [0x56, 0x4C, 1, 1, 2, 0, 110, 0] ++ List.replicate 22 0; b ++ leBytes 2 (b.foldl (fun a x => a + x.toNat) 0)
def cab : Cable := { ident := 0x11, media := .copper, len := 20, block := blk, active := false, hot := false }
theorem hyp_PortStates : blockOk blk = true ∧ leAt blk 6 2 = 110 ∧ S0.mayTrain 3 cab = true ∧ ST.trained 3 = true ∧ ST.portUp 3 = false
    ∧ blockOk ([] : List Byte) = false ∧ S0.mayTrain 3 { cab with block := [] } = true ∧ cableClass cab.media cab.len = some 1
    ∧ cableClass Media.copper 21 = none ∧ (S0.modPort 3 fun q => { q with cable := some { cab with active := true } }).mayTrain 3 { cab with active := true } = false ∧ S0.trained 3 = false ∧ (S0.port 3).ready = false
    ∧ (S0.port 3).cable = none ∧ (ST.port 3).cut = false := by decide +kernel
theorem test_training : after (.portTraining 3 true cab) S0 (fun t => t.trained 3 && t.rn .CABLE 3 0 = 110 * 2 ^ 16 + 2 ^ 9 + 2 * 2 ^ 5 + 1) = true := by
  decide +kernel
theorem test_idle_electrical : after (.electricalIdle 3) ST (fun t => !(t.trained 3) && t.rf .LNKSTAT 3 0 11 8 = 2 && t.rn .DOWN 3 0 = 1) = true := by
  decide +kernel

/-! ### The collective engines (p13, p14) -/

/-- A group of stream `st`. -/
def GS (st : Stream) (us : Sparse Word64) : Group := { G with strm := st, u := us }
def XU : Who := ⟨0, .u, 0⟩
/-- Queue 5 of flask 0 sends (or receives, `recv`): four slots of one part of 256 bytes; its peer is node 2's base 0x10; its own base 0x8000. -/
def SE (recv : Nat) (us : Sparse Word64) (ready : List (Nat × Nat × Nat)) (puts : Sparse Nat) : State :=
  let s := S [GS .f us] [(.RQCFG, 0, 5, BitVec.ofNat 64 (bits [(63, 1), (62, recv), (51, 3), (39, 1), (26, 2), (18, 6)])),
    (.RQPEER, 0, 5, BitVec.ofNat 64 (bits [(44, 2), (0, 0x10)])), (.RQBASE, 0, 5, 0x8000), (.JACT, 0, 0, 0x8000_0007)]
  { s with runner := { s.runner with ready := ready, puts := puts } }
/-- u3: offset 0x2000, 256 bytes, part 0. -/
def uQ : Sparse Word64 := [(3, BitVec.ofNat 64 (bits [(0, 0x2000), (20, 256)]))]
def wQ : BitVec 56 := W [(51, 3), (0, 5)]
theorem hyp_EngineInstructions : Issues (S [GS .u []] []) XU (GS .u []) true [] ∧ (S [GS .u []] []).uQuiet 0 = true
    ∧ Issues (SE 0 uQ [] []) X (GS .f uQ) true [256 + 3] ∧ (SE 0 uQ [] []).qOk 5 = true ∧ (SE 0 uQ [] []).qFlask 5 = 0 ∧ (SE 0 uQ [] []).qParts 5 = 1
    ∧ (SE 0 uQ [] []).qPartSz 5 = 256 ∧ (SE 0 uQ [] []).qCredit 5 0 = true ∧ (SE 0 uQ [] [(4096 * 5, 4)]).qCredit 5 0 = false
    ∧ (SE 0 uQ [] []).lsOk 0 false 0x2000 256 = true ∧ (SE 1 uQ [(5, 0, 0)] []).qRecv 5 = true ∧ (SE 1 uQ [(5, 0, 0)] []).engOk 0 0 0x8000 256 = true
    ∧ (SE 1 uQ [(5, 0, 0)] []).runner.ready.contains (5, 0, 0) = true ∧ (SE 1 uQ [] []).runner.ready.contains (5, 0, 0) = false
    ∧ (SE 0 uQ [] []).jobOk 0 = true ∧ NoErrors (SE 1 uQ [(5, 0, 0)] []) ∧ NoJournal (SE 1 uQ [(5, 0, 0)] []) 0 := by
  unfold NoJournal
  and_intros <;> first | exact issues_of (by decide +kernel) | decide +kernel
theorem test_qput : after (.qput X wQ) (SE 0 uQ [] []) (fun t => t.reqs.map (fun r => (r.kind, r.addr))
    = [(.write, 2 ^ 63 + 2 * 2 ^ 48 + 0x1_0000), (.write, 2 ^ 63 + 2 * 2 ^ 48 + 0x1_0080)] && t.qPuts 5 0 = 1) = true := by decide +kernel
theorem test_qtake : after (.qtake X wQ) { SE 1 uQ [(5, 0, 0)] [] with mem := [(0x8003, 6)] } (fun t => t.byte (aper 0 + 0x2003) = 6 && t.qTakes 5 0 = 1) = true := by
  decide +kernel
/-- Context 2 of flask 0 runs a round of two ranks, slice of one line a core, core 0 alone, buffers at 0x4000 and 0x5000. -/
def ringE : List Nat := [0, 0, bits [(0, 1), (17, 1), (24, 1)], bits [(0, 0x4000), (20, 0x5000)], bits [(0, 0), (12, 1), (25, 1)], 0]
def SG (r : RingSt) (us : Sparse Word64) : State :=
  let s := S [GS .f us] [(.CTXEN, 0, 0, 4), (.CTXOWN, 0, 0, 0), (.CTAB, 0, 0, 0x8000)]
  { s with runner := { s.runner with ctx := [(2, some r)] } }
def r1 : RingSt := { run := true, round := 1, flask := 0, ent := ringE, sent := 0, cred := 1, got := [], frees := [], freed := [], rcrd := [] }
def uR : Sparse Word64 := [(3, 0x2000)]
theorem hyp_EngineInstructions_ring : Issues (SG r1 uR) X (GS .f uR) true [256 + 3] ∧ (SG r1 uR).ctxOf 2 0 = true ∧ ((SG r1 uR).ring 2).run = true
    ∧ ((SG r1 uR).ring 2).has 0 = true ∧ ((SG r1 uR).ring 2).size = 2
    ∧ ((SG r1 uR).ring 2).present 0 0 1 = true ∧ ((SG r1 uR).ring 2).present 1 0 1 = false ∧ (SG r1 uR).lsOk 0 false 0x2000 16 = true
    ∧ (SG { r1 with run := false } uR).inFlight (fun q => q.src = .grp X) = false
    ∧ (∃ e s', (SG { r1 with run := false } uR).ctxEntry 0 2 = (some e, s')) := by
  refine ⟨issues_of (by decide +kernel), ?_⟩
  and_intros <;> first
    | decide +kernel
    | exact ⟨_, _, by unfold State.ctxEntry; rw [if_pos (by decide +kernel)]⟩
theorem test_rnext : after (.rnext X (W [(51, 3), (0, 2)])) (SG r1 uR) (fun t => t.le (aper 0 + 0x2000) 16 = bits [(32, 1), (64, 0x4000)]) = true := by
  decide +kernel

/-- A collective message of group 1, step 9, layer 0, stripe 0 at node (level 1, 0). -/
def cMsg (op node level step : Nat) (d : List Byte) : Msg :=
  { msg op 3 1 2 7 0 0 0 0 0 0 [] with data := leBytes 8 (bits [(16, step), (48, 1)]) ++ leBytes 8 (bits [(36, level), (41, node)]) ++ leBytes 16 0 ++ d }
/-- A module whose ladle group 1 serves flask 0: rank 0 of 2, window 4, step 9. -/
def SL : State := { S [] [(.NODE, 0, 0, 0x8000_0001), (.JACT, 0, 0, 0x8000_0007), (.GCFG, 0, 1, BitVec.ofNat 64 (bits [(63, 1), (14, 2), (43, 4)])),
  (.GSTEP, 0, 1, 9), (.LTAB, 0, 5, BitVec.ofNat 64 (bits [(48, 1)])), (.LWAIT, 0, 0, 100), (.JWSIZE, 0, 32, BitVec.ofNat 64 (bits [(0, 16), (60, 7), (63, 1)])),
  (.JWTGT, 0, 32, 0x4000)] with mem := [] }
theorem hyp_LadleMessages : Taken SL (cMsg 0x31 0 1 9 []) 0 ∧ (SL.layer 1 0).late = false ∧ SL.ladle.seen.contains (childKey (cMsg 0x31 0 1 9 [])) = false
    ∧ cLevel (cMsg 0x31 0 1 9 []) = 1 ∧ (2 * cNode (cMsg 0x31 0 1 9 []) + 1) * 2 ^ (cLevel (cMsg 0x31 0 1 9 []) - 1) < SL.gN 1
    ∧ cStep (cMsg 0x31 0 1 7 []) ≠ SL.gStep 1 ∧ cStep (cMsg 0x31 0 1 7 []) ≠ (SL.gStep 1 + 1) % 2 ^ 32
    ∧ ((SL.modLayer 1 0 fun l => { l with late := true }).layer 1 0).late = true ∧ SL.winAt 0 1 0 128 false = .inr 0x4000 ∧ cLayer (cMsg 0x33 0 1 9 []) ≠ creditLayer ∧ NoErrors SL ∧ NoJournal SL 0 := by
  refine ⟨⟨by decide +kernel, by decide +kernel, by decide +kernel⟩, ?_⟩
  unfold NoErrors NoJournal; decide +kernel
theorem test_part_held : after (.part 3 (cMsg 0x31 0 1 9 []) 0) SL (fun t => t.ladle.hold.map (fun h => (h.g, h.layer, h.level, h.node, h.stripe)) = [(1, 0, 1, 0, 0)]) = true := by
  decide +kernel
theorem test_late : after (.late 3 (cMsg 0x33 0 1 9 []) 0) SL (fun t => (t.layer 1 0).late && t.rn .LATE 0 0 = 1 && t.rf .GSTAT 0 1 0 0 = 1) = true := by
  decide +kernel
theorem test_tund : after (.tund 3 (cMsg 0x32 0 0 9 (List.replicate 128 5))) SL (fun t => t.byte 0x4000 = 5 && t.byte 0x407F = 5 && t.byte 0x4080 = 0) = true := by
  decide +kernel
def mk0 : Mark := { who := XU, pc := 0x1000, flask := 0, val := 0x1000 }
def e1 : List Nat := [0, 0, 0, 0, 0, bits [(24, 2), (36, 1)], 0, 0]
def SMk (m : Mark) (gm um : Nat) : State :=
  let s := SL.modLayer 1 0 fun l => { l with ent := e1, gm := gm, um := um }
  { s with ladle := { s.ladle with marks := [m] } }
theorem hyp_LadleProgress : (SMk mk0 0 0).ladle.marks.contains mk0 = true ∧ bit mk0.val 15 = 0 ∧ SL.gOk 1 = true ∧ SL.gFlask 1 = mk0.flask ∧ 0 < SL.nLayer 1
    ∧ ((SMk mk0 0 0).layer 1 0).gm < fld (((SMk mk0 0 0).layer 1 0).w 5) 35 24 ∧ fld (((SMk mk0 2 0).layer 1 0).w 5) 35 24 ≤ ((SMk mk0 2 0).layer 1 0).gm
    ∧ ((SMk mk0 2 0).layer 1 0).gm = fld (((SMk mk0 2 0).layer 1 0).w 5) 35 24 ∧ ((SMk mk0 2 0).layer 1 0).nstr = 0
    ∧ bit ({ mk0 with val := 0x9000 } : Mark).val 15 = 1 ∧ SL.gOk 0 = false
    ∧ SL.addrBad none 0 2 0x8000 8 = false ∧ ((SMk mk0 2 0).layer 1 0).ent ≠ [] := by decide +kernel
/-- A layer under both wait bounds: stripe 0 of two is open, one update has been marked, and no line of eight has come. -/
def SLim : State :=
  SL.modLayer 1 0 fun l => { l with ent := [0, 0, 0, 0, 2, 0, 0, 8], started := [0], lim := 100, blim := 100, um := 1 }
theorem hyp_LadleProgress_bounds : (SLim.layer 1 0).lim ≠ 0 ∧ 0 ∈ (SLim.layer 1 0).started ∧ (SLim.layer 1 0).late = false
    ∧ 0 < (SLim.layer 1 0).nstr ∧ 0 ∉ (SLim.layer 1 0).fin ∧ SLim.ladle.outq = [] ∧ (SLim.layer 1 0).blim ≠ 0 ∧ (SLim.layer 1 0).um ≠ 0
    ∧ (SLim.layer 1 0).lines < fld ((SLim.layer 1 0).w 7) 31 0 ∧ (SLim.layer 1 0).blate = false ∧ SLim.gOk 1 = true := by decide +kernel
theorem test_abandon : after (.layerAbandon 0 1 0) SLim (fun t => (t.layer 1 0).late && t.rf .GSTAT 0 1 0 0 = 1 && t.rn .LATE 0 0 = 1) = true := by
  decide +kernel
theorem test_gradient_mark : after (.gradientMark mk0) (SMk mk0 0 0) (fun t => (t.layer 1 0).gm = 1 && t.ladle.marks = []) = true := by decide +kernel
theorem test_excess_mark : after (.gradientMark mk0) (SMk mk0 2 0) (fun t => t.rf .GSTAT 0 1 4 4 = 1 && (t.layer 1 0).gm = 2) = true := by decide +kernel
theorem test_gcfg_refused : after (.ldlGcfgWrite 2 (BitVec.ofNat 64 (bits [(63, 1), (14, 2), (43, 65)]))) SL (fun t => !(t.gOk 2) && t.rn .RSEQ 0 0 = 1) = true := by
  decide +kernel
/-! ### The runner ring and the votes (p15, p16, p17) -/

/-- A collective message of job 7 with header words `w0` to `w3`. -/
def cMsg4 (op w0 w1 w2 w3 : Nat) (d : List Byte) : Msg :=
  { msg op 3 1 2 7 0 0 0 0 0 0 [] with data := leBytes 8 w0 ++ leBytes 8 w1 ++ leBytes 8 w2 ++ leBytes 8 w3 ++ d }
/-- `SG` and `SE` as node 1, their flask in job 7. -/
def job7 (s : State) : State := (s.wr .NODE 0 0 0x8000_0001).wr .JACT 0 0 0x8000_0007
/-- RBLK or RCRD of context 2, round 1, block `t`, line `l`. -/
def ringMsg (op t l : Nat) (d : List Byte) : Msg := cMsg4 op 0 0 (bits [(0, 2), (5, 1), (37, t), (44, l)]) 0 d
/-- QRDY or QCRD of queue 5, part 0, slot number `k`. -/
def qMsg (op k : Nat) : Msg := cMsg4 op 0 0 0 (bits [(0, 5), (20, k)]) []
theorem hyp_RunnerMessages : ((SG r1 []).ring 2).run = true ∧ r1.sent < r1.sends ∧ r1.accum = false ∧ r1.present 0 0 r1.bsz = true
    ∧ (job7 (SG r1 [])).jobFlask (ringMsg 0x35 0 0 []) = some 0 ∧ (job7 (SG r1 [])).ctxOf (mCtx (ringMsg 0x35 0 0 [])) 0 = true
    ∧ mRound (ringMsg 0x35 0 0 []) = 1 ∧ r1.got.contains (mT (ringMsg 0x35 0 0 []), mLine (ringMsg 0x35 0 0 [])) = false
    ∧ r1.at 1 0 = aper 0 + 0x5000 ∧ (job7 (SG r1 [])).engOk 0 1 (aper 0 + 0x5000) 128 = true ∧ ({ r1 with got := [(0, 0)] } : RingSt).got.contains (0, 0) = true
    ∧ mOp (ringMsg 0x36 0 0 []) = 0x36 ∧ ({ r1 with rcrd := [3] } : RingSt).rcrd.contains (mT (ringMsg 0x36 3 0 [])) = true ∧ NoJournal (job7 (SG r1 [])) 0 ∧ (job7 (SG r1 [])).m.miss = [] := by
  unfold NoJournal; decide +kernel
theorem hyp_RunnerMessages_queues : (job7 (SE 1 [] [] [])).jobFlask (qMsg 0x37 3) = some 0 ∧ (job7 (SE 1 [] [] [])).qOk 5 = true ∧ (job7 (SE 1 [] [] [])).qFlask 5 = 0
    ∧ (mQueue (qMsg 0x37 3)).2.1 < (job7 (SE 1 [] [] [])).qParts 5 ∧ (job7 (SE 1 [] [] [])).qRecv 5 = true
    ∧ 3 < (job7 (SE 1 [] [] [])).qTaken 5 + (job7 (SE 1 [] [] [])).qSlots 5 ∧ (job7 (SE 1 [] [] [])).qTaken 5 + (job7 (SE 1 [] [] [])).qSlots 5 ≤ 4
    ∧ (job7 (SE 1 [] [(5, 0, 3)] [])).runner.ready.contains (mQueue (qMsg 0x37 3)) = true ∧ (job7 (SE 0 [] [] [])).qRecv 5 = false
    ∧ (SE 0 [] [] []).runner.creds.contains (mQueue (qMsg 0x38 3)) = false := by decide +kernel
theorem test_rblk_line : after (.rblk 3 (ringMsg 0x35 0 0 (List.replicate 128 7))) (job7 (SG r1 []))
    (fun t => t.byte (aper 0 + 0x507F) = 7 && t.byte (aper 0 + 0x5080) = 0 && (t.ring 2).got = [(0, 0)]) = true := by decide +kernel
theorem test_qrdy_full : after (.qrdy 3 (qMsg 0x37 4)) (job7 (SE 1 [] [] [])) (fun t => t.notices = [.fault 0 5 0 .f 0 0 0]) = true := by decide +kernel

/-- Flask 0 of job 7 under vote binding 0: rank 0 of 2, step 9 of START 9, no bound; its step-end object at 0x9000, target 2. -/
def SV (t : VoteSt) (gs : List Group) (rs : List (Reg × Nat × Nat × Word64)) : State :=
  { job7 (S gs ([(.VCFG, 0, 0, BitVec.ofNat 64 (bits [(63, 1), (18, 2)])), (.VSTART, 0, 0, 9), (.VEND, 0, 0, BitVec.ofNat 64 (bits [(0, 0x9000), (48, 2)])),
      (.SREP, 0, 0, 0x10_0000)] ++ rs)) with vote := [(0, some t)] }
def v9 : VoteSt := VoteSt.start 9
def rec0 (flags : Nat) : VRec := { flags := flags, count := 1, ovf := 0, nf := 0, seen := 0, max := List.replicate 64 0 }
/-- A VOTE of binding 0 and step 9: to node (level, 0), or the decision. -/
def vMsg (level down flags : Nat) : Msg := cMsg4 0x39 (bits [(16, 9)]) (bits [(36, level)]) 0 (bits [(63, down)]) (rec0 flags).bytes
theorem hyp_VoteTree : (SV v9 [] []).vs 0 = some v9 ∧ (SV v9 [] []).vOk 0 = true ∧ v9.term = none ∧ (SV v9 [] [(.STEP, 0, 0, 2)]).rf .STEP 0 0 3 1 ≠ 0
    ∧ (SV v9 [] []).rf .STEP 0 0 3 1 = 0 ∧ (SV { v9 with sealed := true } [] []).rf .RBUD 0 0 30 30 = 0 ∧ v9.sealed = false
    ∧ (SV v9 [] []).jobFlask (vMsg 1 0 1) = some 0 ∧ cGrp (vMsg 1 0 1) = 0 ∧ cStep (vMsg 1 0 1) = v9.step ∧ bit (cw (vMsg 1 0 1) 3) 63 = 0
    ∧ bit (cw (vMsg 0 1 1) 3) 63 = 1 ∧ place' 1 0 0 ((SV v9 [] []).vN 0) = (SV v9 [] []).vRank 0 ∧ (2 * 0 + 1) * 2 ^ (1 - 1) < (SV v9 [] []).vN 0
    ∧ ({ v9 with seen := [[0, 1, 0]] } : VoteSt).seen.contains [0, cLevel (vMsg 1 0 1), cNode (vMsg 1 0 1)] = true
    ∧ (SV v9 [] []).quarDue = [] ∧ ({ SV v9 [] [] with quarDue := [3] } : State).quarDue ≠ [] := by decide +kernel
theorem hyp_VoteTree_bound : ({ v9 with kids := [(1, 0, rec0 1)], term := some (rec0 1), wait := 5 } : VoteSt).wait ≠ 0 ∧ 1 ∉ v9.nodes ∧ 1 ∉ v9.expired ∧ v9.dec = none
    ∧ 1 = treeDepth ((SV v9 [] []).vN 0) ∧ (SV v9 [] []).notices.contains (.stepEv 0 0) = false := by decide +kernel
theorem test_vote_expiry : after (.voteWaitExpiry 0 1) (SV { v9 with kids := [(1, 0, rec0 1)], term := some (rec0 1), wait := 5 } [] [])
    (fun t => ((t.vs 0).bind (·.dec)).any fun d => d.flags % 2 = 0 && bit d.flags 6 = 1) = true := by decide +kernel
theorem test_vote_joins : after (.voteUp 3 (vMsg 1 0 1)) (SV { v9 with kids := [(1, 0, rec0 2)], term := some (rec0 2) } [] [])
    (fun t => ((t.vs 0).bind (·.dec)).any fun d => d.flags = 2 && d.count = 2) = true := by decide +kernel
theorem test_fault_at_once : after (.moduleTerm 0) (SV v9 [] [(.STEP, 0, 0, 2)])
    (fun t => ((t.vs 0).bind (·.term)).any fun d => d.flags = 0x80) = true := by decide +kernel
theorem hyp_Notices : ({ S0 with notices := [.fault 0 1 0 .f 0 0x1000 5] } : State).notices[0]? = some (.fault 0 1 0 .f 0 0x1000 5)
    ∧ S0.rf .QSTAT 0 0 2 1 = 0 ∧ (S [G] [(.QSTAT, 0, 0, 2)]).rf .QSTAT 0 0 2 1 = 1 ∧ (S [G] [(.QSTAT, 0, 0, 4)]).rf .QSTAT 0 0 2 2 = 1
    ∧ ({ S0 with notices := [.stepEv 0 5] } : State).notices[0]? = some (.stepEv 0 5) ∧ (S0.core 0).hflask = 0 ∧ isG G.strm = false
    ∧ (if S0.isGuest 0 = true then S0.guestOf 0 else (S0.core 0).hflask) = 0 ∧ isG G.strm = S0.isGuest 0
    ∧ ({ S0 with notices := [.binding 0 0] } : State).notices.contains (.binding 0 0) = true
    ∧ ({ S0 with notices := [.completion 0 0] } : State).notices.contains (.completion 0 0) = true := by decide +kernel
theorem test_fault_notice : after (.faultNotice 0) { S0 with notices := [.fault 0 3 0 .f 0 0x1000 5] }
    (fun t => t.rn .FAULT1 0 0 = 0x1000 * 2 ^ 44 + 5 && t.rf .FAULT0 0 0 55 48 = 3 && t.rn .STEP 0 0 = 2 && !((t.core 0).runs .f)) = true := by decide +kernel
theorem test_completion_notice : after (.completionNotice 0 0) (({ S0 with notices := [.completion 0 0] } : State).modCore 0 fun c => { c with phold := true })
    (fun t => !((t.core 0).phold)) = true := by decide +kernel
/-- The value of a binding of flask 0 written VALID, rank 0 of 2. -/
def vOn : BitVec 64 := BitVec.ofNat 64 (bits [(63, 1), (18, 2)])
theorem hyp_VoteSteps : S0.vOk 0 = false ∧ S0.jobOk 0 = false ∧ fld vOn.toNat 17 4 < fld vOn.toNat 32 18 ∧ S0.isHost 0 = true ∧ S0.isGuest 0 = false
    ∧ bit vOn.toNat 41 = 0 ∧ (SV v9 [] []).engOk 0 0 0x9000 8 = true ∧ Holds8 ({ SV v9 [] [] with mem := [(0x9000, 2)] } : State) 0x9000 2
    ∧ (SV v9 [] []).groupsDone 0 = true ∧ Holds8 (SV v9 [] []) 0x9000 0 ∧ Sound (SV { v9 with replay := 1 } [] [])
    ∧ (SV v9 [] []).engOk 0 0 (v9.base + 0xA010) 16 = true ∧ v9.base % 4096 = 0 ∧ (SV { v9 with dec := some (rec0 1) } [] []).ladle.early = []
    ∧ (SV v9 [] []).bindingOf 0 = some 0 := by
  and_intros <;> first | exact issues_of (by decide +kernel) | decide +kernel
theorem test_seal : after (.stepEndPoll 0) { SV v9 [G] [(.DGSUM, 2, 0, 0xAB)] with mem := [(0x9000, 2)] }
    (fun t => t.rf .SHADOW 0 0 1 1 = 1 && t.rn .DGSNAP 2 0 = 0xAB && t.rn .DGSUM 2 0 = 0 && (t.core 0).phold) = true := by decide +kernel
theorem test_skip_lowers_bias : after (.stepCompletion 0) (SV { v9 with dec := some { rec0 4 with ovf := 1 } } []
    [(.SPOL, 0, 0, BitVec.ofNat 64 (bits [(63, 1), (52, 2)])), (.SCALE, 0, 0, 0x0005_01FE)])
    (fun t => t.rf .SCALE 0 0 15 8 = 0xFE && t.rf .SCALE 0 0 23 16 = 0 && t.rf .POUR 0 0 47 32 = 1 && t.rf .SHADOW 0 0 0 0 = 0
      && (t.vs 0).any fun v => v.step = 10) = true := by decide +kernel
theorem test_clean_pours : after (.stepCompletion 0) (SV { v9 with dec := some { rec0 1 with count := 2 } } [] [])
    (fun t => t.rf .SHADOW 0 0 0 0 = 1 && t.rf .POUR 0 0 47 0 = 9) = true := by decide +kernel
/-! ### Votes and work queues under control (p18, p19, p20) -/

/-- A pattern image whose flask 0 is privileged for itself, with 128 cores in its core map. -/
def patP : Sparse Byte := [(0, 3), (5, 8), (10, 1), (12, 1), (13, 1), (271, 0x70), (274, 1), (784, 1)] ++ (List.range 16).map fun i => (1032 + i, 0xFF)
def jMsg (kind : Nat) : Msg := cMsg4 0x34 (bits [(16, 9)]) kind 0 0 []
/-- A restore of slot 1, node 2, step 9; the two slot headers, both of step 9, the first incomplete. -/
def rCmd : BitVec 64 := BitVec.ofNat 64 (bits [(0, 1), (2, 2), (32, 9)])
def SRr : State := { SV v9 [] [] with mem := [(0x0, 9), (0x40, 9), (0x4F, 0x80)], vote := [], regs := ((SV v9 [] []).wn .VCFG 0 0 0).regs }
theorem hyp_VoteControls : ((SV v9 [] []).wr .ROUTE 0 2 8 |>.wr .LNKSTAT 3 0 1).collPort (2 % 2 ^ 14) 0 0 = some 3
    ∧ (SV { v9 with term := some (rec0 1) } [] []).vN 0 = 2 ∧ (SV { v9 with term := some (rec0 1) } [] []).vRank 0 = 0
    ∧ (SV { v9 with term := some (rec0 1) } [] [(.VCFG, 0, 0, BitVec.ofNat 64 (bits [(63, 1), (18, 2), (4, 1)]))]).vRank 0 = 1
    ∧ fld (cw (jMsg 0) 1) 1 0 = 0 ∧ fld (cw (jMsg 1) 1) 1 0 = 1 ∧ S0.jobFlask (jMsg 1) = none ∧ (SV v9 [] []).jobFlask (jMsg 1) = some 0
    ∧ (SV v9 [] []).bindingOf 0 = some (cGrp (jMsg 1)) ∧ S0.vOk 0 = false ∧ (1#32).toNat = (S0.rf .POUR 0 0 31 0 + 1) % 2 ^ 32
    ∧ ({ S0 with pat := patP } : State).hasPriv 0 = true ∧ S0.hasPriv 0 = false ∧ 128 ≤ (({ S0 with pat := patP } : State).barList 0).length
    ∧ (S0.barList 0).length < 128 := by decide +kernel
theorem hyp_VoteControls_restore : bit rCmd.toNat 0 = 1 ∧ SRr.vOk 0 = false ∧ Sound SRr ∧ (∀ j < 2, riserAt SRr 0 (0x40 * j) 16 % 16 = 0)
    ∧ SRr.engOk 0 0 (riserAt SRr 0 0x40 16) 16 = true ∧ SRr.le (SRr.view (riserAt SRr 0 0x40 16)) 8 % 2 ^ 32 = fld rCmd.toNat 63 32
    ∧ bit (SRr.le (SRr.view (riserAt SRr 0 0x40 16) + 8) 8) 63 = 1 ∧ bit (SRr.le (SRr.view (riserAt SRr 0 0 16) + 8) 8) 63 = 0 := by
  and_intros <;> first | exact issues_of (by decide +kernel) | decide +kernel
theorem test_finish : after (.pourFinish 0 1) S0 (fun t => t.rn .POUR 0 0 = 1 && t.rn .SHADOW 0 0 = 1) = true := by decide +kernel
theorem test_tbar_refused : after (.tbarWrite 0 4) S0 (fun t => t.rn .TBAR 0 0 = 0 && t.rn .RSEQ 0 0 = 1) = true := by decide +kernel

/-- The queue of flask 0: rings of 16 entries at 0x20000 and 0x30000, `tail` posted, and the state `q`. -/
def SW (q : QueueSt) (rs : List (Reg × Nat × Nat × Word64)) (m : Sparse Byte) : State :=
  { S [] ([(.QCTL, 0, 0, BitVec.ofNat 64 (bits [(0, 1), (5, 4), (10, 4)])), (.SQBASE, 0, 0, 0x2_0000), (.CQBASE, 0, 0, 0x3_0000)] ++ rs)
    with queue := [(0, q)], mem := m }
def qI : QueueSt := QueueSt.init
/-- A descriptor with its words 0 to 3. -/
def dW (w0 w1 w2 w3 : Nat) (disp : Bool) : Desc :=
  { idx := 0, words := [w0, w1, w2, w3, 0, 0, 0, 0], tries := 0, disp := disp, todo := [], acc := [], rej := [] }
def qD (d : Desc) : QueueSt := { qI with hand := some d }
def rec1 : QRec := { w0 := 5, w1 := 0, w2 := 0, w3 := 0, irq := false }
theorem hyp_WorkQueue : (SW qI [] []).rf .QCTL 0 0 0 0 = 1 ∧ S0.rf .QCTL 0 0 0 0 = 0 ∧ (SW qI [] []).ringOk 0 4 0x2_0000 64 = true
    ∧ (SW qI [] []).ringOk 0 3 0x2_0000 64 = false ∧ (SW qI [(.QSTAT, 0, 0, 4)] []).rf .QSTAT 0 0 2 2 = 1 ∧ ((SW qI [] []).q 0).held = []
    ∧ ((SW { qI with held := [rec1] } [] []).wn .CQHEAD 0 0 4).cqRoom 0 = true
    ∧ (SW qI [] []).dpaOff 0 ((SW qI [] []).cqBase 0 + 32 * ((SW qI [] []).rn .CQTAIL 0 0 % 2 ^ (SW qI [] []).cqLog 0)) 32 = some 0x3_0000
    ∧ (SW { qI with since := 3 } [(.IMOD, 0, 0, 0x1_0000)] []).rf .IMOD 0 0 31 16 ≠ 0 ∧ NSet.has S0.msixEn 0 = false
    ∧ ({ SW qI [] [] with stby := true } : State).pwr.leaving = false ∧ (SW qI [] []).stby = false
    ∧ (SW qI [] []).cqRoom 0 = true ∧ Sound (SW qI [] []) ∧ (SW qI [(.SQTAIL, 0, 0, 1)] []).qRuns 0 = true
    ∧ (SW qI [(.SQTAIL, 0, 0, 1)] []).rn .SQHEAD 0 0 ≠ (SW qI [(.SQTAIL, 0, 0, 1)] []).rn .SQTAIL 0 0 ∧ sqEntry (SW qI [] []) 0 0 = some 0x2_0000
    ∧ fld (wordsAt (SW qI [] []) 0x2_0000).head! 15 0 = 0 ∧ fld (wordsAt (SW qI [] [(0x2_0000, 1)]) 0x2_0000).head! 15 0 ≠ 0
    ∧ (SW qI [] []).badOp 0 (dW (bits [(16, 8)]) 0 0 0 false) = true ∧ (SW qI [] []).badOp 0 (dW 0 0 0 0 false) = false := by
  and_intros <;> first | exact issues_of (by decide +kernel) | decide +kernel
/-- NOP; a SIGNAL of 5 at 0x8000; a WAIT there for 3 with a limit; a COPY of 16 bytes from 0x8000 to 0x9000. -/
def dNop : Desc := dW 0 0 0 0 false
def dSig : Desc := dW (bits [(16, 3)]) 0x8000 5 0 false
def dWait (b : Bool) : Desc := dW (bits [(16, 4)]) 0x8000 3 9 b
def dCopy : Desc := dW (bits [(16, 5)]) 0x8000 0x9000 16 false
theorem hyp_WorkQueue_descriptors : (SW (qD dNop) [] []).handFor 0 0 = some dNop ∧ (SW (qD dSig) [] []).handFor 0 3 = some dSig
    ∧ (SW (qD dSig) [] []).engOk 0 2 0x8000 8 = true ∧ (SW (qD dSig) [] []).awakeAt 0x8000 = true ∧ (SW (qD (dWait false)) [] []).handFor 0 4 = some (dWait false)
    ∧ (SW (qD (dWait true)) [] []).handHeld 0 4 = some (dWait true) ∧ (SW (qD (dWait true)) [] []).le 0x8000 8 < 3
    ∧ (SW (qD dCopy) [] []).handFor 0 5 = some dCopy ∧ (SW (qD dCopy) [] []).rangeOk 0 0 2 0x8000 16 = true
    ∧ (SW (qD dCopy) [] []).rangeOk 0 1 2 0x9000 16 = true ∧ (SW (qD dCopy) [] []).view 0x8000 = 0x8000 ∧ (SW (qD dCopy) [] []).view 0x9000 = 0x9000
    ∧ (SW qI [] []).handFor 0 0 = none ∧ (SW qI [] []).engOk 0 2 0xFFFF_FFFF_FFF8 8 = false := by decide +kernel
theorem test_nop_record : after (.queueNop 0) (SW (qD (dW (bits [(32, 0x77)]) 0 0 0 false)) [] [])
    (fun t => t.le 0x3_0000 8 = 0x77_1000_0000 && t.rn .CQTAIL 0 0 = 1 && (t.q 0).hand = none) = true := by decide +kernel
theorem test_copy : after (.copy 0) (SW (qD dCopy) [] [(0x8001, 6), (0x800F, 7), (0x8010, 8)])
    (fun t => t.le 0x9000 8 = 0x600 && t.byte 0x900F = 7 && t.byte 0x9010 = 0) = true := by decide +kernel
theorem test_take_badop : after (.descriptorTake 0) (SW qI [(.SQTAIL, 0, 0, 1)] [(0x2_0002, 8)])
    (fun t => t.rf .SQHEAD 0 0 31 0 = 1 && fld (t.le 0x3_0000 8) 27 24 = 6) = true := by decide +kernel

/-- LAUNCH, SAVE or RESTORE (`op`) of core 0, a 16-register group on F. -/
def dOp (op : Nat) (disp : Bool) (todo : List Nat) : Desc :=
  { idx := 0, words := [bits [(16, op)], bits [(12, 1)], if op = 1 then bits [(13, 1)] else 0, 0, 0, 0, 0, 0], tries := 0, disp := disp, todo := todo,
    acc := [], rej := [] }
/-- One with a core bitmap at 0x8000. -/
def dMap : Desc := { dOp 1 false [] with words := [bits [(16, 1)], bits [(12, 1), (25, 1)], bits [(13, 1)], 0, 0, 0, 0x8000, 0] }
/-- A saved slot of flask 0, core 0: one group. -/
def sv0 : Saved :=
  { back := false, groups := [G], split := 0, shape := 0, ewin := 0, lpg := 0, ls := [(3, 7)], lsP := [], planes := [], edge := [],
    edgeP := [], rc := [] }
/-- The queue state `q` beside groups on core 0, and a slot. -/
def SX (q : QueueSt) (gs : List Group) (v : Option Saved) : State := { S gs [] with queue := [(0, q)], saved := v.toList.map fun v => (0, some v) }
theorem hyp_FlaskControl : (SX (qD (dOp 1 false [])) [] none).handFor 0 1 = some (dOp 1 false []) ∧ launchOk 1 (dOp 1 false []) = true
    ∧ setOk (SX qI [] none) 0 (dOp 1 false []) ∧ ¬setOk (SX qI [] none) 0 { dOp 1 false [] with words := [0, bits [(12, 2)]] }
    ∧ (SX (qD dMap) [] none).handFor 0 1 = some dMap ∧ (SX (qD dMap) [] none).dpaCut 0 (dMap.w 6) 512 = some [(0x8000, 512)]
    ∧ (SX (qD dMap) [] none).dpaCut 0 (2 ^ 28) 512 = none
    ∧ (SX qI [] none).runsOn 0 (dOp 1 true []) 0 = false ∧ (SX qI [G] none).runsOn 0 (dOp 1 true []) 0 = true
    ∧ (SX (qD (dOp 6 true [0])) [G] none).handHeld 0 6 = some (dOp 6 true [0]) ∧ (dOp 6 true [0]).todo.Nodup
    ∧ (SX (qD (dOp 6 false [])) [G] none).handHeld 0 6 = none ∧ (SX (qD (dOp 6 false [])) [G] none).handFor 0 6 = some (dOp 6 false [])
    ∧ saveNo (SX qI [G] none) 0 0 = false ∧ saveNow (SX qI [G] none) 0 0 = true ∧ saveNo (SX qI [] none) 0 0 = true
    ∧ (SX (qD (dOp 7 true [0])) [] (some sv0)).handHeld 0 7 = some (dOp 7 true [0]) ∧ restoreNo (SX qI [] none) 0 0 = true
    ∧ restoreNo (SX qI [] (some sv0)) 0 0 = false ∧ restoreWait (SX qI [] (some sv0)) 0 0 = false ∧ restoreWait (SX qI [G] (some sv0)) 0 0 = true
    ∧ (SX qI [] (some sv0)).rf .SPLIT 0 0 1 0 = sv0.split ∧ S0.rf .QSTAT 0 0 2 2 = 0 ∧ (S [G] [(.QSTAT, 0, 0, 4)]).rf .QSTAT 0 0 2 2 = 1
    ∧ S0.placeOf 0 0 = true ∧ (S0.core 0).power = 0 := by
  refine ⟨by decide +kernel, by decide +kernel, by unfold setOk; decide +kernel, by unfold setOk; decide +kernel, ?_⟩
  decide +kernel
theorem hyp_FlaskControl_guest : ({ SX (qD (dOp 2 false [])) [] none with pat := patG } : State).handFor 0 2 = some (dOp 2 false [])
    ∧ launchOk 2 (dOp 2 false []) = true := by decide +kernel
theorem test_save : after (.save 0) (SX (qD (dOp 6 true [0])) [G] none)
    (fun t => ((Sparse.get none t.saved 0).any fun v => v.groups = [G]) && (t.core 0).groups = [] && (t.q 0).hand = none) = true := by decide +kernel
theorem test_restore_slot : after (.restore 0) (SX (qD (dOp 7 true [0])) [] (some sv0)) (fun t => (t.core 0).groups = [G] && t.byte (aper 0 + 3) = 7) = true := by
  decide +kernel
/-! ### Boot (p22) -/

theorem get_map (d : Byte) (f : Nat → Byte) (l : List Nat) (i : Nat) : Sparse.get d (l.map fun i => (i, f i)) i = if i ∈ l then f i else d := by
  induction l with
  | nil => rfl
  | cons a l ih =>
    rw [List.map_cons, Sparse.get, ih]
    by_cases h : a = i
    · subst h; simp
    · simp [h, Ne.symm h]
/-- An image for slot 0, without the zeros: the header, nine sections, one host flask with a window and a host window of 256 MiB
in region 0, which it owns. -/
def img : Sparse Byte :=
  [(0, 0x56), (1, 0x50), (2, 0x41), (3, 0x54), (4, 1), (0x10, 0xB8), (0x11, 0x9C), (0x14, 9), (0x1000, 1), (0x1004, 80), (0x1058, 2),
    (0x1060, 3), (0x1065, 8), (0x106c, 1), (0x106d, 1), (0x116f, 112), (0x1172, 1), (0x1370, 1), (0x1868, 4), (0x186d, 96), (0x1870,
    16), (0x7870, 5), (0x7875, 16), (0x8878, 6), (0x887d, 2), (0x8a80, 7), (0x8a85, 2), (0x8c88, 8), (0x8c8c, 32), (0x8cb0, 9),
    (0x8cb5, 16)]
/-- The sections but FIRMWARE of that image, as stage 9 loads them. -/
def patI : Sparse Byte :=
  [(0, 1), (4, 80), (88, 3), (93, 8), (100, 1), (101, 1), (359, 0x70), (362, 1), (872, 1), (2144, 4), (2149, 0x60), (2152, 0x10), (26728, 5),
    (26733, 0x10), (30832, 6), (30837, 2), (31352, 7), (31357, 2), (31872, 8), (31876, 32), (31912, 9), (31917, 0x10)]
/-- Byte `i` of the SPI NOR: the image in slot 0, the rest erased. -/
def norF (i : Nat) : Byte := if i < 0x9CB8 then Sparse.get 0 img i else 0xFF
def norI : Sparse Byte := (List.range 0x9CB8).map fun i => (i, Sparse.get 0 img i)
theorem get_norI (i : Nat) : Sparse.get 0xFF norI i = norF i := by
  rw [norI, get_map]; simp [norF]
/-- A module at a point of boot, with that image in its SPI NOR. -/
def SI (b : Boot) : State :=
  { State.reset with
    pins := { State.reset.pins with por := false, rising := false }
    mgt := { State.reset.mgt with boot := b, nor := norI } }
theorem norAt_SI (b : Boot) (a n : Nat) : (SI b).norAt a n = (List.range n).map fun i => norF (a + i) := by
  simp only [State.norAt, SI, get_norI]
theorem sections_SI (b : Boot) : (SI b).sections 0 = [(1, 0, 0x1000, 80), (2, 0, 0x1058, 0), (3, 0, 0x1060, 2048), (4, 0, 0x1868, 24576),
    (5, 0, 0x7870, 4096), (6, 0, 0x8878, 512), (7, 0, 0x8A80, 512), (8, 0, 0x8C88, 32), (9, 0, 0x8CB0, 4096)] := by
  have h (a : Nat) : (SI b).norLe a 8 = leNat ((List.range 8).map fun i => norF (a + i)) := by rw [State.norLe, norAt_SI]
  have h0 : (SI b).norLe 4096 8 = 343597383681 := by rw [h]; decide +kernel
  have h1 : (SI b).norLe 4184 8 = 2 := by rw [h]; decide +kernel
  have h2 : (SI b).norLe 4192 8 = 8796093022211 := by rw [h]; decide +kernel
  have h3 : (SI b).norLe 6248 8 = 105553116266500 := by rw [h]; decide +kernel
  have h4 : (SI b).norLe 30832 8 = 17592186044421 := by rw [h]; decide +kernel
  have h5 : (SI b).norLe 34936 8 = 2199023255558 := by rw [h]; decide +kernel
  have h6 : (SI b).norLe 35456 8 = 2199023255559 := by rw [h]; decide +kernel
  have h7 : (SI b).norLe 35976 8 = 137438953480 := by rw [h]; decide +kernel
  have h8 : (SI b).norLe 36016 8 = 17592186044425 := by rw [h]; decide +kernel
  unfold State.sections
  rw [show slotBase 0 + 0x1000 = 4096 from rfl]
  rw [State.sectionsAt, h0, show (fld 343597383681 63 32) = 80 from by decide +kernel, show 4096 + 8 + roundUp 80 8 = 4184 from by decide +kernel]
  rw [State.sectionsAt, h1, show (fld 2 63 32) = 0 from by decide +kernel, show 4184 + 8 + roundUp 0 8 = 4192 from by decide +kernel]
  rw [State.sectionsAt, h2, show (fld 8796093022211 63 32) = 2048 from by decide +kernel, show 4192 + 8 + roundUp 2048 8 = 6248 from by decide +kernel]
  rw [State.sectionsAt, h3, show (fld 105553116266500 63 32) = 24576 from by decide +kernel, show 6248 + 8 + roundUp 24576 8 = 30832 from by decide +kernel]
  rw [State.sectionsAt, h4, show (fld 17592186044421 63 32) = 4096 from by decide +kernel, show 30832 + 8 + roundUp 4096 8 = 34936 from by decide +kernel]
  rw [State.sectionsAt, h5, show (fld 2199023255558 63 32) = 512 from by decide +kernel, show 34936 + 8 + roundUp 512 8 = 35456 from by decide +kernel]
  rw [State.sectionsAt, h6, show (fld 2199023255559 63 32) = 512 from by decide +kernel, show 35456 + 8 + roundUp 512 8 = 35976 from by decide +kernel]
  rw [State.sectionsAt, h7, show (fld 137438953480 63 32) = 32 from by decide +kernel, show 35976 + 8 + roundUp 32 8 = 36016 from by decide +kernel]
  rw [State.sectionsAt, h8, show (fld 17592186044425 63 32) = 4096 from by decide +kernel, show 36016 + 8 + roundUp 4096 8 = 40120 from by decide +kernel]
  rfl
/-- The entries of bytes that start at key `k`. -/
def ts (k : Nat) (bs : List Byte) : Sparse Byte := ((List.range' k bs.length).zip bs).filter fun e => e.2 ≠ 0
theorem ts_append (k : Nat) (a b : List Byte) : ts k (a ++ b) = ts k a ++ ts (k + a.length) b := by
  simp only [ts, List.length_append]
  rw [← List.range'_append_1, List.zip_append (by simp), List.filter_append]
theorem ts_zeros (k n : Nat) : ts k (List.replicate n 0) = [] := by
  simp only [ts, List.filter_eq_nil_iff]
  intro e he
  have := (List.of_mem_zip (show (e.1, e.2) ∈ _ from he)).2
  simp [List.eq_of_mem_replicate this]
theorem seg (lo m n : Nat) (h : ∀ e ∈ img, e.1 < lo + m ∨ lo + m + n ≤ e.1) (l : lo + m + n ≤ 0x9CB8) (b : Boot) :
    (SI b).norAt lo (m + n) = (List.range m).map (fun i => norF (lo + i)) ++ List.replicate n 0 := by
  rw [norAt_SI, List.range_add, List.map_append]
  congr 1
  rw [List.map_map]
  refine List.eq_replicate_iff.2 ⟨by simp, fun x hx => ?_⟩
  obtain ⟨i, hi, rfl⟩ := List.mem_map.1 hx
  have hi := List.mem_range.1 hi
  simp only [Function.comp_apply, norF]
  rw [if_pos (by omega)]
  exact get_none _ _ _ fun e he => by have := h e he; omega
theorem patBytes_SI (b : Boot) : (SI b).withPat 0 = { SI b with pat := patI } := by
  have h : toSparse ((SI b).patBytes 0) = patI := by
    rw [show toSparse ((SI b).patBytes 0) = ts 0 ((SI b).patBytes 0) by simp only [toSparse, ts, List.range_eq_range']]
    simp only [State.patBytes, sections_SI]
    rw [show (List.filter _ _ : List (Nat × Nat × Nat × Nat)) = [(1, 0, 0x1000, 80), (3, 0, 0x1060, 2048), (4, 0, 0x1868, 24576),
      (5, 0, 0x7870, 4096), (6, 0, 0x8878, 512), (7, 0, 0x8A80, 512), (8, 0, 0x8C88, 32), (9, 0, 0x8CB0, 4096)] from rfl]
    simp only [List.map_cons, List.map_nil, List.flatten_cons, List.flatten_nil]
    have r : roundUp 80 8 = 80 ∧ roundUp 2048 8 = 784 + 1264 ∧ roundUp 24576 8 = 8 + 24568 ∧ roundUp 4096 8 = 4096 ∧ roundUp 512 8 = 512
        ∧ roundUp 32 8 = 32 := by decide +kernel
    rw [r.1, r.2.1, r.2.2.1, r.2.2.2.1, r.2.2.2.2.1, r.2.2.2.2.2, ← Nat.add_assoc 8 784, ← Nat.add_assoc 8 8]
    rw [seg 4096 8 80 (by decide +kernel) (by decide), seg 4192 (8 + 784) 1264 (by decide +kernel) (by decide), seg 6248 (8 + 8) 24568 (by decide +kernel) (by decide), seg 30832 8 4096 (by decide +kernel) (by decide), seg 34936 8 512 (by decide +kernel) (by decide), seg 35456 8 512 (by decide +kernel) (by decide), seg 35976 8 32 (by decide +kernel) (by decide), seg 36016 8 4096 (by decide +kernel) (by decide)]
    simp only [ts_append, ts_zeros, List.length_map, List.length_range, List.length_replicate, List.append_nil, List.nil_append,
      Nat.reduceAdd, List.append_assoc]
    decide +kernel
  unfold State.withPat
  rw [h]
def b5 : Boot := { Boot.init with at' := 5, six := true, cands := [0] }
def PI : State := { SI b5 with pat := patI }
theorem formOk_SI (b : Boot) : (SI b).formOk 0 = true := by
  have h : ((SI b).patBytes 0).length = 36016 := by
    simp only [State.patBytes, sections_SI]
    rw [show (List.filter _ _ : List (Nat × Nat × Nat × Nat)) = [(1, 0, 0x1000, 80), (3, 0, 0x1060, 2048), (4, 0, 0x1868, 24576),
      (5, 0, 0x7870, 4096), (6, 0, 0x8878, 512), (7, 0, 0x8A80, 512), (8, 0, 0x8C88, 32), (9, 0, 0x8CB0, 4096)] from rfl]
    simp only [List.map_cons, List.map_nil, List.flatten_cons, List.flatten_nil, List.length_append, norAt_SI, List.length_map, List.length_range]
    decide +kernel
  simp only [State.formOk, sections_SI, h, State.norLe, norAt_SI]
  decide +kernel
theorem patB_PI (lo hi x : Nat) (h : ∀ e ∈ patI, e.1 < lo ∨ hi ≤ e.1) (a : lo ≤ x) (b : x < hi) : PI.patB x = 0 := by
  show (Sparse.get 0 patI x).toNat = 0
  rw [get_none _ _ _ fun e he => by have := h e he; omega]; rfl
theorem patLe_PI (lo hi : Nat) (h : ∀ e ∈ patI, e.1 < lo ∨ hi ≤ e.1) (n x : Nat) (a : lo ≤ x) (b : x + n ≤ hi) : PI.patLe x n = 0 := by
  induction n generalizing x with
  | zero => rfl
  | succ n ih => rw [State.patLe, patB_PI lo hi x h a (by omega), ih _ (by omega) (by omega)]
theorem region_PI (r : Nat) : PI.region r = if r = 0 then 16 else 0 := by
  by_cases h : r = 0
  · subst h; decide +kernel
  · rw [State.region, show PI.sec 4 = (2152, 24576) from by decide +kernel, if_neg h]
    split
    · exact patLe_PI 2153 26728 (by decide +kernel) _ _ (by omega) (by simp at *; omega)
    · rfl
theorem consistent_SI : (SI b5).consistent 0 = true := by
  have hs : (SI b5).withPat 0 = PI := patBytes_SI b5
  have nf : PI.nf = 1 := by decide +kernel
  have hi (g : Nat) (h : g < 4096) : PI.inMap 0 g = false := by
    have : PI.flk 0 (0x400 + g / 8) 1 = 0 := by
      rw [State.flk, nf, show PI.sec 3 = (96, 2048) from by decide +kernel]
      exact patLe_PI 873 2144 (by decide +kernel) _ _ (by simp; omega) (by simp; omega)
    simp [State.inMap, this, bit]
  have h1 : ((List.range PI.nf).all fun f => PI.flaskForm f && PI.windowsOk f && PI.hostWindowsOk f) = true := by decide +kernel
  have h2 : PI.areasOk = true := by
    have e : (List.range 4096).filter (fun g => PI.inMap 0 g) = [] :=
      List.filter_eq_nil_iff.2 fun g hg => by rw [hi g (List.mem_range.1 hg)]; decide
    simp only [State.areasOk, nf, show List.range 1 = [0] from rfl, List.map_cons, List.map_nil, State.ctxArea, e]
    decide +kernel
  have h3 : PI.regionsOk = true := by
    simp only [State.regionsOk, region_PI]
    decide +kernel
  have h4 : PI.coresOk = true := by
    simp only [State.coresOk, nf, List.all_eq_true, List.mem_range]
    intro g hg
    have c : PI.coreRec g = 0 := by
      rw [State.coreRec, show PI.sec 5 = (26736, 4096) from by decide +kernel, if_pos hg]
      exact patB_PI 26734 30832 _ (by decide +kernel) (by simp; omega) (by simp; omega)
    have k : PI.isGuest 0 = false := by decide +kernel
    simp [State.guestOf, c, fld, k, show List.range 1 = [0] from rfl]
  have h5 : PI.ownersOk = true := by
    simp only [State.ownersOk, nf, Bool.and_eq_true, List.all_eq_true, List.mem_range, State.queueRec, State.secB,
      show PI.sec 6 = (30840, 512) from by decide +kernel, show PI.sec 8 = (31880, 32) from by decide +kernel,
      show PI.sec 9 = (31920, 4096) from by decide +kernel]
    refine ⟨⟨fun p hp e he => ?_, fun c hc => ?_⟩, fun q hq => ?_⟩
    · rw [patB_PI 30838 31352 _ (by decide +kernel) (by omega) (by omega)]; simp
    · rw [patB_PI 31877 31912 _ (by decide +kernel) (by omega) (by omega)]; decide
    · have z (j : Nat) (hj : j < 256) (k : Nat) (hk : k < 2) : PI.patLe (31920 + 16 * j + 8 * k) 8 = 0 :=
        patLe_PI 31918 36016 (by decide +kernel) _ _ (by omega) (by omega)
      rw [z q hq 0 (by decide), z q hq 1 (by decide)]
      simp [fld, bit]
  have h6 : PI.scaleOk = true := by decide +kernel
  have h7 : PI.moduleOk = true := by decide +kernel
  simp only [State.consistent, formOk_SI, hs, h1, h2, h3, h4, h5, h6, h7, Bool.true_and]
/-- A module at a point of boot, with two slot headers that differ in VERSION alone, or an erased SPI NOR. -/
def hdr (a v : Nat) : Sparse Byte :=
  [(a, 0x56), (a + 1, 0x50), (a + 2, 0x41), (a + 3, 0x54), (a + 4, 1), (a + 5, 0), (a + 8, BitVec.ofNat 8 v), (a + 0x10, 0), (a + 0x11, 0x10),
    (a + 0x12, 0), (a + 0x13, 0)]
def SJ (b : Boot) (nor : Sparse Byte) : State :=
  { State.reset with pins := { State.reset.pins with por := false, rising := false }, mgt := { State.reset.mgt with boot := b, nor := nor } }
def bt (n : Nat) (cs : List Nat) : Boot := { Boot.init with at' := n, cands := cs }
def nor2 : Sparse Byte := hdr 0 1 ++ hdr 0x0100_0000 2
theorem hyp_BootSequence : BootAt (SJ (bt 1 []) []) 1 ∧ BootAt (SJ (bt 2 []) []) 2 ∧ (SJ (bt 2 []) []).candidates = [] ∧ BootAt (SJ (bt 3 [0, 1]) []) 3
    ∧ BootAt (SJ (bt 4 [0]) []) 4 ∧ (SJ (bt 4 [0]) []).mgt.boot.cands.headD 0 = 0 ∧ (bt 4 [0, 1]).cands = [0, 1] ∧ (SJ (bt 4 [0]) []).mgt.boot.six = false
    ∧ BootAt (SI b5) 5 ∧ b5.six = true ∧ b5.cands.headD 0 = 0 ∧ BootAt (SJ b5 []) 5 ∧ (SJ b5 []).consistent 0 = false ∧ BootAt (SJ (bt 7 [0]) []) 7
    ∧ BootAt (SJ (bt 8 [1]) []) 8 ∧ (bt 8 [1]).cands.head? = some 1 ∧ S0.booting = false := by
  unfold BootAt; decide +kernel
/-- The hash of the owner's key is no number of the model's (`Config.ownerHash`): where the key of these slots is the owner's, both are candidates. -/
theorem hyp_BootSequence_candidates (h : Config.shake256 (List.replicate 68 0xFF) = Config.ownerHash) (k : Nat) (hk : k < 2) :
    (SJ (bt 2 []) nor2).candidate k = true := by
  have e : k = 0 ∨ k = 1 := by omega
  have n : ∀ j < 2, (SJ (bt 2 []) nor2).norAt (slotBase j + 0x18) 68 = List.replicate 68 0xFF := by decide +kernel
  rw [State.candidate, n k hk, h, decide_eq_true rfl, Bool.and_true]
  obtain rfl | rfl := e <;> decide +kernel
theorem test_higher_version_first (h : Config.shake256 (List.replicate 68 0xFF) = Config.ownerHash) : (SJ (bt 2 []) nor2).candidates = [1, 0] := by
  have e : (if (SJ (bt 2 []) nor2).norLe (slotBase 0 + 8) 4 < (SJ (bt 2 []) nor2).norLe (slotBase 1 + 8) 4 then [1, 0] else [0, 1]) = [1, 0] := by
    decide +kernel
  simp only [State.candidates, e, List.filter, hyp_BootSequence_candidates h 0 (by decide), hyp_BootSequence_candidates h 1 (by decide)]
theorem test_boot_stops : after (.parameterTableRead false) (SJ (bt 1 []) [])
    (fun t => t.rn .BOOT 0 0 = bits [(5, 1), (20, 2)] + (SJ (bt 1 []) []).rn .BOOT 0 0 % 16 && t.pins.faultLow) = true := by decide +kernel
theorem test_dram_training_next : after (.lpddr6Training true) (SI b5) (fun t => t.mgt.boot.at' = 7) = true := by
  have h : exec (.lpddr6Training true) (SI b5) = .next ((SI b5).setBoot { b5 with at' := 7 }) := by
    show execLpddr6Training true (SI b5) = _
    unfold execLpddr6Training
    rw [show (SI b5).mgt.boot.cands.headD 0 = 0 from rfl, consistent_SI]
    rfl
  rw [after, h]; decide +kernel
/-! ### The host port (p21) -/

/-- The module with its CXL link up and LD 0 bound. -/
def SH : State := S [] [(.LSTAT, 0, 0, 1), (.LDSTAT, 0, 0, 0x1_0000)]
theorem hyp_HostPort : SH.hostUp 0 = true ∧ SH.memOff 0 0x1000_0000 0 = none ∧ SH.memOff 0 0x0FFF_FFC0 0 = some 0x0FFF_FFC0 ∧ SH.memOff 0 0x8000 1 = some 0x8000
    ∧ SH.cxlCut 0x8000 = false ∧ ({ SH with down := [0, 20] } : State).cxlCut (2 ^ 28 - 2 ^ 12) = true
    ∧ SH.stby = false ∧ SH.clearOff 0 0x8000 = some 0x8000 ∧ SH.clearOff 0 0x1000_0000 = none ∧ SH.dramHeld 0x8000 = false ∧ ({ SH with m := { SH.m with selfref := List.range 384 } } : State).dramHeld 0x8000 = true ∧ Sound SH ∧ 0x8000 < dramEnd ∧ SH.view 0x8000 = 0x8000
    ∧ (({ SR (rq .read 0 8) with pois := [0x100] } : State).llcFind 0x100).isSome = true
    ∧ NSet.has ({ SR (rq .read 0 8) with pois := [0x100] } : State).pois 0x100 = true ∧ S0.hostUp 0 = false
    ∧ SH.rf .PINS 0 0 30 30 = 0 ∧ SH.rf .BOOT 0 0 5 5 = 0 ∧ SH.booted = true ∧ (S [] [(.PINS, 0, 0, 0x4000_0000)]).rf .PINS 0 0 30 30 = 1
    ∧ SH.rf .IDESTAT 0 0 0 0 = 0 ∧ SH.rf .IDESTAT 0 0 1 1 = 0 ∧ (S [] [(.IDESTAT, 0, 0, 3)]).rf .IDESTAT 0 0 1 1 ≠ 0 ∧ (S [] [(.IDESTAT, 0, 0, 3)]).rf .IDESTAT 0 0 0 0 ≠ 0 ∧ (State.reset.wn .LSTAT 0 0 1).booted = false
    ∧ (State.reset.wn .LSTAT 0 0 1).rf .LSTAT 0 0 0 0 = 1 ∧ SH.nf = 1
    ∧ VecFree { SH with msixEn := [0], msix := [(1, 0)] } 0 1 ∧ ¬VecFree SH 0 1 ∧ NSet.has ({ SH with pba := [1] } : State).pba 1 = true := by
  unfold VecFree
  and_intros <;> first | exact issues_of (by decide +kernel) | decide +kernel
theorem test_cxl_read : after (.cxlMemRead 0 0x8000) { SH with mem := [(0x803F, 5)] }
    (fun t => t.out = [.cxlData 0 0x8000 (List.replicate 63 0 ++ [5]) false]) = true := by decide +kernel
theorem test_cxl_refused : after (.cxlMemRead 0 0x1000_0000) SH
    (fun t => t.out = [.cxlData 0 0x1000_0000 (List.replicate 64 0) true] && t.rf .HERR 0 0 15 0 = 1) = true := by decide +kernel
theorem test_cxl_write : after (.cxlMemWrite 0 0x8000 (leBytes 64 0x0605) 2 false) { SH with mem := [(0x8000, 9)] }
    (fun t => t.mem = [(0x8000, 9), (0x8001, 6)] && t.out = [.cxlAck 0 0x8000]) = true := by decide +kernel
theorem hyp_MailboxCommands : SH.booted = true ∧ SH.hostUp 0 = true ∧ ([1] : List Nat) = (List.range SH.nf).map (fun f => SH.ldCap f / 2 ^ 28)
    ∧ ([2] : List Nat) ≠ (List.range SH.nf).map (fun f => SH.ldCap f / 2 ^ 28) ∧ 0x5404 ∉ ([0x0001, 0x5400, 0x5401, 0x5402, 0x5403] : List Nat)
    ∧ 0x0402 ∉ ldCommands ∧ State.reset.booted = false := by decide +kernel
theorem test_clear_events : after (.clearEventRecords 0 3 [4]) { SH with ldlog := [(3, [4, 5])] } (fun t => Sparse.get [] t.ldlog 3 = [5]) = true := by
  decide +kernel
/-! ### Resets, supplies and power (p23, p24) -/

/-- A booted module whose supply conditions are changed. -/
def SPn (f : Pins → Pins) : State := { S0 with pins := f S0.pins }
theorem hyp_ResetsAndSupplies : S0.pins.alive = true ∧ (SPn fun p => { p with alive := false }).pins.alive = false
    ∧ (SPn fun p => { p with event := 2 }).pins.event ≠ 0 ∧ S0.pins.event = 0 ∧ S0.pins.por = false ∧ S0.powered = true
    ∧ State.reset.pins.por = true ∧ State.reset.pins.swOpen = false ∧ State.reset.pins.mrst = 0 ∧ (SPn fun p => { p with por := true, rising := true }).pins.rising = true
    ∧ (SPn fun p => { p with por := true, rising := true, mrstLow := true }).pins.mrstLow = true ∧ S0.pins.mrst ≠ 1 ∧ State.reset.powered = false
    ∧ (SPn fun p => { p with mrst := 4 }).powered = true ∧ (SPn fun p => { p with mrst := 4 }).pins.mrst ≠ 0 ∧ S0.pins.mrstLow = false := by decide +kernel
theorem test_crystal_loss : after .crystalLoss ((S0.wn .JSEQ 0 0 7).wn .MINVER 0 0 9)
    (fun t => t.pins.mrst = 2 && t.rn .MINVER 0 0 = 9 && t.rn .SHAPE 0 0 = 0 && !(t.pins.ready) && !(t.booted)) = true := by decide +kernel
theorem test_undervoltage : after .undervoltage { S0 with mem := [(5, 5)] }
    (fun t => t.mem = [] && t.pins.faultLow && t.rn .RSEQ 0 0 = 1 && t.rn .SHAPE 0 0 = 0) = true := by decide +kernel
/-- Idle conditions: HOLDT 1, NAPT 1, RESTT 1. -/
def SId : State := S [] [(.IDLE, 0, 0, 0x1_0101)]
def held (w : Nat) (k : Nat) : State := { SId with cores := (List.range 64).map fun n => (64 * k + n, { Core.init with power := w }) }
theorem hyp_PowerAndFailures : (SId.core 0).awake = true ∧ SId.idle 0 = true ∧ SId.rf .IDLE 0 0 7 0 ≠ 0 ∧ SId.rf .IDLE 0 0 15 8 ≠ 0 ∧ SId.rf .IDLE 0 0 31 16 ≠ 0
    ∧ (∀ n < 64, ((held 1 1).core (64 + n)).power = 1 ∧ ((held 1 1).core (64 + n)).waking = false) ∧ ((held 2 1).wf .PSTATE 1 0 1 0 1).clu 1 = 1
    ∧ SId.clu 0 ≠ 3 ∧ SId.inSvc 0 = true ∧ (SId.wn .QMAP 0 0 0).inSvc 0 = false ∧ (SId.wn .COLD 0 0 1).coldBit 0 = true ∧ (∀ n < 64, (SId.wn .COLD 0 0 1).idle n = true) ∧ SId.coldBit 0 = false
    ∧ SId.rf .PSTATE 0 0 2 2 = 0 ∧ ((held 1 1).core 64).power ≠ 0 ∧ (held 1 1).clu (64 / 64) = 0 ∧ ((held 3 1).wf .PSTATE 1 0 1 0 2).mayWake 1 = true
    ∧ (((held 1 1).wf .PSTATE 1 0 1 0 1).wn .COLD 0 0 2).mayWake 1 = false ∧ ((SId.modCore 0 fun c => { c with power := 1, waking := true }).core 0).marked = 0
    ∧ bit ((SId.modCore 0 fun c => { c with power := 1, waking := true, marked := 1 }).core 0).marked 0 = 1 := by decide +kernel
theorem hyp_PowerAndFailures_standby : SId.stby = false ∧ SId.booted = true ∧ SId.busyWhy = none ∧ S0.busyWhy = some 1
    ∧ ({ SId with stby := true } : State).pwr.leaving = false ∧ NSet.has SId.m.selfref 383 = false ∧ (∀ b < 32, Sparse.get [] SId.m.bank (32 * 383 + b) = [])
    ∧ Sparse.get [] (SB [⟨0x100, true⟩] [] []).m.bank (32 * 0 + 5) ≠ [] ∧ SId.rf .PSTAT 0 0 18 18 = 0
    ∧ (SId.wn .THERM 0 0 0x6E5F).rf .THERM 0 0 15 8 = 110 ∧ (SId.wn .TEMP 3 0 0x100).rf .TEMP 3 0 8 8 = 1 ∧ (List.replicate 14 60).length = 14
    ∧ (∃ e ∈ ({ SId with m := { SId.m with hot := [(3, 16)] } } : State).m.hot, 16 ≤ e.2) ∧ (∀ e ∈ SId.m.hot, e.2 < 16)
    ∧ Sparse.get 0 SId.m.slot 383 = 0 ∧ Sparse.get 0 (SSlot 33).m.slot 0 ≠ 0 ∧ ({ SId with cxlHeld := [] } : State).cxlHeld = []
    ∧ SId.pins.event = 0 ∧ SId.pins.por = false ∧ SId.pins.cut = false ∧ crossingNum (.mem 0 0) = some 0 ∧ crossingNum (.link 0 1) = some 20 ∧ SId.rf .XPHASE 0 0 8 8 = 1
    ∧ (SR (rq .read 0x8000 8)).uses (rq .read 0x8000 8) none = [0] ∧ SId.inSvc 64 = true ∧ pllCount 1 ≠ 0 := by decide +kernel
theorem test_window : after (.powerWindowEnd 2000 700 (List.replicate 13 60 ++ [95])) (S [] [(.LIMIT, 0, 0, 1999), (.THERM, 0, 0, 0x6E5F)])
    (fun t => t.pwr.auto = 8 && t.pwr.therm = 8 && t.rf .PSTAT 0 0 6 0 = 16 && t.rf .PSTAT 0 0 17 17 = 1 && t.rf .PTEMP 0 0 7 0 = 95 && t.rf .MEAS 0 0 11 0 = 2000) = true := by
  decide +kernel
theorem test_hold : after (.holdEntry 1) SId (fun t => (t.core 1).power = 1 && t.rn .HOLD 0 0 = 2) = true := by decide +kernel
theorem test_cold_keeps_gres : after (.coldEntry 0) ((SId.wn .COLD 0 0 1).wn .SPLIT 5 0 0x7)
    (fun t => t.clu 0 = 3 && t.rn .SPLIT 5 0 = 4 && t.core 5 = Core.cold) = true := by decide +kernel
theorem test_link_failed : after (.linkFailed (.mem 0 0)) (SR (rq .read 0x8000 8)) (fun t => t.reqs = [] && t.resps.map Resp.status = [5]) = true := by decide +kernel
/-! ### Management, registers, records (p25, p26) -/

def pE : Peer := ⟨.eth, 0xFE80 * 2 ^ 112 + 5, 1000⟩
/-- A message of code `c` inside session `k - 1` (0: none). -/
def mg (c k : Nat) (b : List Byte) : MgtMsg := { src := pE, mid := 1, sess := k, code := c, sid := 0, body := b }
def e0 : Sess := { k1 := 0, k2 := 0, rx := 0, tx := 0, hash := 0, auth := true, check := none, peer := pE }
/-- A booted module with a message in its inbox and an authorised session 0. -/
def SMg (m : MgtMsg) : State := { S0 with mgt := { S0.mgt with inbox := [m], sess := [(0, some e0)] } }
def modM (s : State) (f : Mgmt → Mgmt) : State := { s with mgt := f s.mgt }
theorem mgtOn_SMg (m : MgtMsg) : (SMg m).mgtOn = true := by
  rw [show (SMg m).mgtOn = S0.mgtOn from rfl]; decide +kernel
theorem boot_SMg (m : MgtMsg) : (SMg m).rf .BOOT 0 0 6 6 = 1 := by
  rw [show (SMg m).rf .BOOT 0 0 6 6 = S0.rf .BOOT 0 0 6 6 from rfl]; decide +kernel
theorem serves_mg (c k : Nat) (b : List Byte) (h : mgtCodes.contains c = true)
    (r : c ∈ [1, 2, 3, 4, 5, 0x10, 0x40, 0x41, 0x50] ∨ (SMg (mg c k b)).rf .BOOT 0 0 6 6 = 1) : Serves (SMg (mg c k b)) (mg c k b) c := by
  refine ⟨mgtOn_SMg _, rfl, ?_, h, r⟩
  by_cases hk : k = 0 <;> simp [State.carries, mg, SMg, hk, pE]
/-- Every code the two statements serve is served, in the inbox or inside session 0. -/
theorem hyp_ManagementMessages : ∀ c ∈ mgtCodes, ∀ k < 2, ∀ b : List Byte, Serves (SMg (mg c k b)) (mg c k b) c := by
  intro c hc k _ b
  exact serves_mg c k b (by revert c; decide +kernel) (Or.inr (boot_SMg _))
theorem hyp_ManagementMessages_signing : (List.replicate 32 (0 : Byte)).length = 32 ∧ (List.replicate 1216 (0 : Byte)).length = 1216
    ∧ (SMg (mg 3 0 [])).sessUsed < 4 ∧ 4 ≤ (modM S0 fun g => { g with sess := (List.range 4).map fun n => (n, some e0) }).sessUsed ∧ S0.mgt.signing = []
    ∧ (modM S0 fun g => { g with signing := [mg 2 0 []], installs := [⟨mg 0x30 0 [], true, 0, 0, none⟩] }).installing = true
    ∧ (modM S0 fun g => { g with signing := [mg 2 0 []] }).installing = false ∧ (S0.wn .IDCTR 0 0 (2 ^ 40)).rn .IDCTR 0 0 + 1024 > 2 ^ 40
    ∧ S0.mgt.sigLeft = 0 ∧ S0.rn .IDCTR 0 0 + 1024 ≤ 2 ^ 40 ∧ S0.sess 0 = none := by decide +kernel
theorem hyp_ManagementMessages_sessions : (SMg (mg 4 0 (leBytes 24 0))).sess 0 = some e0 ∧ leAt (leBytes 24 0) 0 8 = e0.rx ∧ leAt (leBytes 24 1) 0 8 ≠ e0.rx
    ∧ (leBytes 24 0).length = 24 ∧ S0.sess 0 = none ∧ e0.check = none ∧ (SMg (mg 0x20 1 [])).authorised (mg 0x20 1 []) = true
    ∧ (SMg (mg 0x20 0 [])).authorised (mg 0x20 0 []) = false ∧ S0.bootedSlot = 0 ∧ leAt [1] 0 1 ≠ S0.bootedSlot ∧ S0.mgt.xfer = none
    ∧ (modM S0 fun g => { g with xfer := some (1, 1, [0xFF]) }).mgt.xfer = some (1, 1, [0xFF]) ∧ (leBytes 4 0xFF00 ++ [1] : List Byte).length = 5
    ∧ mKnown (mg 7 0 []) = false ∧ (SMg (mg 7 0 [])).carries (mg 7 0 []) = true
    ∧ ((SMg (mg 6 0 [])).wn .BOOT 0 0 4).rf .BOOT 0 0 6 6 = 0 ∧ ((SMg (mg 6 0 [])).wn .BOOT 0 0 4).mgtOn = true := by decide +kernel
/-- Fragment `k` of `n` of message 1: four bytes. -/
def frag (k n : Nat) : List Byte := leBytes 2 1 ++ leBytes 2 k ++ leBytes 2 n ++ leBytes 2 0 ++ [1, 2, 0, 0]
def SNet : State := S [] [(.NET, 0, 0, BitVec.ofNat 64 (bits [(48, 1), (0, 0x0200_0000_0001)]))]
theorem hyp_ManagementMessages_net : SNet.mgtOn = true ∧ SNet.netUp = true ∧ linkLocal pE.addr = true ∧ leAt (frag 0 1) 4 2 = 1 ∧ 12 ≤ (frag 0 1).length
    ∧ leAt (frag 127 128) 2 2 < leAt (frag 127 128) 4 2 ∧ SNet.mgt.frags = [] ∧ linkLocal 5 = false
    ∧ leNat (leBytes 16 SNet.ownAddr).reverse.reverse = SNet.ownAddr ∧ S0.mgt.i3cAddr = none ∧ 0x20 + S0.rf .PINS 0 0 28 24 = 0x20
    ∧ S0.netUp = false := by decide +kernel
theorem test_datagram : after (.managementDatagram pE (frag 0 1)) SNet (fun t => t.mgt.inbox = [{ src := pE, mid := 1, sess := 0, code := 1, sid := 2, body := [] }]) = true := by
  decide +kernel
theorem test_echo : after (.neighbourDiscovery pE 128 [7]) SNet (fun t => t.out = [.net pE 129 [7]]) = true := by decide +kernel
theorem test_erase : after (.imageBegin (mg 0x20 1 [1])) (modM (SMg (mg 0x20 1 [1])) fun g => { g with nor := [(5, 1), (0x0100_0005, 2)] })
    (fun t => t.mgt.nor = [(5, 1)] && t.mgt.xfer = some (1, 1, [0xFF, 0xFF, 0xFF, 0xFF])) = true := by decide +kernel
/-- FLK_IMOD of flask 0, which management writes, and LDL_LWAIT, which only a job install does. -/
def aImod : RegAt := ⟨.IMOD, 0, 0, 0x100_0028, 4⟩
def aLwait : RegAt := ⟨.LWAIT, 0, 0, 0x300_0100, 4⟩
/-- An install of one record: the value 9 to LDL_LWAIT. -/
def inst : List Byte := leBytes 20 0 ++ leBytes 4 1 ++ leBytes 8 0 ++ leBytes 4 0x300_0100 ++ leBytes 4 4 ++ leBytes 8 9
def SInst (ok : Bool) : State := modM S0 fun g => { g with installs := [⟨mg 0x30 0 inst, ok, 0, 0, none⟩] }
theorem hyp_RegistersAndRecords : Exactly S0 0x100_0028 4 aImod ∧ Exactly S0 0x300_0100 4 aLwait ∧ aImod.r.jobScoped = false ∧ aLwait.r.jobScoped = true
    ∧ S0.reachable aImod = true ∧ ({ S0 with pins := { S0.pins with cut := true } } : State).reachable aImod = false ∧ aImod.r.rwMask = some 0xFFFF_FFFF
    ∧ SH.hostUp 0 = true ∧ barFlk 0 0x2_0000 = some 0x100_0000 ∧ barFlk 0 0x100 = none ∧ cxlMay 0 aImod = true ∧ cxlMay 1 aImod = false ∧ badSpan 0x100_0029 4 = true ∧ (∀ b ∈ regsIn 0x100_0029 4, S0.sleeps b = false)
    ∧ badSpan 0x100_0034 4 = false ∧ regsIn 0x100_0034 4 = [] ∧ leAt inst 20 4 = 1 ∧ (inst ++ List.replicate 9893 0).length = 32 + 16 * 1 + 9893
    ∧ (SInst false).mgt.installs ≠ [] ∧ ¬(S0.rn .JSEQ 0 0 < leAt inst 24 8) ∧ leAt inst 32 4 = 0x300_0100 ∧ leAt inst 36 4 = 4 := by
  unfold Exactly; decide +kernel
theorem hyp_RegistersAndRecords_messages : leAt (leBytes 4 0x100_0028 ++ leBytes 1 4) 0 4 = 0x100_0028 ∧ leAt (leBytes 4 0x100_0028 ++ leBytes 1 4) 4 1 = 4
    ∧ (leBytes 4 0x100_0028 ++ leBytes 1 4).length = 5 ∧ (leBytes 4 0x100_0028 ++ leBytes 1 4 ++ leBytes 8 7).length = 13
    ∧ (leBytes 4 0 ++ leBytes 1 16).length = 5 ∧ leAt (leBytes 4 0 ++ leBytes 1 16) 4 1 ≤ 16 ∧ (S0.wn .RACK 0 0 5).rn .RACK 0 0 = 5
    ∧ ({ S0 with cores := [(0, { Core.init with power := 3 })] } : State).sleeps ⟨.ISSUE, 0, 0, 0x1080_1020, 8⟩ = true
    ∧ (SNet.wn .TELEM 0 0 1).rf .TELEM 0 0 7 0 ≠ 0 := by decide +kernel
theorem test_register_write : after (.registerWrite .mgmt 0x100_0028 4 0x5_0006) S0 (fun t => t.rn .IMOD 0 0 = 0x5_0006) = true := by decide +kernel
theorem test_job_scoped : after (.registerWrite .mgmt 0x300_0100 4 9) S0 (fun t => t.rn .LWAIT 0 0 = 0 && t.rn .RSEQ 0 0 = 1) = true := by decide +kernel
theorem test_install : after .jobInstallWrite (SInst true) (fun t => t.rn .LWAIT 0 0 = 9 && t.mgt.installs = []
    && t.out = [.mgt pE 1 0 0xB0 (leBytes 4 1 ++ leBytes 4 1)]) = true := by decide +kernel
theorem test_reg_read : after (.regRead (mg 0x10 0 (leBytes 4 0x100_0028 ++ leBytes 1 4))) ((SMg (mg 0x10 0 (leBytes 4 0x100_0028 ++ leBytes 1 4))).wn .IMOD 0 0 7)
    (fun t => t.out = [.mgt pE 1 0 0x90 (0 :: leBytes 8 7)]) = true := by decide +kernel

/-! ### The step (p27), and a command in front -/

theorem hyp_StepTakesTheFront : ({ S0 with pending := [.leakDetected, .identify] } : State).pending = .leakDetected :: [.identify] ∧ S0.pending = []
    ∧ S0.pins.por = false ∧ State.reset.pins.por = true ∧ S0.powered = true ∧ S0.clu 63 = 0 ∧ S0.clocked = true ∧ State.reset.clocked = false ∧ Sparse.get 0 S0.pwr.lock 63 = 0 ∧ S0.rf .PSTAT 0 0 6 0 ≤ 144 ∧ (S0.wn .PSTATE 2 0 1).clu 2 ≠ 0 := by
  decide +kernel
theorem hyp_StepKeepsInvariant : Memory.wf (SR (rq .read 0 8)).mem ∧ (SR (rq .read 0 8)).fab.ports.length = 16 := by decide +kernel
/-! ### Ill-formed commands: one for each check of `Instr.wf`, with an operand just outside -/

def XX : Who := ⟨4096, .f, 0⟩
theorem test_ill_formed : ([.linkFailed (.link 1 1), .linkFailed (.link 0 4), .linkFailed (.mem 0 8), .linkFailed (.mem 4 0), .linkFailed (.io 0 2), .linkFailed (.io 4 0),
    .registerWrite (.cxl 16) 0 4 0, .registerWrite .mgmt (2 ^ 40) 4 0, .registerWrite .mgmt 0 3 0, .nop XX 0, .watchdogFault XX, .mloadGrant 4096,
    .launchAccept 4096 true, .planeReady 0 2, .planeReady 4096 0, .rcclrClear 0 64, .rcclrClear 4096 0, .bankSlot 0 32, .bankSlot 384 0, .dramDataArrival (3 * 2 ^ 33),
    .scrubSlot 384, .dgctlSnap 8 0, .dgctlSnap 0 (2 ^ 16), .msdClrLlc 8, .landingNotice 16384 0 true, .landingNotice 0 4 true, .flitSlot 16] : List Instr).all
    (fun c => !c.wf) = true := by decide +kernel
theorem test_ill_formed_fabric : ([.dataFlit 0 [] (List.replicate 199 0), .dataFlit 16 [] (List.replicate 200 0), .rd 16 mRd, .rd 0 { mRd with data := [1] },
    .floorSend 16384, .lnkRouteWrite 16384 0, .lnkRouteWrite 0 (2 ^ 16), .jobCommit 16, .gradientMark { mk0 with flask := 16 }, .updateMark { mk0 with who := XX },
    .lateCreditReturn 2 0, .lateCreditReturn 0 4, .ldlClrChk 2, .ldlGcfgWrite 4 0, .rblkSend 32, .moduleTerm 4, .bindingNotice 16 0, .completionNotice 0 4096]
    : List Instr).all (fun c => !c.wf) = true := by decide +kernel
theorem test_ill_formed_host : ([.cxlMemRead 16 0, .unsupportedCommand 17 0, .cxlMemWrite 0 0 (List.replicate 63 0) 0 false, .cxlMemWrite 16 0 (List.replicate 64 0) 0 false,
    .getEventRecords 0 4, .getEventRecords 16 0, .launchComplete 0 (2 ^ 32), .launchComplete 16 0, .imageBegin (mg 0x20 5 []), .imageBegin (mg 256 0 []),
    .imageBegin { mg 0x20 0 [] with sid := 256 }, .authCheckComplete 4, .setdasa 128 0, .setdasa 0 128, .entdaa 128, .pllLockLoss (.cluster 64), .pllLockLoss (.other 0 0),
    .coldEntry 64, .powerWindowEnd 0 0 [], .hardwareShutdown 14 0, .configurationRequest 0 4096 false 0, .configurationRequest 16 0 false 0, .msixTableWrite 0 4 0,
    .msixTableWrite 16 0 0] : List Instr).all (fun c => !c.wf) = true := by decide +kernel
theorem test_well_formed : ([.linkFailed (.link 3 0), .registerWrite (.cxl 15) 0 2 0, .nop { XX with core := 4095 } 0, .planeReady 4095 1, .bankSlot 383 31,
    .dataFlit 15 [⟨3, [(5, 1)]⟩] (List.replicate 200 0), .rd 15 mRd, .wr 0 mWr, .unsupportedCommand 16 0, .launchComplete 15 (2 ^ 32 - 1), .pllLockLoss (.other 7 0), .identify]
    : List Instr).all Instr.wf = true := by decide +kernel
/-- Words by their bits 63:56 (R175 to R177): the first and last opcode of each table, and one past each. -/
theorem test_opcode_map : rowOf X 0x0000_0000_0000_0000 = .nop X 0 ∧ rowOf X 0x1400_0000_0000_0000 = .mwait X 0
    ∧ rowOf X 0x2018_0000_0000_0000 = .iadd X 0x18_0000_0000_0000 ∧ rowOf X 0x4900_0000_0000_0000 = .wtree X 0
    ∧ rowOf X 0x6000_0000_0000_0008 = .ld X 8 ∧ rowOf X 0x7600_0000_0000_0000 = .rcclr X 0 ∧ rowOf X 0x8200_0000_0000_0000 = .mdrain X 0
    ∧ rowOf X 0x9800_0000_0000_0005 = .rfree X 5 := by decide +kernel
theorem test_opcode_ends : [0x15, 0x1F, 0x4A, 0x5F, 0x69, 0x77, 0x83, 0x8F, 0x99, 0xFF].all (fun op =>
    rowOf X (BitVec.ofNat 64 (op * 2 ^ 56)) = .unlistedOpcode X (BitVec.ofNat 64 (op * 2 ^ 56))) = true := by decide +kernel
/-- The opcode table gives no row bits: no word spells a command. -/
theorem test_no_word : decodeTableWord 0 0 = none ∧ decodeTableWord 56 0 = none ∧ S0.withFetchWord 56 5 = S0 := by decide +kernel

end Sys2Proof.Tests
end

section
/-! PROOF. The state after power-on reset (R15). -/

namespace Sys2Proof.Machine

/-- Nothing is listed in the register file at reset, so each register reads its map's value. -/
theorem State.reset_rn (r : Reg) (i j : Nat) : State.reset.rn r i j = r.resetVal.toNat := rfl

/-- The registers whose map gives a reset value other than zero are these seven (R341, R424, R507, R508, R549). -/
theorem Reg.resetVal_zero {r : Reg} (h : r ∉ [.LNKCTL, .QMAP, .IDLE, .LIMIT, .THERM, .CAUSE, .ERRCTL]) : r.resetVal = 0 := by
  unfold Reg.resetVal
  split
  case h_8 => rfl
  all_goals exact absurd (by simp) h

theorem State.reset_core (g : Nat) : State.reset.core g = Core.init := rfl

/-- No port of the matrix array is held and no plane is ready. -/
theorem State.reset_mxStat (g : Nat) : State.reset.mxStat g = 0 := by
  have hport (n : Nat) : State.reset.holder g n = none := by
    rcases n with _ | _ | _ | n <;> rfl
  have hplane (n : Nat) : ((Core.init.plane n).ready = false) ∧ (Core.init.plane n).quad = false := by
    rcases n with _ | _ | n <;> exact ⟨rfl, rfl⟩
  have hzero : Core.init.zero = false := rfl
  simp [State.mxStat, hport, hplane, hzero, State.reset_core]

theorem State.reset_jobOk (f : Nat) : State.reset.jobOk f = false := by
  simp [State.jobOk, State.rf, State.reset_rn, Reg.resetVal, fld]

theorem State.reset_inv : Inv State.reset := ⟨reset_memory_wf, List.length_replicate⟩

/-- Settles O59: each register at its map's value, nothing resident, held or queued, and the invariant. -/
theorem resetState : Obligations.ResetState := by
  unfold Obligations.ResetState
  refine ⟨fun r i j h => ?_, fun _ => rfl, fun _ => rfl, rfl, rfl, rfl, rfl, rfl, fun g => ⟨State.reset_core g, State.reset_mxStat g⟩,
    rfl, fun _ => rfl, rfl, State.reset_jobOk, rfl, rfl, State.reset_inv⟩
  rw [State.reset_rn, Reg.resetVal_zero h]
  rfl

end Sys2Proof.Machine
end

section
/-! PROOF. The register file: reading other registers after a write, and after a register is zeroed everywhere. -/

namespace Sys2Proof.Machine

theorem State.rn_of_regs {s t : State} (h : t.regs = s.regs) (r : Reg) (i j : Nat) : t.rn r i j = s.rn r i j :=
  congrArg BitVec.toNat (State.rd_of_regs h r i j)

theorem State.wn_withMgt (s : State) (g : Mgmt) (r : Reg) (i j v : Nat) :
    { s.wn r i j v with mgt := g } = State.wn { s with mgt := g } r i j v := rfl

theorem State.rn_withMgt (s : State) (g : Mgmt) (r : Reg) (i j : Nat) : State.rn { s with mgt := g } r i j = s.rn r i j := rfl

/-- A write of one register leaves the registers of every other name alone. -/
theorem State.rn_wn_other (s : State) {r r' : Reg} (h : r' ≠ r) (i j v i' j' : Nat) : (s.wn r i j v).rn r' i' j' = s.rn r' i' j' :=
  congrArg BitVec.toNat (State.rd_wr_other s _ (Reg.key_ne h i j i' j'))

/-- A write of one register leaves every other place of the register file alone. -/
theorem State.rn_wn_elsewhere (s : State) {r r' : Reg} {i j i' j' : Nat} (v : Nat) (hj : j < 2 ^ 20) (hj' : j' < 2 ^ 20)
    (h : (r', i', j') ≠ (r, i, j)) : (s.wn r i j v).rn r' i' j' = s.rn r' i' j' := by
  refine congrArg BitVec.toNat (State.rd_wr_other s _ fun hk => h ?_)
  obtain ⟨rfl, rfl, rfl⟩ := Reg.key_inj hj' hj hk
  rfl

/-- Entries left out by their key read as the default; the others stay. -/
theorem Sparse.get_filter_key {α : Type} (d : α) (m : Sparse α) (p : Nat → Bool) (k : Nat) :
    Sparse.get d (m.filter fun e => p e.1) k = if p k then Sparse.get d m k else d := by
  induction m with
  | nil => simp
  | cons e m ih =>
    obtain ⟨i, v⟩ := e
    by_cases hp : p i = true <;> by_cases hk : i = k <;> simp_all

theorem Reg.key_mod (r : Reg) (i j : Nat) : r.key i j % 256 = r.ctorIdx := by
  have := r.ctorIdx_lt
  unfold Reg.key
  omega

theorem State.rn_zeroAll_same (s : State) (r : Reg) (i j : Nat) : (s.zeroAll r).rn r i j = r.resetVal.toNat := by
  refine congrArg BitVec.toNat ((Sparse.get_filter_key _ _ (fun k => k % 256 ≠ r.ctorIdx) _).trans (if_neg ?_))
  simp [Reg.key_mod]

theorem State.rn_zeroAll_other (s : State) {r r' : Reg} (h : r' ≠ r) (i j : Nat) : (s.zeroAll r).rn r' i j = s.rn r' i j := by
  refine congrArg BitVec.toNat ((Sparse.get_filter_key _ _ (fun k => k % 256 ≠ r.ctorIdx) _).trans (if_pos ?_))
  simpa [Reg.key_mod] using fun c => h (Reg.ctorIdx_inj c)

end Sys2Proof.Machine
end

section
/-! PROOF. What a logged refusal leaves alone (R542 to R544). -/

namespace Sys2Proof.Machine

theorem State.keep_rn (s : State) (x : Record) {r : Reg} (h : r ≠ .RDROP) (i j : Nat) : (s.keep x).rn r i j = s.rn r i j := by
  unfold State.keep
  split
  · rfl
  · split
    · rfl
    · exact State.rn_wn_other s h _ _ _ _ _

theorem State.logTo_rn (s : State) (f c n : Nat) (r : Reg) (i j : Nat) : (s.logTo f c n).rn r i j = s.rn r i j :=
  State.rn_of_regs (by rw [State.logTo_only]) r i j

/-- A record writes no register but ERR_RSEQ and, when it is lost, ERR_RDROP. -/
theorem State.record_rn (s : State) (cls code src inst : Nat) (fl : Option Nat) (d0 d1 d2 : Nat) {r : Reg} (h1 : r ≠ .RSEQ)
    (h2 : r ≠ .RDROP) (i j : Nat) : (s.record cls code src inst fl d0 d1 d2).rn r i j = s.rn r i j := by
  unfold State.record
  by_cases h : s.rf .NET 0 0 48 48 = 1 <;> cases fl <;>
    simp only [h, if_true, if_false, State.logTo_rn, State.rn_wn_other _ h1, State.keep_rn _ _ h2] <;> rfl

theorem State.record_rseq (s : State) (cls code src inst : Nat) (fl : Option Nat) (d0 d1 d2 : Nat) :
    (s.record cls code src inst fl d0 d1 d2).rn .RSEQ 0 0 = (s.rn .RSEQ 0 0 + 1) % 2 ^ 32 := by
  unfold State.record
  cases fl <;> simp only [State.logTo_rn, State.rn_wn_same] <;> omega

theorem logged_record (s : State) (cls code src inst : Nat) (fl : Option Nat) (d0 d1 d2 : Nat) :
    Logged s (s.record cls code src inst fl d0 d1 d2) :=
  ⟨s.record_rseq .., by rw [State.record_only], by rw [State.record_only], by rw [State.record_only],
    fun _ i j _ _ h1 h2 => s.record_rn _ _ _ _ _ _ _ _ h1 h2 i j⟩

theorem logged_refuse (s : State) (o v : Nat) : Logged s (s.refuse o v) :=
  logged_record { s with mgt := { s.mgt with refused := s.mgt.refused + 1 } } _ _ _ _ _ _ _ _

theorem logged_refuseCmd (s : State) (c why : Nat) : Logged s (s.refuseCmd c why) :=
  logged_record { s with mgt := { s.mgt with refused := s.mgt.refused + 1 } } _ _ _ _ _ _ _ _

/-- A refusal changes nothing of the controller but its own count. -/
theorem State.refuseCmd_mgt (s : State) (c why : Nat) : (s.refuseCmd c why).mgt = { s.mgt with refused := s.mgt.refused + 1 } := by
  unfold State.refuseCmd
  rw [State.record_only]

/-- What the controller holds and what the connectors show is no part of what `Logged` says. -/
theorem Logged.withMgtOut {s t : State} (h : Logged s t) (g : Mgmt) (o : List Out) : Logged s { t with mgt := g, out := o } := h

end Sys2Proof.Machine
end

section
/-! PROOF. Serving and answering management messages (R473, R475, R537 to R541). -/

namespace Sys2Proof.Machine

theorem State.respond_only (u : State) (m : MgtMsg) (c : Nat) (b : List Byte) :
    u.respond m c b = { u with mgt := { u.mgt with sess := (u.respond m c b).mgt.sess }, out := (u.respond m c b).out } := by
  unfold State.respond
  split <;> rfl

theorem State.sess_setSess_same (s : State) (n : Nat) (e : Option Sess) : (s.setSess n e).sess n = e := Sparse.get_set_same _ _ _ _

theorem State.sess_setSess_other (s : State) {n k : Nat} (e : Option Sess) (h : k ≠ n) : (s.setSess n e).sess k = s.sess k :=
  Sparse.get_set_other _ _ _ _ h

/-- Outside a session a response leaves plain. -/
theorem State.respond_plain (u : State) {m : MgtMsg} (h : m.sess = 0) (c : Nat) (b : List Byte) :
    u.respond m c b = { u with out := .mgt m.src m.mid 0 c b :: u.out } := by
  simp [State.respond, h]

theorem State.respond_answers (u : State) (m : MgtMsg) (c : Nat) (b : List Byte) : Answers u m c b (u.respond m c b) := by
  refine ⟨fun h => u.respond_plain h c b, fun hs e he => ?_⟩
  have hr : u.respond m c b = { u.setSess (m.sess - 1) (some { e with tx := e.tx + 1 }) with
      out := .mgt m.src m.mid m.sess 0x84 (leBytes 8 e.tx ++ (Config.gcmSeal e.k2 e.tx ([BitVec.ofNat 8 c, BitVec.ofNat 8 m.sid, 0, 0] ++ b)).1
        ++ (Config.gcmSeal e.k2 e.tx ([BitVec.ofNat 8 c, BitVec.ofNat 8 m.sid, 0, 0] ++ b)).2) :: u.out } := by
    simp only [State.respond, hs, if_false, he]
    rfl
  rw [hr]
  exact ⟨rfl, rfl, u.sess_setSess_same _ _, fun n hn => u.sess_setSess_other _ hn⟩

theorem replies_of_respond {i : Instr} {s u : State} {m : MgtMsg} {c : Nat} {b : List Byte} (h : exec i s = .next (u.respond m c b)) :
    Replies i s u m c b :=
  ⟨_, h, u.respond_answers m c b⟩

/-- A message whose code is served now reaches its meaning. -/
theorem Serves.serveMgt_eq {s : State} {m : MgtMsg} {c : Nat} (h : Serves s m c) (f : State → State) : s.serveMgt m c f = f (s.taken m) := by
  obtain ⟨hon, hcode, hcarries, hknown, hboot⟩ := h
  have hserved : ¬(!romCodes.contains c && decide ((s.taken m).rf .BOOT 0 0 6 6 = 0)) = true := by
    rcases hboot with hrom | hboot
    · simp [show c ∈ romCodes from hrom]
    · simp [show (s.taken m).rf .BOOT 0 0 6 6 = 1 from hboot]
  unfold State.serveMgt
  rw [if_neg (by simp [hon, hcode, hcarries, hknown])]
  exact if_neg hserved

theorem Serves.code {s : State} {m : MgtMsg} {c : Nat} (h : Serves s m c) : m.code = c := h.2.1

theorem Serves.serveAuth_eq {s : State} {m : MgtMsg} {c : Nat} (h : Serves s m c) (f : State → State) :
    s.serveAuth m c f = if s.authorised m then f (s.taken m) else (s.taken m).err m 5 :=
  h.serveMgt_eq _

end Sys2Proof.Machine
end

section
/-! PROOF. Spans of register bytes, and the write of a register that only takes its value (R12, R41, R477). -/

namespace Sys2Proof.Machine

theorem Exactly.width {s : State} {o w : Nat} {a : RegAt} (h : Exactly s o w a) : w = 2 ∨ w = 4 ∨ w = 8 := h.1

theorem Exactly.base_eq {s : State} {o w : Nat} {a : RegAt} (h : Exactly s o w a) : a.base = o := by
  obtain ⟨-, -, -, hb, -⟩ := h
  exact hb

theorem Exactly.w_eq {s : State} {o w : Nat} {a : RegAt} (h : Exactly s o w a) : a.w = w := by
  obtain ⟨-, -, -, -, hw, -⟩ := h
  exact hw

theorem Exactly.regsIn_eq {s : State} {o w : Nat} {a : RegAt} (h : Exactly s o w a) : regsIn o w = [a] := by
  obtain ⟨-, -, hr, -⟩ := h
  exact hr

theorem Exactly.awake {s : State} {o w : Nat} {a : RegAt} (h : Exactly s o w a) : ∀ b ∈ regsIn o w, s.sleeps b = false := by
  obtain ⟨-, -, hr, -, -, -, -, hs⟩ := h
  simpa [hr] using hs

theorem Exactly.whole {s : State} {o w : Nat} {a : RegAt} (h : Exactly s o w a) : a.whole o w = true := by
  simp [RegAt.whole, h.base_eq, h.w_eq]

theorem Exactly.filter_whole {s : State} {o w : Nat} {a : RegAt} (h : Exactly s o w a) :
    ((regsIn o w).filter fun b => b.whole o w) = [a] := by
  simp [h.regsIn_eq, h.whole]

theorem Exactly.badSpan_eq {s : State} {o w : Nat} {a : RegAt} (h : Exactly s o w a) : badSpan o w = false := by
  obtain ⟨-, halign, -⟩ := id h
  simp [badSpan, h.regsIn_eq, h.whole, halign]

/-- A span whose bytes are the register's gives it the low bytes of the value. -/
theorem RegAt.part_base {a : RegAt} {o : Nat} (h : a.base = o) (v : Nat) : a.part o v = v % 2 ^ (8 * a.w) := by
  simp [RegAt.part, h, pow_mul]

theorem State.wreg_of_rwMask (s : State) {a : RegAt} {m : Nat} (h : a.r.rwMask = some m) (v : Nat) :
    s.wreg a v = s.wn a.r a.i a.j (v &&& m) := by
  simp [State.wreg, h]

theorem wroteReg_wn (s : State) {a : RegAt} {v : Nat} (hj : a.j < 2 ^ 20) (hv : v < 2 ^ 64) : WroteReg s (s.wn a.r a.i a.j v) a v :=
  ⟨rfl, by rw [State.rn_wn_same, Nat.mod_eq_of_lt hv], fun _ _ _ _ hj' h => s.rn_wn_elsewhere v hj hj' h⟩

/-- A register that a write only sets takes the writable bits of the value, and no other register changes. -/
theorem Exactly.wroteReg {s : State} {o w : Nat} {a : RegAt} (h : Exactly s o w a) {m : Nat} (hm : a.r.rwMask = some m) (v : Nat) :
    WroteReg s (s.wreg a (a.part o v)) a (v % 2 ^ (8 * w) &&& m) := by
  obtain ⟨hw, -, -, -, -, -, hj, -⟩ := id h
  have hlt : v % 2 ^ (8 * w) < 2 ^ 64 :=
    lt_of_lt_of_le (Nat.mod_lt _ (by positivity)) (Nat.pow_le_pow_right (by norm_num) (by omega))
  rw [s.wreg_of_rwMask hm, RegAt.part_base h.base_eq, h.w_eq]
  exact wroteReg_wn s hj (lt_of_le_of_lt Nat.and_le_left hlt)

theorem State.wreg_mgt_of_rwMask (s : State) {a : RegAt} {m : Nat} (hm : a.r.rwMask = some m) (v : Nat) : (s.wreg a v).mgt = s.mgt := by
  rw [s.wreg_of_rwMask hm, State.wn_mgt]

theorem State.wreg_out_of_rwMask (s : State) {a : RegAt} {m : Nat} (hm : a.r.rwMask = some m) (v : Nat) : (s.wreg a v).out = s.out := by
  rw [s.wreg_of_rwMask hm, State.wn_out]

/-- What the controller holds and what the connectors show is no part of what `WroteReg` says. -/
theorem WroteReg.withMgtOut {s t : State} {a : RegAt} {v : Nat} (h : WroteReg s t a v) (g : Mgmt) (o : List Out) :
    WroteReg s { t with mgt := g, out := o } a v := by
  obtain ⟨honly, hsame, hother⟩ := h
  refine ⟨?_, hsame, hother⟩
  rw [honly]

theorem WroteReg.respond {s t : State} {a : RegAt} {v : Nat} (h : WroteReg s t a v) (m : MgtMsg) (c : Nat) (b : List Byte) :
    WroteReg s (t.respond m c b) a v := by
  rw [State.respond_only]
  exact h.withMgtOut _ _

theorem Logged.respond {s t : State} (h : Logged s t) (m : MgtMsg) (c : Nat) (b : List Byte) : Logged s (t.respond m c b) := by
  rw [State.respond_only]
  exact h.withMgtOut _ _

end Sys2Proof.Machine
end

section
/-! PROOF. Writes of registers by management and by the host (R12, R41, R433, R476, R537). -/

namespace Sys2Proof.Machine

/-- A write of another width does nothing. -/
theorem execRegisterWrite_width (p : RegPath) (off w : Nat) (v : BitVec 64) (s : State) (h2 : w ≠ 2) (h4 : w ≠ 4) (h8 : w ≠ 8) :
    exec (.registerWrite p off w v) s = .next s := by
  simp [exec, execRegisterWrite, h2, h4, h8]

section
variable {off w : Nat} (v : BitVec 64) {s : State} (hw : w = 2 ∨ w = 4 ∨ w = 8)
include hw

theorem execRegisterWrite_mgmt (hs : ∀ b ∈ regsIn off w, s.sleeps b = false) :
    exec (.registerWrite .mgmt off w v) s = .next (if badSpan off w then s.refuse off v.toNat
      else ((regsIn off w).filter fun a => a.whole off w).foldl (fun s a => s.mgtWrite off v.toNat a) s) := by
  have hsl : ((regsIn off w).filter fun a => a.whole off w).any s.sleeps = false :=
    List.any_eq_false.2 fun b hb => by simp [hs b (List.mem_of_mem_filter hb)]
  unfold exec execRegisterWrite
  simp [show ¬(w ≠ 2 ∧ w ≠ 4 ∧ w ≠ 8) by omega, hsl]

theorem execRegisterWrite_cxl (ld : Nat) : exec (.registerWrite (.cxl ld) off w v) s = .next (s.hostWrite ld off w v.toNat) := by
  unfold exec execRegisterWrite
  simp [show ¬(w ≠ 2 ∧ w ≠ 4 ∧ w ≠ 8) by omega]

theorem execRegisterWrite_bar (ld : Nat) : exec (.registerWrite (.bar ld) off w v) s = .next (s.barStore ld off w v.toNat) := by
  unfold exec execRegisterWrite
  simp [show ¬(w ≠ 2 ∧ w ≠ 4 ∧ w ≠ 8) by omega]

end

theorem Exactly.exec_mgmt {s : State} {off w : Nat} {a : RegAt} (h : Exactly s off w a) (v : BitVec 64) :
    exec (.registerWrite .mgmt off w v) s = .next (s.mgtWrite off v.toNat a) := by
  rw [execRegisterWrite_mgmt v h.width h.awake, h.badSpan_eq, h.filter_whole]
  rfl

theorem State.mgtWrite_jobScoped (s : State) (o v : Nat) {a : RegAt} (h : a.r.jobScoped = true) :
    s.mgtWrite o v a = s.refuse a.base (a.part o v) := by
  simp [State.mgtWrite, h]

theorem State.mgtWrite_reachable {s : State} (o v : Nat) {a : RegAt} (h : a.r.jobScoped = false) (hr : s.reachable a = true) :
    s.mgtWrite o v a = s.wreg a (a.part o v) := by
  simp [State.mgtWrite, h, hr]

theorem State.mgtWrite_unreachable {s : State} (o v : Nat) {a : RegAt} (h : a.r.jobScoped = false) (hr : s.reachable a = false) :
    s.mgtWrite o v a = s := by
  simp [State.mgtWrite, h, hr]

/-- The host's write of one whole register reaches it where the host is there and may write it. -/
theorem State.hostWrite_one {s : State} {ld off w : Nat} {a : RegAt} (hr : regsIn off w = [a]) (hb : a.base = off) (hw : a.w = w)
    (v : Nat) : s.hostWrite ld off w v = if s.hostUp ld = true ∧ cxlMay ld a = true then s.wreg a (v % 2 ^ (8 * w)) else s := by
  have hwh : a.whole off w = true := by simp [RegAt.whole, hb, hw]
  cases hu : s.hostUp ld <;> cases hm : cxlMay ld a <;> simp [State.hostWrite, hu, hr, hwh, hm, RegAt.part_base hb, hw]

theorem Exactly.hostWrite_eq {s : State} {off w : Nat} {a : RegAt} (h : Exactly s off w a) (ld v : Nat) :
    s.hostWrite ld off w v = if s.hostUp ld = true ∧ cxlMay ld a = true then s.wreg a (v % 2 ^ (8 * w)) else s :=
  State.hostWrite_one h.regsIn_eq h.base_eq h.w_eq v

end Sys2Proof.Machine
end

section
/-! PROOF. The host's command registers of its flask (R433, R457). -/

namespace Sys2Proof.Machine

/-- The register of flask `f` at offset `d` of its block. -/
def flkAt (f : Nat) (r : Reg) (d w : Nat) : RegAt := ⟨r, f, 0, 0x100_0000 + f * 0x1_0000 + d, w⟩

/-- The flask's registers whose write by its host is a command, by their offset. -/
def hostCmds : List (Reg × Nat) := [(.QCTL, 0), (.SQTAIL, 0x18), (.CQHEAD, 0x24), (.SHAKE, 0x30), (.QCLR, 0x4C), (.TBAR, 0x6010)]

theorem regsIn_hostCmds : ∀ f < 16, ∀ e ∈ hostCmds, regsIn (0x100_0000 + f * 0x1_0000 + e.2) 4 = [flkAt f e.1 e.2 4]
    ∧ cxlMay f (flkAt f e.1 e.2 4) = true := by decide +kernel

/-- FLK_JOB is not the host's. -/
theorem regsIn_flkJob : ∀ f < 16, regsIn (0x100_0000 + f * 0x1_0000 + 0x5000) 8 = [flkAt f .JOB 0x5000 8]
    ∧ cxlMay f (flkAt f .JOB 0x5000 8) = false := by decide +kernel

/-- The command registers are flask registers with rules of their own. -/
theorem hostCmds_ownRules : ∀ e ∈ hostCmds, e.1.rwMask = none ∧ Reg.WDOG.ctorIdx ≤ e.1.ctorIdx ∧ e.1.ctorIdx < Reg.GCFG.ctorIdx := by decide

theorem State.wreg_flask (s : State) {a : RegAt} (hm : a.r.rwMask = none) (hlo : Reg.WDOG.ctorIdx ≤ a.r.ctorIdx)
    (hhi : a.r.ctorIdx < Reg.GCFG.ctorIdx) (v : Nat) : s.wreg a v = s.writeFlk a v := by
  have hp : ¬(a.r.ctorIdx < Reg.PSTATE.ctorIdx) := fun h => absurd (lt_of_le_of_lt hlo h) (by decide)
  simp [State.wreg, hm, hp, not_lt.2 hlo, hhi]

theorem exec_hostCmd {f : Nat} {s : State} (hf : f < 16) (hu : s.hostUp f = true) {r : Reg} {d : Nat} (he : (r, d) ∈ hostCmds)
    (v : BitVec 64) : exec (.registerWrite (.cxl f) (0x100_0000 + f * 0x1_0000 + d) 4 v) s
      = .next (s.writeFlk (flkAt f r d 4) (v.toNat % 2 ^ 32)) := by
  obtain ⟨hr, hmay⟩ := regsIn_hostCmds f hf _ he
  obtain ⟨hm, hlo, hhi⟩ := hostCmds_ownRules _ he
  rw [execRegisterWrite_cxl v (by simp), State.hostWrite_one hr rfl rfl, if_pos ⟨hu, hmay⟩, State.wreg_flask s hm hlo hhi]

theorem exec_hostJob {f : Nat} (s : State) (hf : f < 16) (v : BitVec 64) :
    exec (.registerWrite (.cxl f) (0x100_0000 + f * 0x1_0000 + 0x5000) 8 v) s = .next s := by
  obtain ⟨hr, hmay⟩ := regsIn_flkJob f hf
  rw [execRegisterWrite_cxl v (by simp), State.hostWrite_one hr rfl rfl, if_neg (by simp [hmay])]

/-- The low word of a value written, as a command takes it. -/
theorem ofNat_low_word (v : BitVec 64) : BitVec.ofNat 32 (v.toNat % 2 ^ 32) = v.setWidth 32 := by
  apply BitVec.eq_of_toNat_eq
  simp

theorem bit_zero_low_word (v : BitVec 64) : bit (v.toNat % 2 ^ 32) 0 = if v.getLsbD 0 then 1 else 0 := by
  have : v.getLsbD 0 = decide (v.toNat % 2 = 1) := by simp [BitVec.getLsbD, Nat.testBit_zero]
  simp only [bit, Nat.shiftRight_zero, this, decide_eq_true_eq]
  split <;> omega

theorem State.actions_zero (s : State) (v : Nat) (g : State → Host.Outcome State Fault Refusal) :
    s.actions v [(0, g)] = if bit v 0 = 1 then s.via g else s := rfl

end Sys2Proof.Machine
end

section
/-! PROOF. Bytes of numbers in little-endian order (R18). -/

namespace Sys2Proof.Machine

@[simp] theorem leBytes_length (n v : Nat) : (leBytes n v).length = n := by
  induction n generalizing v with
  | zero => rfl
  | succ n ih => simp [leBytes, ih]

theorem leBytes_getD {n i : Nat} (v : Nat) (h : i < n) : (leBytes n v).getD i 0 = BitVec.ofNat 8 (v / 256 ^ i) := by
  induction n generalizing v i with
  | zero => omega
  | succ n ih =>
    cases i with
    | zero => simp [leBytes]
    | succ i => rw [leBytes, List.getD_cons_succ, ih _ (by omega), Nat.div_div_eq_div_mul, pow_succ']

theorem leNat_lt (l : List Byte) : leNat l < 256 ^ l.length := by
  induction l with
  | nil => simp [leNat]
  | cons b l ih =>
    have hb := b.isLt
    simp only [leNat, List.length_cons, pow_succ']
    omega

theorem leAt_lt (l : List Byte) (i n : Nat) : leAt l i n < 256 ^ n := by
  have hlen : (slice l i n).length = n := by simp [slice]
  exact lt_of_lt_of_eq (leNat_lt _) (congrArg (256 ^ ·) hlen)

end Sys2Proof.Machine
end

section
/-! PROOF. The host's accesses to the BAR of its LD (R425, R432, R433, R446). -/

namespace Sys2Proof.Machine

theorem State.barStore_flk (s : State) {ld off o : Nat} (h : barFlk ld off = some o) (w v : Nat) :
    s.barStore ld off w v = s.hostWrite ld o w v := by
  cases hu : s.hostUp ld <;> simp [State.barStore, hu, h, State.hostWrite]

theorem State.barRead_flk (s : State) {ld off o : Nat} (h : barFlk ld off = some o) (w : Nat) :
    s.barRead ld off w = s.readRegs o w (cxlMay ld) := by
  simp [State.barRead, h]

/-- Where no register may be read, zero is. -/
theorem State.readRegs_none (s : State) {o w : Nat} {ok : RegAt → Bool} (h : ∀ a ∈ regsIn o w, ok a = false) :
    s.readRegs o w ok = (0, s) := by
  have : ((regsIn o w).filter fun a => a.whole o w && ok a) = [] :=
    List.filter_eq_nil_iff.2 fun a ha => by simp [h a ha]
  simp [State.readRegs, this]

theorem barFlk_outside {ld off : Nat} (h : off < 0x2_0000 ∨ 0x3_0000 ≤ off) : barFlk ld off = none := if_neg (by omega)

/-- Bytes written into the component and device registers are held, one after the other. -/
theorem State.barWrite_regs (s : State) (ld : Nat) {off : Nat} {bs : List Byte} (h : off + bs.length ≤ 0x1_1000) :
    (s.barWrite ld off bs).bar = putBytes s.bar (2 ^ 18 * ld + off) [] bs := by
  have hfold (n : Nat) (m : Sparse Byte) (l : List Byte) (hl : off + n + l.length ≤ 0x1_1000) :
      ((List.range' n l.length).zip l).foldl (fun m e =>
        if barReg (off + e.1) then Sparse.set 0 m (2 ^ 18 * ld + (off + e.1)) e.2 else m) m
        = putBytes m (2 ^ 18 * ld + (off + n)) [] l := by
    induction l generalizing n m with
    | nil => rfl
    | cons b l ih =>
      rw [List.length_cons] at hl
      have hreg : barReg (off + n) = true := by simp [barReg]; omega
      simpa [List.range'_succ, putBytes, hreg, Nat.add_assoc] using ih (n + 1) _ (by omega)
  simpa [State.barWrite, List.range_eq_range'] using hfold 0 s.bar bs h

/-- Past the component and device registers a write is not held. -/
theorem State.barWrite_none (s : State) {ld off : Nat} (h : 0x1_1000 ≤ off) (bs : List Byte) : s.barWrite ld off bs = s := by
  have hreg (i : Nat) : barReg (off + i) = false := by simp [barReg]; omega
  simp [State.barWrite, hreg]

theorem State.barByte_reg (s : State) (ld : Nat) {off : Nat} (h : off < 0x1_1000) :
    s.barByte ld off = (Sparse.get 0 s.bar (2 ^ 18 * ld + off)).toNat := by
  simp [State.barByte, barReg, h]

theorem State.barByte_zero (s : State) (ld : Nat) {off : Nat} (h : 0x1_1000 ≤ off) (h' : off < 0x3_0000) : s.barByte ld off = 0 := by
  unfold State.barByte barReg
  rw [if_neg (by simp; omega), if_neg (by omega), if_neg (by omega)]

theorem State.barStore_held {s : State} {ld off w : Nat} (hu : s.hostUp ld = true) (h : off + w ≤ 0x2_0000) (hw : 0 < w) (v : Nat) :
    s.barStore ld off w v = s.barWrite ld off (leBytes w v) := by
  unfold State.barStore
  rw [barFlk_outside (by omega)]
  simp [hu]
  omega

theorem State.barStore_msix {s : State} {ld vec : Nat} (hu : s.hostUp ld = true) (hv : vec < 4) (v : Nat) :
    s.barStore ld (0x3_0000 + 16 * vec + 12) 4 v = s.via (execMsixTableWrite ld vec (BitVec.ofNat 128
      (setFld (Sparse.get (1#128 <<< 96) s.msix (4 * ld + vec)).toNat 127 96 (v % 2 ^ 32)))) := by
  have hk : (0x3_0000 + 16 * vec + 12) % 16 = 12 := by omega
  have hvec : (0x3_0000 + 16 * vec + 12 - 0x3_0000) / 16 = vec := by omega
  unfold State.barStore
  rw [barFlk_outside (by omega)]
  simp only [hu, hk, hvec]
  rw [if_neg (by simp), if_pos (by omega)]
  rfl

/-- The rest of the BAR takes no write and reads zero. -/
theorem State.barStore_elsewhere (s : State) {ld off w : Nat} (hw : 0 < w) (h : 0x1_1000 ≤ off) (h' : off + w ≤ 0x2_0000) (v : Nat) :
    s.barStore ld off w v = s := by
  cases hu : s.hostUp ld with
  | false => simp [State.barStore, hu]
  | true => rw [State.barStore_held hu h' hw, State.barWrite_none s h]

theorem State.barRead_elsewhere (s : State) {ld off w : Nat} (hw : 0 < w) (h : 0x1_1000 ≤ off) (h' : off + w ≤ 0x2_0000) :
    (s.barRead ld off w).1 = 0 := by
  have hz : ∀ n ≤ w, (List.range n).foldl (fun a k => a + s.barByte ld (off + k) * 256 ^ k) 0 = 0 := by
    intro n hn
    induction n with
    | zero => rfl
    | succ n ih => rw [List.range_succ, List.foldl_append, ih (by omega)]; simp [s.barByte_zero ld (off := off + n) (by omega) (by omega)]
  simpa [State.barRead, barFlk_outside (ld := ld) (off := off) (by omega)] using hz w le_rfl

end Sys2Proof.Machine
end

section
/-! PROOF. Job installs (R476, R477). -/

namespace Sys2Proof.Machine

theorem execJobInstall_bad {s : State} {m : MgtMsg} (h : Serves s m 0x30)
    (hbad : mNw m = 0 ∨ 4096 < mNw m ∨ m.body.length ≠ 32 + 16 * mNw m + 9893) : Replies (.jobInstall m) s (s.taken m) m 0xFF [6] := by
  refine replies_of_respond (congrArg Host.Outcome.next ((h.serveMgt_eq _).trans (if_pos ?_)))
  simpa [or_assoc] using hbad

theorem execJobInstall_held {s : State} {m : MgtMsg} (h : Serves s m 0x30) (h1 : 1 ≤ mNw m) (h2 : mNw m ≤ 4096)
    (h3 : m.body.length = 32 + 16 * mNw m + 9893) : exec (.jobInstall m) s = .next { s with mgt := { (s.taken m).mgt with
      installs := s.mgt.installs ++ [{ msg := m, ok := false, next := 0, applied := 0, skipped := none }] } } := by
  refine congrArg Host.Outcome.next ((h.serveMgt_eq _).trans (if_neg ?_))
  simp [h3]
  omega

/-- An install passes its checks when its signature, SERIAL, BOOTNUM and JSEQ are right. -/
theorem State.installBad_none (s : State) (m : MgtMsg) : s.installBad m = none ↔
    Config.xmssMtVerify s.jaKey (([BitVec.ofNat 8 m.code, BitVec.ofNat 8 m.sid, 0, 0] ++ m.body).take (4 + (32 + 16 * mNw m)))
        (m.body.drop (32 + 16 * mNw m)) = true
      ∧ leAt m.body 0 16 = Config.serial.toNat ∧ leAt m.body 16 4 = s.rn .BOOTNUM 0 0 ∧ s.rn .JSEQ 0 0 < leAt m.body 24 8 := by
  unfold State.installBad mBytes
  dsimp only
  generalize Config.xmssMtVerify _ _ _ = sig
  cases sig
  · simp
  · by_cases hserial : leAt m.body 0 16 = Config.serial.toNat <;> by_cases hboot : leAt m.body 16 4 = s.rn .BOOTNUM 0 0 <;>
      simp [hserial, hboot]

/-- Nothing is verified while no install waits for its check, nor written while none has passed it. -/
theorem execJobInstallVerify_idle {s : State} (h : s.mgt.installs = [] ∨ ∃ e rest, s.mgt.installs = e :: rest ∧ e.ok = true) :
    exec .jobInstallVerify s = .next s := by
  rcases h with h | ⟨e, rest, h, hok⟩ <;> simp [exec, execJobInstallVerify, *]

theorem execJobInstallWrite_idle {s : State} (h : s.mgt.installs = [] ∨ ∃ e rest, s.mgt.installs = e :: rest ∧ e.ok = false) :
    exec .jobInstallWrite s = .next s := by
  rcases h with h | ⟨e, rest, h, hok⟩ <;> simp [exec, execJobInstallWrite, *]

section
variable {s : State} {e : Install} {rest : List Install} (hi : s.mgt.installs = e :: rest)
include hi

theorem execJobInstallVerify_good (hok : e.ok = false) (hg : s.installBad e.msg = none) : exec .jobInstallVerify s = .next
    (State.wn { s with mgt := { s.mgt with installs := { e with ok := true } :: rest } } .JSEQ 0 0 (leAt e.msg.body 24 8)) := by
  simp only [exec, execJobInstallVerify, hi, hok, hg, Bool.false_eq_true, if_false]
  exact congrArg _ (State.wn_withMgt s _ .JSEQ 0 0 _)

theorem execJobInstallVerify_bad (hok : e.ok = false) {why : Nat} (hb : s.installBad e.msg = some why) : exec .jobInstallVerify s = .next
    ((State.refuseCmd { s with mgt := { s.mgt with installs := rest } } 0x30 why).installReply { e with skipped := some 0 }) := by
  simp only [exec, execJobInstallVerify, hi, hok, hb]
  rfl

end

/-- An install one record on: `n` registers applied, and whether the record was skipped. -/
def Install.counted (e : Install) (n : Nat) (sk : Bool) : Install :=
  { e with next := e.next + 1, applied := e.applied + n, skipped := e.skipped <|> (if sk then some e.next else none) }

/-- The record an install writes next. -/
def State.installNext (s : State) (e : Install) : Nat × Bool × State :=
  s.installOne (leAt e.msg.body (32 + 16 * e.next) 4) (leAt e.msg.body (32 + 16 * e.next + 4) 4)
    (leAt e.msg.body (32 + 16 * e.next + 8) 8)

section
variable {s u : State} {e : Install} {rest : List Install} {n : Nat} {sk : Bool} (hi : s.mgt.installs = e :: rest) (hok : e.ok = true)
  (hr : s.installNext e = (n, sk, u))
include hi hok hr

theorem execJobInstallWrite_more (h : e.next + 1 < mNw e.msg) :
    exec .jobInstallWrite s = .next { u with mgt := { u.mgt with installs := e.counted n sk :: rest } } := by
  unfold State.installNext at hr
  simp only [exec, execJobInstallWrite, hi, hr]
  rw [if_neg (by simp [hok]), if_pos h]
  rfl

theorem execJobInstallWrite_last (h : mNw e.msg ≤ e.next + 1) :
    exec .jobInstallWrite s = .next (State.installReply { u with mgt := { u.mgt with installs := rest } } (e.counted n sk)) := by
  unfold State.installNext at hr
  simp only [exec, execJobInstallWrite, hi, hr]
  rw [if_neg (by simp [hok]), if_neg (not_lt.2 h)]
  rfl

end

/-- A record that spells one job-scoped register writes it. -/
theorem Exactly.installOne_applied {s : State} {o w : Nat} {a : RegAt} {m : Nat} (h : Exactly s o w a) (hj : a.r.jobScoped = true)
    (hm : a.r.rwMask = some m) (v : Nat) : s.installOne o w v = (1, false, s.wreg a (a.part o v)) := by
  have hw : ¬(w ≠ 2 ∧ w ≠ 4 ∧ w ≠ 8) := by have := h.width; omega
  have hnot : refusedBetween s (s.wreg a (a.part o v)) = false := by simp [refusedBetween, s.wreg_mgt_of_rwMask hm]
  simp [State.installOne, h.filter_whole, h.badSpan_eq, hj, hnot]
  omega

/-- A record that spells another register is skipped and logged. -/
theorem Exactly.installOne_skipped {s : State} {o w : Nat} {a : RegAt} (h : Exactly s o w a) (hj : a.r.jobScoped = false) (v : Nat) :
    s.installOne o w v = (0, true, s.refuse a.base (a.part o v)) := by
  have hw := h.width
  simp [State.installOne, h.filter_whole, h.badSpan_eq, hj]
  omega

end Sys2Proof.Machine
end

section
/-! PROOF. REG_READ and REG_WRITE (R537, R539). -/

namespace Sys2Proof.Machine

/-- Most registers read as what they hold. -/
theorem State.rreg_plain (s : State) {a : RegAt}
    (h : a.r ∉ [.SERIAL, .SESS, .PATHDR, .PATSEC, .LSCORR, .CCCORR, .GSTEP, .QSTAT, .MXSTAT, .ISTAT, .GSTARVE]) :
    s.rreg a = (if a.r.wo = true then 0 else s.rn a.r a.i a.j, s) := by
  unfold State.rreg
  split
  · rfl
  · split
    case h_12 => rfl
    all_goals simp_all

theorem Exactly.readRegs_eq {s t : State} {o w : Nat} {a : RegAt} (h : Exactly s o w a) {ok : RegAt → Bool} (hok : ok a = true)
    (hp : a.r ∉ [.SERIAL, .SESS, .PATHDR, .PATSEC, .LSCORR, .CCCORR, .GSTEP, .QSTAT, .MXSTAT, .ISTAT, .GSTARVE]) :
    t.readRegs o w ok = (if a.r.wo = true then 0 else t.rn a.r a.i a.j, t) := by
  simp [State.readRegs, h.regsIn_eq, h.whole, hok, h.base_eq, t.rreg_plain hp]

section
variable {s : State} {m : MgtMsg}

/-- REG_READ waits while a core it reads from sleeps. -/
theorem execRegRead_waits (h : ∃ a ∈ regsIn (leAt m.body 0 4) (leAt m.body 4 1), s.sleeps a = true) : exec (.regRead m) s = .next s := by
  simp [exec, execRegRead, List.any_eq_true.2 h]

variable (hs : ∀ a ∈ regsIn (leAt m.body 0 4) (leAt m.body 4 1), s.sleeps a = false)
include hs

theorem any_sleeps_eq_false : (regsIn (leAt m.body 0 4) (leAt m.body 4 1)).any s.sleeps = false :=
  List.any_eq_false.2 fun a ha => by simp [hs a ha]

theorem execRegRead_awake (h : Serves s m 0x10) : exec (.regRead m) s = .next (
    if m.body.length ≠ 5 || (leAt m.body 4 1 ≠ 2 && leAt m.body 4 1 ≠ 4 && leAt m.body 4 1 ≠ 8) then (s.taken m).respond m 0xFF [6]
    else if badSpan (leAt m.body 0 4) (leAt m.body 4 1) then (s.taken m).respond m 0x90 (4 :: leBytes 8 0)
    else if regsIn (leAt m.body 0 4) (leAt m.body 4 1) = [] then (s.taken m).respond m 0x90 (2 :: leBytes 8 0)
    else ((s.taken m).readRegs (leAt m.body 0 4) (leAt m.body 4 1) (s.taken m).reachable).2.respond m 0x90
      (0 :: leBytes 8 ((s.taken m).readRegs (leAt m.body 0 4) (leAt m.body 4 1) (s.taken m).reachable).1)) := by
  simp only [exec, execRegRead, any_sleeps_eq_false hs, h.serveMgt_eq, State.err, State.reply, h.code]
  rfl

theorem execRegWrite_awake (h : Serves s m 0x11) : exec (.regWrite m) s = .next (
    if s.authorised m then
      if m.body.length ≠ 13 || (leAt m.body 4 1 ≠ 2 && leAt m.body 4 1 ≠ 4 && leAt m.body 4 1 ≠ 8) then (s.taken m).respond m 0xFF [6]
      else if badSpan (leAt m.body 0 4) (leAt m.body 4 1) then
        ((s.taken m).refuse (leAt m.body 0 4) (leAt m.body 5 8)).respond m 0x91 [4]
      else if regsIn (leAt m.body 0 4) (leAt m.body 4 1) = [] then (s.taken m).respond m 0x91 [2]
      else
        let t := (regsIn (leAt m.body 0 4) (leAt m.body 4 1)).foldl (fun s a => s.mgtWrite (leAt m.body 0 4) (leAt m.body 5 8) a) (s.taken m)
        t.respond m 0x91 [BitVec.ofNat 8 (if (regsIn (leAt m.body 0 4) (leAt m.body 4 1)).any fun a => a.r.jobScoped then 3
          else if refusedBetween (s.taken m) t then 1 else 0)]
    else (s.taken m).respond m 0xFF [5]) := by
  simp only [exec, execRegWrite, any_sleeps_eq_false hs, h.serveAuth_eq, State.err, State.status, State.reply, h.code]
  rfl

end
end Sys2Proof.Machine
end

section
/-! PROOF. Error records and telemetry (R542, R546 to R549). -/

namespace Sys2Proof.Machine

theorem Record.bytes_length (r : Record) : (Record.bytes r).length = 64 := by
  simp [Record.bytes]

theorem State.telemetry_length (s : State) : s.telemetry.length = 128 := by
  simp [State.telemetry, List.range_succ]

theorem execRecGet_eq {s : State} {m : MgtMsg} (h : Serves s m 0x40) : exec (.recGet m) s = .next (
    if m.body.length ≠ 5 || leAt m.body 4 1 = 0 || 16 < leAt m.body 4 1 then (s.taken m).respond m 0xFF [6]
    else
      let rs := (s.records.filter fun r => leAt m.body 0 4 ≤ r.rseq).take (leAt m.body 4 1)
      State.respond (if m.src.path = .i3c then
          { s.taken m with records := s.records.map fun r => if rs.contains r then { r with i3c := true } else r } else s.taken m)
        m 0xC0 (rs.map Record.bytes).flatten) := by
  simp only [exec, execRecGet, h.serveMgt_eq, State.err, State.reply, h.code]
  rfl

theorem execRecAck_eq {s : State} {m : MgtMsg} (h : Serves s m 0x41) : exec (.recAck m) s = .next (
    if m.body.length ≠ 4 then (s.taken m).respond m 0xFF [6]
    else State.respond (if leAt m.body 0 4 < s.rn .RACK 0 0 then s.taken m
      else State.wn { s.taken m with records := s.records.map fun r => if r.rseq ≤ leAt m.body 0 4 then { r with acked := true } else r }
        .RACK 0 0 (leAt m.body 0 4)) m 0xC1 [0]) := by
  simp only [exec, execRecAck, h.serveMgt_eq, State.err, State.status, State.reply, h.code]
  rfl

theorem execTelem_replies {s : State} {m : MgtMsg} (h : Serves s m 0x50) : Replies (.telem m) s (s.taken m) m 0xD0 s.telemetry := by
  refine replies_of_respond (congrArg Host.Outcome.next ((h.serveMgt_eq _).trans ?_))
  simp only [State.reply, h.code]
  rfl

theorem State.sendRecords_records (s : State) (p : Record → Bool) (i : Nat) :
    (s.sendRecords p).records[i]? = s.records[i]?.map fun r => if p r then { r with sent := r.sent + 1 } else r :=
  List.getElem?_map

theorem State.mem_sendRecords_out (s : State) (p : Record → Bool) (o : Out) :
    o ∈ (s.sendRecords p).out ↔ (∃ r ∈ s.records, p r = true ∧ o = .record r.rseq) ∨ o ∈ s.out := by
  simp [State.sendRecords, and_assoc, @eq_comm _ o]

end Sys2Proof.Machine
end

section
/-! PROOF. The clauses of O57 that turn on more than one rule, and O57. -/

namespace Sys2Proof.Machine

/-! ### Register writes -/

/-- A register that a write only sets, written by management or by its host. -/
theorem Exactly.exec_set {s : State} {off w : Nat} {a : RegAt} (h : Exactly s off w a) {m : Nat} (hm : a.r.rwMask = some m)
    {c : Instr} {v : BitVec 64} (hc : exec c s = .next (s.wreg a (a.part off v.toNat))) :
    ∃ t, exec c s = .next t ∧ WroteReg s t a (v.toNat % 2 ^ (8 * w) &&& m) ∧ t.out = s.out ∧ t.mgt = s.mgt :=
  ⟨_, hc, h.wroteReg hm v.toNat, s.wreg_out_of_rwMask hm _, s.wreg_mgt_of_rwMask hm _⟩

theorem Exactly.exec_jobScoped {s : State} {off w : Nat} {a : RegAt} (h : Exactly s off w a) (hj : a.r.jobScoped = true) (v : BitVec 64) :
    ∃ t, exec (.registerWrite .mgmt off w v) s = .next t ∧ Logged s t :=
  ⟨_, (h.exec_mgmt v).trans (congrArg _ (s.mgtWrite_jobScoped _ _ hj)), logged_refuse _ _ _⟩

theorem Exactly.exec_cxl_denied {s : State} {off w : Nat} {a : RegAt} (h : Exactly s off w a) {ld : Nat}
    (hd : s.hostUp ld = false ∨ cxlMay ld a = false) (v : BitVec 64) : exec (.registerWrite (.cxl ld) off w v) s = .next s := by
  rw [execRegisterWrite_cxl v h.width, h.hostWrite_eq, if_neg]
  rintro ⟨hu, hm⟩
  simp [hu, hm] at hd

theorem Exactly.exec_cxl {s : State} {off w : Nat} {a : RegAt} (h : Exactly s off w a) {ld : Nat} (hu : s.hostUp ld = true)
    (hmay : cxlMay ld a = true) (v : BitVec 64) :
    exec (.registerWrite (.cxl ld) off w v) s = .next (s.wreg a (a.part off v.toNat)) := by
  rw [execRegisterWrite_cxl v h.width, h.hostWrite_eq, if_pos ⟨hu, hmay⟩, RegAt.part_base h.base_eq, h.w_eq]

theorem exec_mgmt_badSpan {s : State} {off w : Nat} (hw : w = 2 ∨ w = 4 ∨ w = 8) (hs : ∀ b ∈ regsIn off w, s.sleeps b = false)
    (hb : badSpan off w = true) (v : BitVec 64) : ∃ t, exec (.registerWrite .mgmt off w v) s = .next t ∧ Logged s t :=
  ⟨_, (execRegisterWrite_mgmt v hw hs).trans (congrArg _ (if_pos hb)), logged_refuse _ _ _⟩

theorem exec_mgmt_none {s : State} {off w : Nat} (hw : w = 2 ∨ w = 4 ∨ w = 8) (hb : badSpan off w = false) (hr : regsIn off w = [])
    (v : BitVec 64) : exec (.registerWrite .mgmt off w v) s = .next s := by
  rw [execRegisterWrite_mgmt v hw (by simp [hr]), hb, hr]
  rfl

/-- A command register of the host whose command takes the word written. -/
theorem exec_hostWord {f : Nat} {s : State} (hf : f < 16) (hu : s.hostUp f = true) {r : Reg} {d : Nat} (he : (r, d) ∈ hostCmds)
    {g : BitVec 32 → State → Host.Outcome State Fault Refusal} (hg : ∀ n, s.writeFlk (flkAt f r d 4) n = s.via (g (BitVec.ofNat 32 n)))
    (v : BitVec 64) : exec (.registerWrite (.cxl f) (0x100_0000 + f * 0x1_0000 + d) 4 v) s = .next (s.via (g (v.setWidth 32))) := by
  rw [exec_hostCmd hf hu he, hg, ofNat_low_word]

/-- A GO bit of a command register of the host starts its action, and a zero does nothing. -/
theorem exec_hostGo {f : Nat} {s : State} (hf : f < 16) (hu : s.hostUp f = true) {r : Reg} {d : Nat} (he : (r, d) ∈ hostCmds)
    {g : State → Host.Outcome State Fault Refusal} (hg : ∀ n, s.writeFlk (flkAt f r d 4) n = s.actions n [(0, g)]) (v : BitVec 64) :
    exec (.registerWrite (.cxl f) (0x100_0000 + f * 0x1_0000 + d) 4 v) s = .next (if v.getLsbD 0 then s.via g else s) := by
  rw [exec_hostCmd hf hu he, hg, State.actions_zero, bit_zero_low_word]
  cases v.getLsbD 0 <;> rfl

/-! ### The BAR -/

section
variable {ld off w : Nat} (v : BitVec 64) {s : State} (hw : w = 2 ∨ w = 4 ∨ w = 8)
include hw

theorem exec_bar_flk {o : Nat} (h : barFlk ld off = some o) :
    exec (.registerWrite (.bar ld) off w v) s = exec (.registerWrite (.cxl ld) o w v) s := by
  rw [execRegisterWrite_bar v hw, execRegisterWrite_cxl v hw, s.barStore_flk h]

theorem exec_bar_held (hu : s.hostUp ld = true) (h : off + w ≤ 0x1_1000) : ∃ t, exec (.registerWrite (.bar ld) off w v) s = .next t
    ∧ t = { s with bar := t.bar } ∧ (∀ i, i < w → t.barByte ld (off + i) = v.toNat / 256 ^ i % 256)
    ∧ ∀ k, (k < 2 ^ 18 * ld + off ∨ 2 ^ 18 * ld + off + w ≤ k) → Sparse.get 0 t.bar k = Sparse.get 0 s.bar k := by
  have hbar : (s.barWrite ld off (leBytes w v.toNat)).bar = putBytes s.bar (2 ^ 18 * ld + off) [] (leBytes w v.toNat) :=
    s.barWrite_regs ld (by rw [leBytes_length]; exact h)
  refine ⟨_, (execRegisterWrite_bar v hw ld).trans (congrArg _ (State.barStore_held hu (by omega) (by omega) _)), rfl, fun i hi => ?_,
    fun k hk => ?_⟩
  · rw [State.barByte_reg _ _ (by omega), hbar, get_putBytes, leBytes_length, if_pos ⟨by omega, by omega, by simp⟩,
      show 2 ^ 18 * ld + (off + i) - (2 ^ 18 * ld + off) = i by omega, leBytes_getD _ hi]
    simp
  · rw [hbar, get_putBytes, leBytes_length, if_neg (by omega)]

theorem exec_bar_elsewhere (h : 0x1_1000 ≤ off) (h' : off + w ≤ 0x2_0000) : exec (.registerWrite (.bar ld) off w v) s = .next s := by
  rw [execRegisterWrite_bar v hw, s.barStore_elsewhere (by omega) h h']

end

theorem exec_bar_msix {ld vec : Nat} (v : BitVec 64) {s : State} (hu : s.hostUp ld = true) (hv : vec < 4) :
    exec (.registerWrite (.bar ld) (0x3_0000 + 16 * vec + 12) 4 v) s = exec (.msixTableWrite ld vec (BitVec.ofNat 128
      (setFld (Sparse.get (1#128 <<< 96) s.msix (4 * ld + vec)).toNat 127 96 (v.toNat % 2 ^ 32)))) s := by
  rw [execRegisterWrite_bar v (by simp), State.barStore_msix hu hv]
  rfl

/-! ### Job installs -/

theorem State.installReply_plain (s : State) {e : Install} (h : e.msg.sess = 0) : s.installReply e
    = { s with out := .mgt e.msg.src e.msg.mid 0 (e.msg.code + 0x80) (leBytes 4 e.applied ++ leBytes 4 (e.skipped.getD (mNw e.msg))) :: s.out } :=
  s.respond_plain h _ _

theorem State.installReply_installs (s : State) (e : Install) : (s.installReply e).mgt.installs = s.mgt.installs := by
  unfold State.installReply State.reply
  rw [State.respond_only]

/-- The checks pass: MGT_JSEQ takes the install's number, and its records are written next. -/
theorem jobInstallVerify_good {s : State} {e : Install} {rest : List Install} (hi : s.mgt.installs = e :: rest) (hok : e.ok = false)
    (hg : s.installBad e.msg = none) : ∃ t, exec .jobInstallVerify s = .next t ∧ t.rn .JSEQ 0 0 = leAt e.msg.body 24 8
      ∧ t.mgt.installs = { e with ok := true } :: rest ∧ t.out = s.out ∧ t.mem = s.mem
      ∧ ∀ r i j, i < 4096 → j < 2 ^ 20 → r ≠ .JSEQ → t.rn r i j = s.rn r i j := by
  have hlt : leAt e.msg.body 24 8 < 2 ^ 64 := lt_of_lt_of_eq (leAt_lt e.msg.body 24 8) (by norm_num)
  refine ⟨_, execJobInstallVerify_good hi hok hg, ?_, ?_, ?_, ?_, fun r i j _ _ hr => ?_⟩
  · rw [State.rn_wn_same, Nat.mod_eq_of_lt hlt]
  · rw [State.wn_mgt]
  · rw [State.wn_out]
  · rw [State.wn_mem]
  · rw [State.rn_wn_other _ hr, State.rn_withMgt]

/-- A check fails: nothing is applied, and the refusal is logged and answered. -/
theorem jobInstallVerify_bad {s : State} {e : Install} {rest : List Install} (hi : s.mgt.installs = e :: rest) (hok : e.ok = false)
    (hb : s.installBad e.msg ≠ none) : ∃ t, exec .jobInstallVerify s = .next t ∧ Logged s t ∧ t.mgt.installs = rest ∧ (e.msg.sess = 0 →
      t.out.head? = some (.mgt e.msg.src e.msg.mid 0 (e.msg.code + 0x80) (leBytes 4 e.applied ++ leBytes 4 0))) := by
  obtain ⟨why, hwhy⟩ := Option.ne_none_iff_exists'.1 hb
  refine ⟨_, execJobInstallVerify_bad hi hok hwhy, ?_, ?_, fun h0 => ?_⟩
  · exact Logged.respond (logged_refuseCmd { s with mgt := { s.mgt with installs := rest } } 0x30 why) _ _ _
  · rw [State.installReply_installs, State.refuseCmd_mgt]
  · rw [State.installReply_plain]
    · rfl
    · exact h0

section
variable {s : State} {e : Install} {rest : List Install} {a : RegAt} (hi : s.mgt.installs = e :: rest) (hok : e.ok = true)
  (h : Exactly s (leAt e.msg.body (32 + 16 * e.next) 4) (leAt e.msg.body (32 + 16 * e.next + 4) 4) a)
include hi hok h

/-- A record of a job-scoped register is applied and counted. -/
theorem jobInstallWrite_applied {m : Nat} (hj : a.r.jobScoped = true) (hm : a.r.rwMask = some m) :
    ∃ t, exec .jobInstallWrite s = .next t ∧ WroteReg s t a (leAt e.msg.body (32 + 16 * e.next + 8) 8 % 2 ^ (8 * a.w) &&& m)
      ∧ (e.next + 1 < mNw e.msg → t.mgt.installs = { e with next := e.next + 1, applied := e.applied + 1 } :: rest ∧ t.out = s.out)
      ∧ (mNw e.msg ≤ e.next + 1 → t.mgt.installs = rest ∧ (e.msg.sess = 0 → t.out = .mgt e.msg.src e.msg.mid 0 (e.msg.code + 0x80)
          (leBytes 4 (e.applied + 1) ++ leBytes 4 (e.skipped.getD (mNw e.msg))) :: s.out)) := by
  have hr := h.installOne_applied hj hm (leAt e.msg.body (32 + 16 * e.next + 8) 8)
  have hwrote := h.wroteReg hm (leAt e.msg.body (32 + 16 * e.next + 8) 8)
  have hout := s.wreg_out_of_rwMask hm (a.part (leAt e.msg.body (32 + 16 * e.next) 4) (leAt e.msg.body (32 + 16 * e.next + 8) 8))
  have hcount : e.counted 1 false = { e with next := e.next + 1, applied := e.applied + 1 } := by simp [Install.counted]
  rw [h.w_eq]
  rcases Nat.lt_or_ge (e.next + 1) (mNw e.msg) with hmore | hlast
  · refine ⟨_, execJobInstallWrite_more hi hok hr hmore, hwrote.withMgtOut _ _, fun _ => ⟨by rw [hcount], hout⟩, fun hle => ?_⟩
    exact absurd hmore (not_lt.2 hle)
  · refine ⟨_, execJobInstallWrite_last hi hok hr hlast, (hwrote.withMgtOut _ _).respond _ _ _, fun hlt => absurd hlt (not_lt.2 hlast),
      fun _ => ⟨State.installReply_installs _ _, fun h0 => ?_⟩⟩
    rw [hcount, State.installReply_plain]
    · exact congrArg _ hout
    · exact h0

/-- A record of another register is skipped and logged. -/
theorem jobInstallWrite_skipped (hj : a.r.jobScoped = false) :
    ∃ t, exec .jobInstallWrite s = .next t ∧ Logged s t
      ∧ (e.next + 1 < mNw e.msg → t.mgt.installs = { e with next := e.next + 1, skipped := some (e.skipped.getD e.next) } :: rest)
      ∧ (mNw e.msg ≤ e.next + 1 → t.mgt.installs = rest ∧ (e.msg.sess = 0 → t.out.head? = some (.mgt e.msg.src e.msg.mid 0
          (e.msg.code + 0x80) (leBytes 4 e.applied ++ leBytes 4 (e.skipped.getD e.next))))) := by
  have hr := h.installOne_skipped hj (leAt e.msg.body (32 + 16 * e.next + 8) 8)
  have hlog := logged_refuse s a.base (a.part (leAt e.msg.body (32 + 16 * e.next) 4) (leAt e.msg.body (32 + 16 * e.next + 8) 8))
  have hcount : e.counted 0 true = { e with next := e.next + 1, skipped := some (e.skipped.getD e.next) } := by
    cases hsk : e.skipped <;> simp [Install.counted, hsk]
  rcases Nat.lt_or_ge (e.next + 1) (mNw e.msg) with hmore | hlast
  · refine ⟨_, execJobInstallWrite_more hi hok hr hmore, hlog.withMgtOut _ _, fun _ => by rw [hcount], fun hle => ?_⟩
    exact absurd hmore (not_lt.2 hle)
  · refine ⟨_, execJobInstallWrite_last hi hok hr hlast, (hlog.withMgtOut _ _).respond _ _ _, fun hlt => absurd hlt (not_lt.2 hlast),
      fun _ => ⟨State.installReply_installs _ _, fun h0 => ?_⟩⟩
    rw [hcount, State.installReply_plain]
    · rfl
    · exact h0

end
end Sys2Proof.Machine
end

section
/-! PROOF. The answers of REG_READ, REG_WRITE, REC_GET and REC_ACK, and what is sent without a request. -/

namespace Sys2Proof.Machine

section
variable {s : State} {m : MgtMsg} (h : Serves s m 0x10)
  (hs : ∀ a ∈ regsIn (leAt m.body 0 4) (leAt m.body 4 1), s.sleeps a = false)
include h hs

theorem regRead_illFormed (hl : m.body.length ≠ 5 ∨ (leAt m.body 4 1 ≠ 2 ∧ leAt m.body 4 1 ≠ 4 ∧ leAt m.body 4 1 ≠ 8)) :
    Replies (.regRead m) s (s.taken m) m 0xFF [6] :=
  replies_of_respond <| (execRegRead_awake hs h).trans <| congrArg _ <| if_pos (by simpa [and_assoc] using hl)

variable (hl : m.body.length = 5) (hw : leAt m.body 4 1 = 2 ∨ leAt m.body 4 1 = 4 ∨ leAt m.body 4 1 = 8)
include hl hw

theorem execRegRead_wellFormed : exec (.regRead m) s = .next (
    if badSpan (leAt m.body 0 4) (leAt m.body 4 1) then (s.taken m).respond m 0x90 (4 :: leBytes 8 0)
    else if regsIn (leAt m.body 0 4) (leAt m.body 4 1) = [] then (s.taken m).respond m 0x90 (2 :: leBytes 8 0)
    else ((s.taken m).readRegs (leAt m.body 0 4) (leAt m.body 4 1) (s.taken m).reachable).2.respond m 0x90
      (0 :: leBytes 8 ((s.taken m).readRegs (leAt m.body 0 4) (leAt m.body 4 1) (s.taken m).reachable).1)) :=
  (execRegRead_awake hs h).trans <| congrArg _ <| if_neg (by simp [hl]; omega)

theorem regRead_badSpan (hb : badSpan (leAt m.body 0 4) (leAt m.body 4 1) = true) :
    Replies (.regRead m) s (s.taken m) m 0x90 [4, 0, 0, 0, 0, 0, 0, 0, 0] :=
  replies_of_respond <| (execRegRead_wellFormed h hs hl hw).trans <| congrArg _ <| if_pos hb

theorem regRead_none (hb : badSpan (leAt m.body 0 4) (leAt m.body 4 1) = false) (hr : regsIn (leAt m.body 0 4) (leAt m.body 4 1) = []) :
    Replies (.regRead m) s (s.taken m) m 0x90 [2, 0, 0, 0, 0, 0, 0, 0, 0] :=
  replies_of_respond <| (execRegRead_wellFormed h hs hl hw).trans <| congrArg _ <| by
    rw [hb, if_neg Bool.false_ne_true, if_pos hr]
    rfl

end

theorem regRead_register {s : State} {m : MgtMsg} (h : Serves s m 0x10) (hl : m.body.length = 5) {a : RegAt}
    (ha : Exactly s (leAt m.body 0 4) (leAt m.body 4 1) a) (hreach : s.reachable a = true)
    (hp : a.r ∉ [.SERIAL, .SESS, .PATHDR, .PATSEC, .LSCORR, .CCCORR, .GSTEP, .QSTAT, .MXSTAT, .ISTAT, .GSTARVE]) :
    Replies (.regRead m) s (s.taken m) m 0x90 (0 :: leBytes 8 (if a.r.wo = true then 0 else s.rn a.r a.i a.j)) := by
  have hread := ha.readRegs_eq (t := s.taken m) (ok := (s.taken m).reachable) hreach hp
  refine replies_of_respond ((execRegRead_wellFormed h ha.awake hl ha.width).trans ?_)
  rw [ha.badSpan_eq, if_neg Bool.false_ne_true, if_neg (by simp [ha.regsIn_eq]), hread]
  rfl

section
variable {s : State} {m : MgtMsg} (h : Serves s m 0x11)
  (hs : ∀ a ∈ regsIn (leAt m.body 0 4) (leAt m.body 4 1), s.sleeps a = false)
include h hs

theorem regWrite_unauthorised (ha : s.authorised m = false) : Replies (.regWrite m) s (s.taken m) m 0xFF [5] :=
  replies_of_respond <| (execRegWrite_awake hs h).trans <| congrArg _ <| if_neg (by simp [ha])

variable (ha : s.authorised m = true)
include ha

theorem regWrite_illFormed (hl : m.body.length ≠ 13 ∨ (leAt m.body 4 1 ≠ 2 ∧ leAt m.body 4 1 ≠ 4 ∧ leAt m.body 4 1 ≠ 8)) :
    Replies (.regWrite m) s (s.taken m) m 0xFF [6] :=
  replies_of_respond <| (execRegWrite_awake hs h).trans <| congrArg _ <| by
    rw [if_pos ha, if_pos (by simpa [and_assoc] using hl)]

variable (hl : m.body.length = 13) (hw : leAt m.body 4 1 = 2 ∨ leAt m.body 4 1 = 4 ∨ leAt m.body 4 1 = 8)
include hl hw

theorem regWrite_none (hb : badSpan (leAt m.body 0 4) (leAt m.body 4 1) = false) (hr : regsIn (leAt m.body 0 4) (leAt m.body 4 1) = []) :
    Replies (.regWrite m) s (s.taken m) m 0x91 [2] :=
  replies_of_respond <| (execRegWrite_awake hs h).trans <| congrArg _ <| by
    rw [if_pos ha, if_neg (by simp [hl]; omega), hb, if_neg Bool.false_ne_true, if_pos hr]

end

section
variable {s : State} {m : MgtMsg} {a : RegAt} (h : Serves s m 0x11) (hauth : s.authorised m = true) (hl : m.body.length = 13)
  (ha : Exactly s (leAt m.body 0 4) (leAt m.body 4 1) a)
include h hauth hl ha

theorem execRegWrite_register {t : State} (ht : (s.taken m).mgtWrite (leAt m.body 0 4) (leAt m.body 5 8) a = t) :
    exec (.regWrite m) s = .next (t.respond m 0x91
      [BitVec.ofNat 8 (if a.r.jobScoped then 3 else if refusedBetween (s.taken m) t then 1 else 0)]) := by
  have hw := ha.width
  rw [execRegWrite_awake ha.awake h, if_pos hauth, if_neg (by simp [hl]; omega), ha.badSpan_eq, if_neg Bool.false_ne_true, ha.regsIn_eq,
    if_neg (by simp)]
  simp only [List.foldl_cons, List.foldl_nil, ht, List.any_cons, List.any_nil, Bool.or_false]

theorem regWrite_jobScoped (hj : a.r.jobScoped = true) : ∃ u, Logged s u ∧ Replies (.regWrite m) s u m 0x91 [3] :=
  ⟨_, logged_refuse (s.taken m) _ _, replies_of_respond <|
    (execRegWrite_register h hauth hl ha ((s.taken m).mgtWrite_jobScoped _ _ hj)).trans (by rw [if_pos hj]; rfl)⟩

theorem regWrite_set (hj : a.r.jobScoped = false) (hreach : s.reachable a = true) {k : Nat} (hk : a.r.rwMask = some k) :
    ∃ u, WroteReg s u a (leAt m.body 5 8 % 2 ^ (8 * leAt m.body 4 1) &&& k) ∧ Replies (.regWrite m) s u m 0x91 [0] := by
  have ha' : Exactly (s.taken m) (leAt m.body 0 4) (leAt m.body 4 1) a := ha
  have hw := State.mgtWrite_reachable (s := s.taken m) (leAt m.body 0 4) (leAt m.body 5 8) hj hreach
  have hnot : refusedBetween (s.taken m) ((s.taken m).wreg a (a.part (leAt m.body 0 4) (leAt m.body 5 8))) = false := by
    simp [refusedBetween, (s.taken m).wreg_mgt_of_rwMask hk]
  refine ⟨_, ha'.wroteReg hk _, replies_of_respond ((execRegWrite_register h hauth hl ha hw).trans ?_)⟩
  rw [hnot, hj]
  rfl

end

section
variable {s : State} {m : MgtMsg} (h : Serves s m 0x40)
include h

theorem recGet_illFormed (hl : m.body.length ≠ 5 ∨ leAt m.body 4 1 = 0 ∨ 16 < leAt m.body 4 1) :
    Replies (.recGet m) s (s.taken m) m 0xFF [6] :=
  replies_of_respond <| (execRecGet_eq h).trans <| congrArg _ <| if_pos (by simpa [or_assoc] using hl)

variable (hl : m.body.length = 5) (h1 : 1 ≤ leAt m.body 4 1) (h16 : leAt m.body 4 1 ≤ 16)
include hl h1 h16

theorem recGet_plain (hp : m.src.path ≠ .i3c) : Replies (.recGet m) s (s.taken m) m 0xC0
    (((s.records.filter fun r => leAt m.body 0 4 ≤ r.rseq).take (leAt m.body 4 1)).map Record.bytes).flatten :=
  replies_of_respond <| (execRecGet_eq h).trans <| congrArg _ <| by
    rw [if_neg (by simp [hl]; omega)]
    simp only [if_neg hp]

/-- A record read over I3C is marked as read. -/
theorem recGet_i3c (hp : m.src.path = .i3c) :
    let rs := (s.records.filter fun r => leAt m.body 0 4 ≤ r.rseq).take (leAt m.body 4 1)
    ∃ u, Replies (.recGet m) s u m 0xC0 (rs.map Record.bytes).flatten ∧ u = { s.taken m with records := u.records }
      ∧ u.records = s.records.map fun r => if r ∈ rs then { r with i3c := true } else r := by
  intro rs
  refine ⟨{ s.taken m with records := s.records.map fun r => if rs.contains r then { r with i3c := true } else r },
    replies_of_respond <| (execRecGet_eq h).trans <| congrArg _ ?_, rfl, ?_⟩
  · rw [if_neg (by simp [hl]; omega)]
    simp only [if_pos hp]
    rfl
  · simp only [List.contains_iff_mem]

end

section
variable {s : State} {m : MgtMsg} (h : Serves s m 0x41)
include h

theorem recAck_illFormed (hl : m.body.length ≠ 4) : Replies (.recAck m) s (s.taken m) m 0xFF [6] :=
  replies_of_respond <| (execRecAck_eq h).trans <| congrArg _ <| if_pos hl

theorem recAck_ignored (hl : m.body.length = 4) (hu : leAt m.body 0 4 < s.rn .RACK 0 0) : Replies (.recAck m) s (s.taken m) m 0xC1 [0] :=
  replies_of_respond <| (execRecAck_eq h).trans <| congrArg _ <| by rw [if_neg (not_not.2 hl), if_pos hu]

/-- Every record up to the number given is acknowledged. -/
theorem recAck_marks (hl : m.body.length = 4) (hu : s.rn .RACK 0 0 ≤ leAt m.body 0 4) :
    ∃ z, Replies (.recAck m) s z m 0xC1 [0] ∧ z.rn .RACK 0 0 = leAt m.body 0 4 ∧ z.mem = s.mem ∧ z.out = s.out
      ∧ z.records = s.records.map fun r => if r.rseq ≤ leAt m.body 0 4 then { r with acked := true } else r := by
  have hlt : leAt m.body 0 4 < 2 ^ 64 := lt_trans (leAt_lt m.body 0 4) (by norm_num)
  refine ⟨_, replies_of_respond <| (execRecAck_eq h).trans <| congrArg _ <| by
    rw [if_neg (not_not.2 hl), if_neg (not_lt.2 hu)], ?_, ?_, ?_, ?_⟩
  · rw [State.rn_wn_same, Nat.mod_eq_of_lt hlt]
  · rw [State.wn_mem]; rfl
  · rw [State.wn_out]; rfl
  · rw [State.wn_records]

end

theorem telemetrySend_sends {s : State} (hon : s.mgtOn = true) (hnet : s.netUp = true) (hp : s.rf .TELEM 0 0 7 0 ≠ 0) :
    exec .telemetrySend s = .next { s with out := .telem s.telemetry :: s.out } := by
  simp [exec, execTelemetrySend, hon, hnet, hp]

theorem telemetrySend_idle {s : State} (h : s.mgtOn = false ∨ s.netUp = false ∨ s.rf .TELEM 0 0 7 0 = 0) :
    exec .telemetrySend s = .next s := by
  rcases h with h | h | h <;> simp [exec, execTelemetrySend, h]

theorem fatalRecordResend_down {s : State} (h : s.netUp = false) : exec .fatalRecordResend s = .next s := by
  simp [exec, execFatalRecordResend, h]

/-- A fatal record that was sent, is not acknowledged and has sendings left (R547). -/
def Record.due (r : Record) : Bool := r.cls = 4 && !r.acked && 1 ≤ r.sent && r.sent < 16

theorem Record.due_iff (r : Record) : r.due = true ↔ r.cls = 4 ∧ r.acked = false ∧ 1 ≤ r.sent ∧ r.sent < 16 := by
  simp [Record.due, and_assoc]

theorem execFatalRecordResend_up {s : State} (h : s.netUp = true) : exec .fatalRecordResend s = .next (s.sendRecords Record.due) := by
  simp only [exec, execFatalRecordResend, h, if_true]
  rfl

/-- The fatal records due are sent once more and counted; the others stay. -/
theorem fatalRecordResend_up {s : State} (hnet : s.netUp = true) :
    let due := fun r : Record => r.cls = 4 ∧ r.acked = false ∧ 1 ≤ r.sent ∧ r.sent < 16
    ∃ t, exec .fatalRecordResend s = .next t ∧ t.mem = s.mem ∧ t.regs = s.regs
      ∧ (∀ (i : Nat) (r : Record), s.records[i]? = some r → (due r → t.records[i]? = some { r with sent := r.sent + 1 } ∧ .record r.rseq ∈ t.out)
          ∧ (¬due r → t.records[i]? = some r))
      ∧ ∀ o, o ∈ t.out → o ∈ s.out ∨ ∃ r ∈ s.records, due r ∧ o = .record r.rseq := by
  refine ⟨_, execFatalRecordResend_up hnet, rfl, rfl, fun i r hr => ⟨fun hd => ⟨?_, ?_⟩, fun hd => ?_⟩, fun o ho => ?_⟩
  · simp [s.sendRecords_records, hr, r.due_iff.2 hd]
  · exact (s.mem_sendRecords_out _ _).2 (.inl ⟨r, List.mem_of_getElem? hr, r.due_iff.2 hd, rfl⟩)
  · simp [s.sendRecords_records, hr, mt r.due_iff.1 hd]
  · rcases (s.mem_sendRecords_out _ o).1 ho with ⟨r, hr, hd, rfl⟩ | ho
    · exact .inr ⟨r, hr, r.due_iff.1 hd, rfl⟩
    · exact .inl ho

end Sys2Proof.Machine
end

section
/-! PROOF. O57. -/

namespace Sys2Proof.Machine

/-- Settles O57: each clause is a case of the equation of its command. -/
theorem registersAndRecords : Obligations.RegistersAndRecords := by
  unfold Obligations.RegistersAndRecords
  refine ⟨?writes, ?commands, ?bar, fun m s h => ⟨execJobInstall_bad h, fun h1 h2 h3 => ⟨_, execJobInstall_held h h1 h2 h3, rfl, rfl⟩⟩,
    ?verify, ?records, ?reads, ?regWrites, ?recGets, ?recAcks, fun m s h => ⟨s.telemetry_length, execTelem_replies h⟩, ?sends, ?clears⟩
  case writes =>
    intro off w v ld a s
    refine ⟨fun h2 h4 h8 => ⟨execRegisterWrite_width _ _ _ v s h2 h4 h8, execRegisterWrite_width _ _ _ v s h2 h4 h8,
      execRegisterWrite_width _ _ _ v s h2 h4 h8⟩, fun h => ⟨fun hj => h.exec_jobScoped hj v, fun hj hr m hm => ?_, fun hj hr => ?_,
      fun hd => h.exec_cxl_denied hd v, fun hu hmay m hm => h.exec_set hm (h.exec_cxl hu hmay v)⟩,
      fun hw hs hb => exec_mgmt_badSpan hw hs hb v, fun hw hb hr => exec_mgmt_none hw hb hr v⟩
    · exact h.exec_set hm ((h.exec_mgmt v).trans (congrArg _ (State.mgtWrite_reachable _ _ hj hr)))
    · rw [h.exec_mgmt, State.mgtWrite_unreachable _ _ hj hr]
  case commands =>
    intro f v s hf hu
    have hshake := exec_hostGo hf hu (r := .SHAKE) (d := 0x30) (by simp [hostCmds]) (fun _ => rfl) v
    have hqclr := exec_hostGo hf hu (r := .QCLR) (d := 0x4C) (by simp [hostCmds]) (fun _ => rfl) v
    refine ⟨exec_hostWord hf hu (r := .QCTL) (d := 0) (by simp [hostCmds]) (g := execQueueEnable f) (fun _ => rfl) v,
      exec_hostWord hf hu (r := .SQTAIL) (d := 0x18) (by simp [hostCmds]) (g := execSqDoorbell f) (fun _ => rfl) v,
      exec_hostWord hf hu (r := .CQHEAD) (d := 0x24) (by simp [hostCmds]) (g := execCqHeadWrite f) (fun _ => rfl) v, fun hg => ?_, fun hg => ?_, fun hg => ?_,
      exec_hostWord hf hu (r := .TBAR) (d := 0x6010) (by simp [hostCmds]) (g := execTbarWrite f) (fun _ => rfl) v, exec_hostJob s hf v⟩
    · exact hshake.trans (by rw [if_pos hg]; rfl)
    · exact hshake.trans (by rw [hg]; rfl)
    · exact hqclr.trans (by rw [if_pos hg]; rfl)
  case bar =>
    intro ld off w v s hw
    refine ⟨fun o ho => ⟨exec_bar_flk v hw ho, s.barRead_flk ho w, fun hno => by rw [s.barRead_flk ho, s.readRegs_none hno]⟩,
      fun hu h => exec_bar_held v hw hu h, fun vec hu hv ho hw4 => ?_, fun h h' => ⟨exec_bar_elsewhere v hw h h', ?_⟩⟩
    · subst ho hw4
      exact exec_bar_msix v hu hv
    · exact s.barRead_elsewhere (by omega) h h'
  case verify =>
    intro s
    refine ⟨execJobInstallVerify_idle, execJobInstallWrite_idle, fun e rest hi hok => ⟨fun hg => ?_, fun hg => ?_⟩⟩
    · exact jobInstallVerify_good hi hok ((s.installBad_none e.msg).2 hg)
    · exact jobInstallVerify_bad hi hok (mt (s.installBad_none e.msg).1 hg)
  case records =>
    intro s e rest a hi hok b k nw v h
    exact ⟨fun m hj hm => jobInstallWrite_applied hi hok h hj hm, jobInstallWrite_skipped hi hok h⟩
  case reads =>
    exact fun m s h => ⟨execRegRead_waits, fun hs => ⟨regRead_illFormed h hs, regRead_badSpan h hs, regRead_none h hs,
      fun a hl ha hr hp => regRead_register h hl ha hr hp⟩⟩
  case regWrites =>
    exact fun m s h hs => ⟨regWrite_unauthorised h hs, regWrite_illFormed h hs, regWrite_none h hs, fun a hauth hl ha =>
      ⟨regWrite_jobScoped h hauth hl ha, fun hj hr k hk => regWrite_set h hauth hl ha hj hr hk⟩⟩
  case recGets =>
    exact fun m s h => ⟨recGet_illFormed h, fun hl h1 h16 => ⟨fun r _ => r.bytes_length, recGet_plain h hl h1 h16, recGet_i3c h hl h1 h16⟩⟩
  case recAcks => exact fun m s h => ⟨recAck_illFormed h, recAck_ignored h, recAck_marks h⟩
  case sends => exact fun s => ⟨telemetrySend_sends, telemetrySend_idle, fatalRecordResend_down, fatalRecordResend_up⟩
  case clears =>
    exact fun s => ⟨⟨_, rfl, rfl, s.rn_wn_same .RDROP 0 0 0, fun r i j _ _ hr => s.rn_wn_other hr 0 0 0 i j⟩,
      ⟨_, rfl, rfl, fun g => s.rn_zeroAll_same .CCCORR g 0, fun r i j hr => s.rn_zeroAll_other hr i j⟩,
      ⟨_, rfl, rfl, fun g => s.rn_zeroAll_same .LSCORR g 0, fun r i j hr => s.rn_zeroAll_other hr i j⟩⟩

end Sys2Proof.Machine
end

section
/-! PROOF. What every command keeps: the relation `Keeps`, and its rules for the forms an operation is written in. -/

-- Here and below one proof is elaborated at a time, so that the check stays within its memory.
set_option Elab.async false

namespace Sys2Proof.Machine

/-- From `s` to `t` the queue of commands is the same, and the invariant, if `s` has it, holds of `t`. The two parts of `Inv` are
written out, so that a record update of other fields of `t` keeps the relation by definition. -/
def Keeps (s t : State) : Prop := t.pending = s.pending ∧ (Inv s → Memory.wf t.mem ∧ t.fab.ports.length = 16)

/-- The outcome is a next state, and `Keeps` leads to it. -/
def Goes (s : State) (o : Host.Outcome State Fault Refusal) : Prop := ∃ t, o = .next t ∧ Keeps s t

theorem length_modAt {α : Type} (f : α → α) (n : Nat) (l : List α) : (modAt f n l).length = l.length := by
  induction l generalizing n with
  | nil => cases n <;> rfl
  | cons x l ih =>
    cases n with
    | zero => rfl
    | succ n => simp [modAt, ih]

section
variable {a s t : State}

theorem Keeps.refl (s : State) : Keeps s s := ⟨rfl, fun i => ⟨i.mem, i.ports⟩⟩

theorem Keeps.inv (h : Keeps s t) (i : Inv s) : Inv t := ⟨(h.2 i).1, (h.2 i).2⟩

theorem Goes.next (h : Keeps a t) : Goes a (.next t) := ⟨t, rfl, h⟩

/-! ### Updates of the state's fields -/

/-- Any fields but the queue, memory and the fabric may change. -/
theorem Keeps.upd {regs pois pat cores m reqs resps notices records ldlog msix msixEn pba policy cfg bar cxlHeld out nextId down freeCtr
    acnt ladle runner vote queue saved quarDue stby pins mgt pwr} (h : Keeps a s) :
    Keeps a ⟨s.pending, regs, s.mem, pois, pat, cores, m, s.fab, reqs, resps, notices, records, ldlog, msix, msixEn, pba, policy, cfg, bar,
      cxlHeld, out, nextId, down, freeCtr, acnt, ladle, runner, vote, queue, saved, quarDue, stby, pins, mgt, pwr⟩ := h

/-- Those of the fabric too, but its ports. -/
theorem Keeps.updFab {regs pois pat cores m reqs resps notices records ldlog msix msixEn pba policy cfg bar cxlHeld out nextId down freeCtr
    acnt ladle runner vote queue saved quarDue stby pins mgt pwr seq outs floorDue base seen floorIn store land slots gens}
    (h : Keeps a s) :
    Keeps a ⟨s.pending, regs, s.mem, pois, pat, cores, m,
      ⟨s.fab.ports, seq, outs, floorDue, base, seen, floorIn, store, land, slots, gens⟩, reqs, resps, notices, records, ldlog, msix, msixEn,
      pba, policy, cfg, bar, cxlHeld, out, nextId, down, freeCtr, acnt, ladle, runner, vote, queue, saved, quarDue, stby, pins, mgt,
      pwr⟩ := h

/-- Memory and ports may change where their part of the invariant is kept. -/
theorem Keeps.of_parts (h : Keeps a s) (hq : t.pending = s.pending) (hm : Memory.wf s.mem → Memory.wf t.mem)
    (hp : t.fab.ports.length = s.fab.ports.length) : Keeps a t :=
  ⟨hq.trans h.1, fun i => ⟨hm (h.2 i).1, hp.trans (h.2 i).2⟩⟩

/-- Memory put back as it was in another state kept. -/
theorem Keeps.memOf {u : State} (h : Keeps a s) (hu : Keeps a u) : Keeps a { s with mem := u.mem } :=
  ⟨h.1, fun i => ⟨(hu.2 i).1, (h.2 i).2⟩⟩

/-! ### Branches -/

theorem Keeps.ite {c : Prop} [Decidable c] (hs : Keeps a s) (ht : Keeps a t) : Keeps a (if c then s else t) := by
  split
  · exact hs
  · exact ht

/-- A further change made on a condition. -/
theorem Keeps.when {c : Prop} [Decidable c] (hs : Keeps a s) (ht : Keeps a s → Keeps a t) : Keeps a (if c then t else s) :=
  .ite (ht hs) hs

/-- A further change made but on a condition. -/
theorem Keeps.unless {c : Prop} [Decidable c] (hs : Keeps a s) (ht : Keeps a s → Keeps a t) : Keeps a (if c then s else t) :=
  .ite hs (ht hs)

/-- Two ways on from one state. -/
theorem Keeps.iteOf {u : State} {c : Prop} [Decidable c] (hs : Keeps a u → Keeps a s) (ht : Keeps a u → Keeps a t) (h : Keeps a u) :
    Keeps a (if c then s else t) :=
  .ite (hs h) (ht h)

theorem Keeps.iteSnd {α : Type} {p q : α × State} {c : Prop} [Decidable c] (hp : Keeps a p.2) (hq : Keeps a q.2) :
    Keeps a (if c then p else q).2 := by
  split
  · exact hp
  · exact hq

theorem Keeps.of_eq {α : Type} {p : α × State} {x : α} (h : Keeps a p.2) (e : p = (x, t)) : Keeps a t := by
  rwa [e] at h

/-! ### Loops -/

/-- A loop whose accumulator holds the state at `st`. -/
theorem Keeps.foldlBy {α β : Type} {f : β → α → β} {l : List α} {b : β} (st : β → State) (h : Keeps a (st b))
    (hf : ∀ {b : β}, Keeps a (st b) → ∀ x, Keeps a (st (f b x))) : Keeps a (st (l.foldl f b)) := by
  induction l generalizing b with
  | nil => exact h
  | cons x l ih => exact ih (hf h x)

theorem Keeps.foldl {α : Type} {f : State → α → State} {l : List α} (h : Keeps a s)
    (hf : ∀ {s}, Keeps a s → ∀ x, Keeps a (f s x)) : Keeps a (l.foldl f s) :=
  .foldlBy id h hf

theorem Keeps.foldlSnd {α β : Type} {f : β × State → α → β × State} {l : List α} {p : β × State} (h : Keeps a p.2)
    (hf : ∀ {p : β × State}, Keeps a p.2 → ∀ x, Keeps a (f p x).2) : Keeps a (l.foldl f p).2 :=
  .foldlBy Prod.snd h hf

end

end Sys2Proof.Machine
end

section
/-! PROOF. What every command keeps: registers, memory, error records, notices and atomics. -/

set_option Elab.async false

namespace Sys2Proof.Machine

section
variable {a s t : State}

theorem Keeps.wr {r i j v} (h : Keeps a s) : Keeps a (s.wr r i j v) := h.upd
theorem Keeps.wn {r i j v} (h : Keeps a s) : Keeps a (s.wn r i j v) := h.wr
theorem Keeps.wf {r i j hi lo v} (h : Keeps a s) : Keeps a (s.wf r i j hi lo v) := h.wn
theorem Keeps.addSat {r i j w n} (h : Keeps a s) : Keeps a (s.addSat r i j w n) := h.wn
theorem Keeps.addWrap {r i j n} (h : Keeps a s) : Keeps a (s.addWrap r i j n) := h.wr
theorem Keeps.addFld {r i j hi lo n} (h : Keeps a s) : Keeps a (s.addFld r i j hi lo n) := h.wf
theorem Keeps.freeB (h : Keeps a s) : Keeps a (s.freeB).2 := h.upd
theorem Keeps.freeN {n} (h : Keeps a s) : Keeps a (s.freeN n).2 := h.upd
theorem Keeps.setCore {g c} (h : Keeps a s) : Keeps a (s.setCore g c) := h.upd
theorem Keeps.modCore {g f} (h : Keeps a s) : Keeps a (s.modCore g f) := h.setCore
theorem Keeps.modGroup {x f} (h : Keeps a s) : Keeps a (s.modGroup x f) := h.modCore
theorem Keeps.put {o mask bs} (h : Keeps a s) : Keeps a (s.put o mask bs) := h.of_parts rfl (fun w => putBytes_wf w _ _ _) rfl
theorem Keeps.poison {o n} (h : Keeps a s) : Keeps a (s.poison o n) := h.upd
theorem Keeps.clean {o n mask} (h : Keeps a s) : Keeps a (s.clean o n mask) := h.upd

theorem Keeps.lsBytes {g o n} (h : Keeps a s) : Keeps a (s.lsBytes g o n).2 :=
  .iteSnd h (.foldlSnd h fun h1 _ => .iteSnd (h1.freeN (n := 8)) h1)

theorem Keeps.seen {o n} (h : Keeps a s) : Keeps a (s.seen o n).2 := by
  unfold State.seen
  split
  · exact h.lsBytes
  · exact h

theorem Keeps.keep {r} (h : Keeps a s) : Keeps a (s.keep r) :=
  .ite h.upd (by
    split
    · exact h.upd
    · exact h.addSat)

theorem Keeps.raiseVec {ld v} (h : Keeps a s) : Keeps a (s.raiseVec ld v) := .ite h.upd h.upd
theorem Keeps.logTo {f cls rseq} (h : Keeps a s) : Keeps a (s.logTo f cls rseq) := .ite h.upd.raiseVec h.upd

theorem Keeps.record {cls code src inst flask d0 d1 d2} (h : Keeps a s) : Keeps a (s.record cls code src inst flask d0 d1 d2) := by
  unfold State.record
  dsimp only
  split
  · exact .logTo (.wn (.keep (.ite h.upd h)))
  · exact .wn (.keep (.ite h.upd h))

theorem Keeps.corr {r i j src inst kind} (h : Keeps a s) : Keeps a (s.corr r i j src inst kind) := .ite h.addSat.record h.addSat
theorem Keeps.refuse {off v} (h : Keeps a s) : Keeps a (s.refuse off v) := h.upd.record
theorem Keeps.refuseCmd {code why} (h : Keeps a s) : Keeps a (s.refuseCmd code why) := h.upd.record
theorem Keeps.notify {n} (h : Keeps a s) : Keeps a (s.notify n) := h.upd
theorem Keeps.stepEvent {f flag} (h : Keeps a s) : Keeps a (s.stepEvent f flag) := h.notify
theorem Keeps.poisEvent {f p} (h : Keeps a s) : Keeps a (s.poisEvent f p) := .ite h.stepEvent h

theorem Keeps.scrubWord {w} (h : Keeps a s) : Keeps a (s.scrubWord w) := by
  unfold State.scrubWord
  split
  · exact h
  · exact .ite h.upd.corr h.upd.poison.record

theorem Keeps.scrub {o n} (h : Keeps a s) : Keeps a (s.scrub o n) := .ite h (.foldl h fun h1 _ => h1.scrubWord)

theorem Keeps.lsWrite {o mask bs pois} (h : Keeps a s) : Keeps a (s.lsWrite o mask bs pois) :=
  .ite (.upd (.put (.ite h (.foldl h fun h1 _ => .ite h1.upd h1.scrubWord)))) (.upd (.put (.ite h (.foldl h
    fun h1 _ => .ite h1.upd h1.scrubWord))))

theorem Keeps.digest {f off size op recs pois} (h : Keeps a s) : Keeps a (s.digest f off size op recs pois) :=
  .ite (by
    split
    · exact h
    · exact .ite h.wr.wf.stepEvent h.wr) h

theorem Keeps.snapOne {m f} (h : Keeps a s) : Keeps a (s.snapOne m f) := h.wr.wn.wf.wf
theorem Keeps.sealCheck {off} (h : Keeps a s) : Keeps a (s.sealCheck off) := .ite (.ite h.stepEvent h) h
theorem Keeps.overtake {line} (h : Keeps a s) : Keeps a (s.overtake line) := h.upd

theorem Keeps.pocWrite {f off mask bs pois} (h : Keeps a s) : Keeps a (s.pocWrite f off mask bs pois) :=
  .ite (.ite h.digest.sealCheck.put.overtake.poison h.digest.sealCheck.put.overtake.clean) h.lsWrite

theorem Keeps.pocRead {off n} (h : Keeps a s) : Keeps a (s.pocRead off n).2.2 := h.scrub.seen

theorem Keeps.pocAtom {f off sz aop ops pois} (h : Keeps a s) : Keeps a (s.pocAtom f off sz aop ops pois).2.2 :=
  .ite (.ite h.pocRead.digest.sealCheck.put.overtake.poison h.pocRead.digest.sealCheck.put.overtake) h.pocRead.digest.sealCheck.lsWrite

theorem Keeps.pocBar {f off aop n} (h : Keeps a s) : Keeps a (s.pocBar f off aop n).2.2.2 :=
  .ite h.pocRead.digest.sealCheck.put.overtake h.pocRead.digest.sealCheck.lsWrite

end

end Sys2Proof.Machine
end

section
/-! PROOF. What every command keeps: the instructions of a core and its matrix array. -/

set_option Elab.async false

namespace Sys2Proof.Machine

section
variable {a s t : State}

theorem Keeps.raise {x cause pc addr} (h : Keeps a s) : Keeps a (s.raise x cause pc addr) := h.modCore.notify

theorem Keeps.countIssue {x} (h : Keeps a s) : Keeps a (s.countIssue x) :=
  .ite (.ite (.ite h.addWrap.wn h.addWrap.wf) h.addWrap.wf) h.addWrap

theorem Keeps.retire {x} (h : Keeps a s) : Keeps a (s.retire x) := h.countIssue.modCore.modGroup
theorem Keeps.fetched {x pc} (h : Keeps a s) : Keeps a (s.fetched x pc) := h.scrub.poisEvent

theorem Keeps.present {x held chk eff} (h : Keeps a s) (hf : ∀ {s y}, Keeps a s → Keeps a (eff s y)) :
    Keeps a (present x held chk eff s) := by
  unfold Machine.present
  split
  · exact h
  · exact .ite h (.ite (.ite h h.raise) (.ite h (by
      split
      · exact h.fetched.countIssue.raise
      · exact hf h.fetched.retire)))

theorem Keeps.presentReg {x regs chk eff} (h : Keeps a s) (hf : ∀ {s y}, Keeps a s → Keeps a (eff s y)) :
    Keeps a (presentReg x regs chk eff s) :=
  h.present fun h1 => hf h1

theorem Keeps.presentMem {x regs chk eff} (h : Keeps a s) (hf : ∀ {s y}, Keeps a s → Keeps a (eff s y)) :
    Keeps a (presentMem x regs chk eff s) :=
  h.present fun h1 => hf h1

theorem Keeps.regEff {x f p} (h : Keeps a s) : Keeps a (s.regEff x f p) := h.modGroup.poisEvent
theorem Keeps.uniform {x q f w} (h : Keeps a s) : Keeps a (uniform x q f w s) := h.presentReg fun h1 => h1.regEff
theorem Keeps.uniform2 {x f w} (h : Keeps a s) : Keeps a (uniform2 x f w s) := h.uniform

theorem Keeps.branch {x regs ok c p w} (h : Keeps a s) : Keeps a (branch x regs ok c p w s) :=
  h.presentReg fun h1 => .poisEvent (.ite h1.modGroup h1)

theorem Keeps.send {mk} (h : Keeps a s) : Keeps a (s.send mk) := h.upd
theorem Keeps.taint {g line} (h : Keeps a s) : Keeps a (s.taint g line) := h.updFab
theorem Keeps.atomicLine {g o} (h : Keeps a s) : Keeps a (s.atomicLine g o) := h.modCore.taint
theorem Keeps.departures {x gr} (h : Keeps a s) : Keeps a (s.departures x gr) := .foldl h fun h1 _ => h1.atomicLine.send.modCore
theorem Keeps.endGroup {x} (h : Keeps a s) : Keeps a (s.endGroup x) := .when (.ite h.modCore.wf h.modCore) fun h1 => .ite h1.wn h1
theorem Keeps.acquireAt {x scp} (h : Keeps a s) : Keeps a (s.acquireAt x scp) := .ite h.modCore.taint h

theorem Keeps.loadLine {x proto acq line} (h : Keeps a s) : Keeps a (s.loadLine x proto acq line) :=
  .ite (.poisEvent (.modGroup (.lsBytes (.foldl h fun h1 _ => h1.scrub)))) (.ite (by
    split
    · exact .iteOf (fun h1 => h1.modCore.send.modGroup) (fun h1 => h1.modCore.modGroup.poisEvent) (.foldl h fun h1 _ => h1.upd.corr)
    · exact h.send.modGroup) h.send.modGroup)

theorem Keeps.loadAll {x proto acq} (h : Keeps a s) : Keeps a (s.loadAll x proto acq) :=
  .foldl (.ite h.acquireAt h) fun h1 _ => h1.loadLine

theorem Keeps.load {x conv w} (h : Keeps a s) : Keeps a (load x conv w s) := h.present fun h1 => h1.loadAll.poisEvent

theorem Keeps.storeLine {x proto es line} (h : Keeps a s) : Keeps a (s.storeLine x proto es line) :=
  .ite h.modCore.taint.pocWrite h.modCore.taint.send.modGroup

theorem Keeps.atomAddr {x proto acq o es} (h : Keeps a s) : Keeps a (s.atomAddr x proto acq o es) :=
  .ite (.poisEvent (.ite h.atomicLine.pocAtom.modGroup h.atomicLine.pocAtom)) h.atomicLine.send.modGroup

theorem Keeps.countGroup {g sl p} (h : Keeps a s) : Keeps a (s.countGroup g sl p) := h.wn.addSat

theorem Keeps.countCast {g sl c} (h : Keeps a s) : Keeps a (s.countCast g sl c) :=
  .foldl h.addSat.addSat.addSat fun h1 _ => h1.countGroup

theorem Keeps.clearSlot {g sl} (h : Keeps a s) : Keeps a (s.clearSlot g sl) := .foldl h.wn.wn.wn.wn fun h1 _ => h1.wn
theorem Keeps.getBlock {g c mb sb} (h : Keeps a s) : Keeps a (s.getBlock g c mb sb).2.2.2 := h.scrub.scrub.lsBytes.lsBytes
theorem Keeps.elemScrub {g c d on} (h : Keeps a s) : Keeps a (s.elemScrub g c d on) := .foldl h fun h1 _ => h1.scrub.scrub
theorem Keeps.getDesc {g c d b on} (h : Keeps a s) : Keeps a (s.getDesc g c d b on).2 := .iteSnd h h.lsBytes.lsBytes

theorem Keeps.putBlock {g m mb sb scale field p} (h : Keeps a s) : Keeps a (s.putBlock g m mb sb scale field p) :=
  h.lsWrite.lsWrite

theorem Keeps.putDesc {g m d b scale field p} (h : Keeps a s) : Keeps a (s.putDesc g m d b scale field p) := h.putBlock
theorem Keeps.castBlock {g sl m key d b xs} (h : Keeps a s) : Keeps a (s.castBlock g sl m key d b xs) := h.countCast.putDesc
theorem Keeps.freshen {g m d k} (h : Keeps a s) : Keeps a (s.freshen g m d k) := h.modCore

theorem Goes.execCastm {x w} (h : Keeps a s) : Goes a (execCastm x w s) :=
  .next (h.presentReg fun h1 => .poisEvent (.freshen (.foldl (.foldlSnd h1.elemScrub fun h2 _ => h2.getDesc)
    fun h2 _ => .ite h2.putDesc h2.castBlock)))

theorem Keeps.matrix {x ok port regs dec p n} (h : Keeps a s) : Keeps a (matrix x ok port regs dec p n s) :=
  h.present fun h1 => h1.modCore.poisEvent

theorem Keeps.operandMem {g q} (h : Keeps a s) : Keeps a (s.operandMem g q) :=
  .foldl h fun h1 _ => .ite (h1.freeB.of_parts rfl (fun w => Sparse.wf_set w _ _) rfl) h1.freeB

theorem Keeps.readBlocks {g fmt mb sb ks} (h : Keeps a s) : Keeps a (s.readBlocks g fmt mb sb ks).2 :=
  .foldlSnd h fun h1 _ => h1.getBlock

theorem Keeps.occupy {g port st n} (h : Keeps a s) : Keeps a (s.occupy g port st n) := h.modCore

theorem Goes.execMloadGrant {g} (h : Keeps a s) : Goes a (execMloadGrant g s) :=
  .next (by
    split
    · split
      · exact (h.operandMem.readBlocks.memOf h).modCore.addSat.occupy.poisEvent
      · exact h
    · exact h)

theorem Keeps.withMem {u : State} (h : Keeps a s) (hu : Keeps a u) : Keeps a (State.withMem u.mem s) := h.memOf hu

theorem Keeps.streamVectors {g q p trans fmt m eb pair lam tix start mb sb vs} (h : Keeps a s) :
    Keeps a (s.streamVectors g q p trans fmt m eb pair lam tix start mb sb vs) :=
  .withMem (.foldl h.modCore.occupy.operandMem fun h1 _ => h1.readBlocks.modCore.addWrap.addWrap.poisEvent) h

theorem Keeps.streamGrant {g k} (h : Keeps a s) : Keeps a (streamGrant g k s) := by
  induction k generalizing s with
  | zero => exact h
  | succ k ih =>
    unfold Machine.streamGrant
    split
    · split
      · exact .ite (ih h.modCore.raise) h.streamVectors
      · exact h
    · exact h

theorem Keeps.readEdge {g col ent} (h : Keeps a s) : Keeps a (s.readEdge g col ent).2.2 := by
  unfold State.readEdge
  dsimp only
  split
  · exact h
  · exact .ite h.upd.addFld h.upd.modCore.addFld.record

theorem Keeps.writeEdge {g col ent v p} (h : Keeps a s) : Keeps a (s.writeEdge g col ent v p) := h.upd.modCore

theorem Keeps.pairwise {g col d k l v p} (h : Keeps a s) : Keeps a (s.pairwise g col d k l v p) := by
  induction k generalizing s l v p with
  | zero => exact h.writeEdge
  | succ k ih => exact .ite (ih h.readEdge) h.writeEdge

theorem Keeps.landCol {g col d} (h : Keeps a s) : Keeps a (s.landCol g col d) :=
  .ite h.pairwise (.ite h.writeEdge h.readEdge.writeEdge)

theorem Goes.execEdgeLanding {g} (h : Keeps a s) : Goes a (execEdgeLanding g s) :=
  .next (by
    split
    · exact h
    · exact .foldl h.modCore fun h1 _ => h1.landCol)

theorem Keeps.drainSum {g eb m pair lam tiles r col} (h : Keeps a s) : Keeps a (s.drainSum g eb m pair lam tiles r col).2.2 := by
  unfold State.drainSum
  split
  · exact h
  · exact .foldlBy (fun b : Option Wide × Bool × State => b.2.2) h fun h1 _ => h1.readEdge

theorem Keeps.epOperand {g epf o} (h : Keeps a s) : Keeps a (s.epOperand g epf o).2.2 := h.scrub

theorem Keeps.drainOut {g eb m pair lam tiles epi epf eps epb ers r c} (h : Keeps a s) :
    Keeps a (s.drainOut g eb m pair lam tiles epi epf eps epb ers r c).2.2 := by
  unfold State.drainOut
  dsimp only
  split
  · exact h.drainSum
  · exact h.drainSum.epOperand

theorem Keeps.drainRow {g eb m pair lam tiles epi epf eps epb ers nw r} (h : Keeps a s) :
    Keeps a (s.drainRow g eb m pair lam tiles epi epf eps epb ers nw r).2 :=
  .foldlSnd h fun h1 _ => .iteSnd h1.drainOut h1.drainSum

theorem Keeps.drainWrite {g dfmt slot db dsb drs js seed step jb cfg tid r row} (h : Keeps a s) :
    Keeps a (s.drainWrite g dfmt slot db dsb drs js seed step jb cfg tid r row) :=
  .ite (.foldl h fun h1 _ => h1.lsWrite) (.ite (.foldl h fun h1 _ => h1.lsWrite) (.foldl h fun h1 _ => h1.countCast.putBlock))

theorem Keeps.drainCount {g dfmt slot seed step jb cfg tid xs} (h : Keeps a s) :
    Keeps a (s.drainCount g dfmt slot seed step jb cfg tid xs) :=
  .ite h.countCast h

theorem Goes.execMdrainGrant {g} (h : Keeps a s) : Goes a (execMdrainGrant g s) :=
  .next (by
    split
    · split
      · exact .drainCount (.foldlSnd h.modCore.occupy fun h1 _ => h1.drainRow.drainWrite.poisEvent)
      · exact h
    · exact h)

theorem Keeps.zeroArray {g} (h : Keeps a s) : Keeps a (s.zeroArray g) := h.upd.modCore
theorem Goes.execMxclrGate {g} (h : Keeps a s) : Goes a (execMxclrGate g s) := .next h.wn
theorem Goes.execMxclrVec {g} (h : Keeps a s) : Goes a (execMxclrVec g s) := .next h.wn
theorem Goes.execMxclrEdge {g} (h : Keeps a s) : Goes a (execMxclrEdge g s) := .next h.wn
theorem Goes.execMxclrAln {g} (h : Keeps a s) : Goes a (execMxclrAln g s) := .next h.wn
theorem Goes.execRcclrClear {g slot} (h : Keeps a s) : Goes a (execRcclrClear g slot s) := .next h.clearSlot
theorem Goes.execExclrAtom {g} (h : Keeps a s) : Goes a (execExclrAtom g s) := .next h.wn
theorem Keeps.clearIssue {g} (h : Keeps a s) : Keeps a (s.clearIssue g) := .foldl h fun h1 _ => h1.wn
theorem Goes.execExclrIssue {g} (h : Keeps a s) : Goes a (execExclrIssue g s) := .next h.clearIssue
theorem Goes.execSyncclrPoll {g} (h : Keeps a s) : Goes a (execSyncclrPoll g s) := .next h.wn

end

end Sys2Proof.Machine
end

section
/-! PROOF. What every command keeps: requests, their points of coherence, and what comes back. -/

set_option Elab.async false

namespace Sys2Proof.Machine

section
variable {a s t : State}

theorem Keeps.modPort {p f} (h : Keeps a s) : Keeps a (s.modPort p f) := h.of_parts rfl id (length_modAt f p _)
theorem Keeps.txPush {p flask m} (h : Keeps a s) : Keeps a (s.txPush p flask m) := h.modPort
theorem Keeps.dropMsg {p} (h : Keeps a s) : Keeps a (s.dropMsg p) := h.addSat

theorem Keeps.sendBack {flask off m} (h : Keeps a s) : Keeps a (s.sendBack flask off m) := by
  unfold State.sendBack
  split
  · exact h.txPush
  · exact h

theorem Keeps.complete {q data pw olds status} (h : Keeps a s) : Keeps a (s.complete q data pw olds status) := by
  unfold State.complete
  dsimp only
  split
  · exact .ite (by
      split
      · exact h.updFab.updFab
      · exact h.updFab) h.updFab.sendBack
  · exact h.upd

theorem Keeps.bankPush {line write} (h : Keeps a s) : Keeps a (s.bankPush line write) := h.upd
theorem Keeps.poisUsed {die} (h : Keeps a s) : Keeps a (s.poisUsed die) := h.wf
theorem Keeps.unlist {line} (h : Keeps a s) : Keeps a (s.unlist line) := h.upd.poisUsed
theorem Keeps.dramWrite {line} (h : Keeps a s) : Keeps a (s.dramWrite line) := .ite h.upd h.upd.unlist
theorem Keeps.bankWrite {line} (h : Keeps a s) : Keeps a (s.bankWrite line) := .ite h.dramWrite.upd.wf h.dramWrite
theorem Keeps.bankTake {line write} (h : Keeps a s) : Keeps a (s.bankTake line write) := h.upd
theorem Keeps.flushBank {line} (h : Keeps a s) : Keeps a (s.flushBank line) := .ite h.bankTake.bankWrite h

theorem Keeps.countAccess {c k} (h : Keeps a s) : Keeps a (s.countAccess c k) := by
  unfold State.countAccess
  split
  · exact h
  · exact h.addSat
  · exact .corr (.foldl h fun h1 _ => h1.addSat)
  · exact h.addSat

theorem Keeps.decodeLine {line} (h : Keeps a s) : Keeps a (s.decodeLine line).2 := h.countAccess.countAccess

theorem Keeps.leftover {line skip} (h : Keeps a s) : Keeps a (s.leftover line skip) :=
  .ite h (.foldl (.foldl h fun h1 _ => .ite h1.put h1) fun h1 _ => .ite h1.put h1)

theorem Keeps.llcTouch {die set way} (h : Keeps a s) : Keeps a (s.llcTouch die set way) := h.upd
theorem Keeps.llcDrop {line} (h : Keeps a s) : Keeps a (s.llcDrop line) := h.upd
theorem Keeps.llcDirty {line} (h : Keeps a s) : Keeps a (s.llcDirty line) := h.upd
theorem Keeps.backing {line} (h : Keeps a s) : Keeps a (s.backing line) := .ite h (.ite h.upd (.ite h h.upd.send))
theorem Keeps.listLine {line} (h : Keeps a s) : Keeps a (s.listLine line) := .ite h.upd (.ite h.upd.poisUsed h.upd.wf.record)
theorem Keeps.poisonLine {line flask} (h : Keeps a s) : Keeps a (s.poisonLine line flask) := h.listLine.record.backing

theorem Keeps.sectorCheck {e ks whole} (h : Keeps a s) : Keeps a (s.sectorCheck e ks whole) :=
  .unless (.ite h h.upd) fun h1 => .ite h1.listLine.record.backing h1.llcDrop

theorem Keeps.evict {v} (h : Keeps a s) : Keeps a (s.evict v) := .llcDrop (.ite h.sectorCheck.bankPush h)

theorem Keeps.install {line dirty} (h : Keeps a s) : Keeps a (s.install line dirty) := by
  unfold State.install
  split
  · exact .ite h.llcTouch.llcDirty h.llcTouch
  · exact .llcTouch (.upd (by
      split
      · exact h.evict
      · exact h))

theorem Keeps.scrubPush {line pois} (h : Keeps a s) : Keeps a (s.scrubPush line pois) := .ite h.upd h.addFld
theorem Keeps.standLine {line flask} (h : Keeps a s) : Keeps a (s.standLine line flask) := h.llcDirty.record

theorem Keeps.fetchLine {line flask skip keep} (h : Keeps a s) : Keeps a (s.fetchLine line flask skip keep).2 :=
  .iteSnd (.ite h.decodeLine.standLine h.decodeLine) (.iteSnd (.ite h.decodeLine.leftover.poisonLine.scrubPush
    h.decodeLine.leftover.poisonLine) (.iteSnd (.when (.ite h.decodeLine.leftover.upd h.decodeLine.leftover.upd) fun h1 => h1.scrubPush)
    (.ite h.decodeLine.leftover.upd h.decodeLine.leftover.upd)))

theorem Keeps.landed {q} (h : Keeps a s) : Keeps a (s.landed q) := by
  unfold State.landed
  split
  · exact h.notify
  · exact h

theorem Keeps.applyWrite {q} (h : Keeps a s) : Keeps a (s.applyWrite q) := h.pocWrite.landed

theorem Keeps.pfDone {q} (h : Keeps a s) : Keeps a (s.pfDone q) := by
  unfold State.pfDone
  split
  · exact h.modCore
  · exact h

theorem Keeps.serve {q} (h : Keeps a s) : Keeps a (s.serve q) := by
  unfold State.serve
  dsimp only
  split
  · exact .complete (.seen (.ite h.scrub (.foldl h fun h1 _ => h1.scrub)))
  · exact .complete (.seen (.ite h.scrub (.foldl h fun h1 _ => h1.scrub)))
  · exact .ite h.seen.complete h.pfDone
  · exact h.applyWrite.complete
  · exact h.pocAtom.complete
  · exact h.pocAtom.complete
  · exact h.pocBar.complete
  · exact h.pocBar.complete

theorem Keeps.linkLost {q mayApply} (h : Keeps a s) : Keeps a (s.linkLost q mayApply) := by
  unfold State.linkLost
  dsimp only
  split
  · exact .ite (.ite h.freeB.serve h.freeB) h
  · exact .upd (.ite (.ite h.freeB.serve h.freeB) h)

theorem Keeps.llcHit {e q} (h : Keeps a s) : Keeps a (s.llcHit e q) :=
  .ite h.addSat.llcTouch.serve.llcDrop.bankPush (.ite h.addSat.llcTouch.serve.llcDirty h.addSat.llcTouch.serve)

theorem Keeps.llcMiss {line q} (h : Keeps a s) : Keeps a (s.llcMiss line q) :=
  .ite (.ite h.addSat.serve.bankPush h.addSat.serve.install) (.bankPush (.ite h.addSat.upd.applyWrite h.addSat.upd))

theorem Keeps.llcAccept {q} (h : Keeps a s) (ht : s.llcAccept q = some t) : Keeps a t := by
  unfold State.llcAccept at ht
  extract_lets off line joined checked at ht
  have h1 : Keeps a checked := by
    unfold checked
    split
    · exact h.sectorCheck
    · exact h
  split at ht
  · simp at ht
  · split at ht
    · obtain rfl := Option.some.inj ht
      exact h.upd.addSat
    · split at ht
      · obtain rfl := Option.some.inj ht
        exact h1.llcHit
      · obtain rfl := Option.some.inj ht
        exact h1.llcMiss

theorem Keeps.homeRow {id ks} (h : Keeps a s) : Keeps a (s.homeRow id ks) := by
  unfold State.homeRow
  split
  · exact h
  · refine .ite h (.ite h.upd.linkLost ?_)
    split
    · next e => exact h.upd.llcAccept e
    · exact h

theorem Keeps.coreRow {id ks} (h : Keeps a s) : Keeps a (s.coreRow id ks) := by
  unfold State.coreRow
  split
  · exact h
  · split
    · exact h
    · exact .ite h (.ite h.upd.linkLost h.upd.serve)

theorem Keeps.objectRow {id k} (h : Keeps a s) : Keeps a (s.objectRow id k) := by
  unfold State.objectRow
  split
  · exact h
  · exact .ite h.homeRow h.coreRow

theorem Keeps.slotStart {c slot} (h : Keeps a s) : Keeps a (s.slotStart c slot) := h.upd.wf.wf

theorem Goes.execBankSlot {c slot} (h : Keeps a s) : Goes a (execBankSlot c slot s) :=
  .next (.ite h (by
    dsimp only
    split
    · exact h.slotStart
    · split
      · exact h.slotStart
      · exact .ite h.slotStart.upd.bankWrite h.slotStart.upd))

theorem Keeps.dataAtHome {line} (h : Keeps a s) : Keeps a (s.dataAtHome line) :=
  .iteOf (fun h1 => .ite h1.bankPush h1) (fun h1 => h1.install) (by
    split
    · exact .foldl (.ite h.upd.fetchLine.complete h.upd.fetchLine.serve) fun h1 _ => h1.serve
    · exact h.upd.fetchLine)

theorem Keeps.statusRead {c status shorter} (h : Keeps a s) : Keeps a (s.statusRead c status shorter) :=
  .ite h.upd.wn.record h.upd.wn

theorem Goes.execRefreshSlot {c status shorter} (h : Keeps a s) : Goes a (execRefreshSlot c status shorter s) := by
  refine .next (.ite h ?_)
  extract_lets started n refreshed latched
  have h1 : Keeps a refreshed := h.slotStart.upd
  exact .when (.ite h1.upd h1) fun h2 => h2.statusRead

theorem Keeps.patrolNext {c} (h : Keeps a s) : Keeps a (s.patrolNext c) := .ite h.wf.wf h.wf

theorem Keeps.patrol {c} (h : Keeps a s) : Keeps a (s.patrol c) :=
  .when (.patrolNext (.ite (.ite h.decodeLine.standLine h.decodeLine) (.ite (.ite h.decodeLine.leftover.poisonLine.scrubPush
    h.decodeLine.leftover.poisonLine.install) (.ite h.decodeLine.leftover.upd h.decodeLine.leftover.upd)))) fun h1 => h1.upd.wf

theorem Goes.execScrubSlot {c} (h : Keeps a s) : Goes a (execScrubSlot c s) :=
  .next (.ite h (by
    dsimp only
    split
    · exact .ite h.slotStart.upd.wf h.slotStart.upd.wf.dramWrite.addFld
    · split
      · exact h.slotStart.upd.dramWrite.addFld
      · exact h.slotStart.patrol))

theorem Goes.execDgctlSnap {m mask} (h : Keeps a s) : Goes a (execDgctlSnap m mask s) := .next (.foldl h fun h1 _ => h1.snapOne)
theorem Goes.execMsdClrRest {m} (h : Keeps a s) : Goes a (execMsdClrRest m s) := .next h.wn
theorem Goes.execMsdClrPois {m} (h : Keeps a s) : Goes a (execMsdClrPois m s) := .next h.wf
theorem Goes.execMsdClrLlc {m} (h : Keeps a s) : Goes a (execMsdClrLlc m s) := .next h.wn.wn
theorem Goes.execChnClrPin {c} (h : Keeps a s) : Goes a (execChnClrPin c s) := .next (.foldl h fun h1 _ => h1.wn)
theorem Goes.execChnClrScrub {c} (h : Keeps a s) : Goes a (execChnClrScrub c s) := .next h.wn
theorem Goes.execChnClrRs {c} (h : Keeps a s) : Goes a (execChnClrRs c s) := .next h.wn.wn.wn
theorem Keeps.settleLine {line} (h : Keeps a s) : Keeps a (s.settleLine line) := .ite h.flushBank.bankTake.upd.dataAtHome h

theorem Keeps.engLine {line flask off n write} (h : Keeps a s) : Keeps a (s.engLine line flask off n write) := by
  unfold State.engLine
  extract_lets die whole settled checked hit miss
  have h1 : Keeps a checked := by
    unfold checked
    split
    · exact h.settleLine.sectorCheck
    · exact h.settleLine
  split
  · exact .iteOf (fun h2 => h2.llcDrop.bankPush) (fun h2 => h2.install) h1.addSat
  · exact .iteOf (fun h2 => .ite h2.bankPush h2) (fun h2 => h2.install) (.iteSnd h1.addSat h1.addSat.flushBank.fetchLine)

theorem Keeps.engRead {f off n} (h : Keeps a s) : Keeps a (s.engRead f off n).2.2 :=
  .unless (.ite (.foldl h fun h1 _ => h1.engLine) h) fun h1 => h1.scrub

theorem Keeps.engWriteN {f pois k off bs} (h : Keeps a s) : Keeps a (s.engWriteN f pois k off bs) := by
  induction k generalizing s off bs with
  | zero => exact h
  | succ k ih => exact .ite h (ih (.pocWrite (.ite h.engLine h)))

theorem Keeps.engWrite {f off bs pois} (h : Keeps a s) : Keeps a (s.engWrite f off bs pois) := h.engWriteN

theorem Goes.execBackingRestoreComplete {line} (h : Keeps a s) : Goes a (execBackingRestoreComplete line s) :=
  .next (.ite (.ite h (.ite h.engLine.upd (.record (.addSat (.ite h.engLine.settleLine.put.clean.upd.bankPush
    h.engLine.settleLine.put.clean.upd.install))))) (by
    split
    · exact h
    · exact .ite (.record (.addSat (.ite h.upd.settleLine.put.clean.upd.bankPush h.upd.settleLine.put.clean.upd.install))) h.upd))

theorem Keeps.release {x scp} (h : Keeps a s) : Keeps a (s.release x scp) := h.acquireAt.modGroup
theorem Keeps.endWait {x cause pc addr} (h : Keeps a s) : Keeps a (s.endWait x cause pc addr) := h.modGroup.raise

theorem Keeps.statusFault {x status pc addr} (h : Keeps a s) : Keeps a (s.statusFault x status pc addr) :=
  .ite h.raise (.ite h.raise.stepEvent (.ite h.raise h))

theorem Keeps.pollNext {g o} (h : Keeps a s) : Keeps a (s.pollNext g o) :=
  .ite h (by
    split
    · exact .ite h.endWait h.send.addWrap
    · exact h)

theorem Keeps.pollGroup {q obj pois status gr} (h : Keeps a s) : Keeps a (s.pollGroup q obj pois status gr) := by
  unfold State.pollGroup
  split
  · exact .ite h (.ite h.endWait.poisEvent (.ite h.modGroup.statusFault (.ite h.release (.ite h.modGroup h))))
  · exact h

theorem Goes.execPollReturn {id} (h : Keeps a s) : Goes a (execPollReturn id s) :=
  .next (by
    split
    · exact h
    · dsimp only
      split
      · exact h.upd
      · exact .pollNext (.foldl (by
          split
          · exact .ite h.upd.statusFault h.upd
          · exact h.upd) fun h1 _ => h1.pollGroup))

theorem Goes.execWatchdogFault {x} (h : Keeps a s) : Goes a (execWatchdogFault x s) :=
  .next (by
    split
    · exact h
    · exact .ite (.endWait (.ite h.wn h)) h)

theorem Goes.execDma {x w} (h : Keeps a s) : Goes a (execDma x w s) :=
  .next (h.present fun h1 => by
    dsimp only
    split
    · exact h1.modCore.poisEvent
    · exact h1)

theorem Keeps.setDma {g e d} (h : Keeps a s) : Keeps a (s.setDma g e d) := h.modCore

theorem Goes.execDmaStart {g e} (h : Keeps a s) : Goes a (execDmaStart g e s) :=
  .next (by
    split
    · exact h
    · exact .ite h (.setDma (.foldl (.ite h.updFab h) fun h1 _ => h1.send)))

theorem Keeps.dmaData {g e q data pois} (h : Keeps a s) : Keeps a (s.dmaData g e q data pois) := by
  unfold State.dmaData
  split
  · exact h
  · exact h.send.poisEvent.setDma

theorem Goes.execDmaSignalUpdate {g e} (h : Keeps a s) : Goes a (execDmaSignalUpdate g e s) :=
  .next (by
    split
    · exact h
    · exact .ite h.send.setDma h)

theorem Keeps.settle {g id} (h : Keeps a s) : Keeps a (s.settle g id) := h.modCore.upd
theorem Keeps.takeResp {id} (h : Keeps a s) : Keeps a (s.takeResp id) := h.upd

theorem Goes.execLoadResponse {id} (h : Keeps a s) : Goes a (execLoadResponse id s) :=
  .next (by
    split
    · exact h
    · split
      · exact .ite h (.unless (.when (.settle (.ite h.upd h.takeResp)) fun h1 => h1.statusFault) fun h1 => h1.modGroup.poisEvent)
      · exact .ite (by
          split
          · exact .statusFault (.setDma (by
              split
              · exact .ite h.takeResp.statusFault h.takeResp
              · exact h.takeResp))
          · split
            · exact .ite h.takeResp.statusFault h.takeResp
            · exact h.takeResp) (.dmaData (by
          split
          · exact .ite h.takeResp.statusFault h.takeResp
          · exact h.takeResp))
      · exact h)

theorem Keeps.arrived {x p} (h : Keeps a s) : Keeps a (s.arrived x p) := by
  unfold State.arrived
  split
  · exact h
  · split
    · exact h
    · exact .ite h (.ite h.modGroup.statusFault (.ite (.poisEvent (.endWait (.ite h.statusFault h))) (.ite h.release h.modGroup.pollNext)))

theorem Goes.execAtomResponse {id} (h : Keeps a s) : Goes a (execAtomResponse id s) :=
  .next (by
    split
    · exact h
    · split
      · exact .ite h (.ite h.takeResp.settle.arrived (.ite h.takeResp.settle.statusFault (.poisEvent (.modGroup (.ite
          h.takeResp.settle.statusFault h.takeResp.settle)))))
      · exact h)

theorem Keeps.slotFree {q} (h : Keeps a s) : Keeps a (s.slotFree q) := by
  unfold State.slotFree
  split
  · exact h.updFab
  · exact h

theorem Keeps.ackCore {p} (h : Keeps a s) : Keeps a (s.ackCore p) := by
  unfold State.ackCore
  split
  · exact .ite h (.ite h.takeResp.settle.statusFault (.ite h.takeResp.settle.raise.poisEvent h.takeResp.settle))
  · dsimp only
    split
    · exact h.takeResp.slotFree
    · exact .ite h.takeResp.slotFree.setDma.statusFault (.ite h.takeResp.slotFree.setDma.statusFault (.ite
        h.takeResp.slotFree.setDma.raise.poisEvent h.takeResp.slotFree.setDma))
  · exact h

theorem Keeps.cerrClear {g set way} (h : Keeps a s) : Keeps a (s.cerrClear g set way) := .ite h h.upd
theorem Keeps.fillCore {g line data pois} (h : Keeps a s) : Keeps a (s.fillCore g line data pois) := h.cerrClear.modCore

theorem Goes.execCacheFill {id} (h : Keeps a s) : Goes a (execCacheFill id s) :=
  .next (by
    split
    · exact h
    · split
      · exact h
      · exact .ite h (.iteOf (fun h1 => h1.pfDone) (fun h1 => .ite h1 (.upd (.ite h.fillCore h))) (.takeResp (.ite h.fillCore h))))

theorem Goes.execPrefetchLineRequest {g} (h : Keeps a s) : Goes a (execPrefetchLineRequest g s) :=
  .next (by
    split
    · exact h
    · split
      · exact h
      · exact .modCore (.ite h h.send))

theorem Keeps.setLand {key e} (h : Keeps a s) : Keeps a (s.setLand key e) := by
  unfold State.setLand
  dsimp only
  split
  · exact .ite h.updFab.send h.updFab
  · exact h.updFab

end

end Sys2Proof.Machine
end

section
/-! PROOF. What every command keeps: fabric messages, ladles and runner rings. -/

set_option Elab.async false

namespace Sys2Proof.Machine

section
variable {a s t : State}

theorem Keeps.accept {src seq} (h : Keeps a s) : Keeps a (s.accept src seq) := h.updFab
theorem Keeps.floorIn {src fl} (h : Keeps a s) : Keeps a (s.floorIn src fl) := .ite h h.updFab

theorem Keeps.inject {q} (h : Keeps a s) : Keeps a (s.inject q) := by
  unfold State.inject
  split
  · exact h.setLand
  · exact h.send

theorem Keeps.receive {p m} (h : Keeps a s) : Keeps a (s.receive p m) :=
  .iteOf (fun h1 => .ite h1 (by
    split
    · exact .ite h.floorIn h.floorIn.sendBack
    · exact h.floorIn)) (fun h1 => .ite h1 (by
    dsimp only
    split
    · exact .complete (.ite h.floorIn.accept.addSat h.floorIn.accept)
    · exact h.floorIn.accept.inject)) (.ite h.floorIn.dropMsg h.floorIn)

theorem Keeps.leaveBuf {p m} (h : Keeps a s) : Keeps a (s.leaveBuf p m) := h.modPort
theorem Keeps.requestRow {p m op} (h : Keeps a s) : Keeps a (s.requestRow p m op) := .ite h h.leaveBuf.receive

theorem Goes.execRemoteRequestIntake {id} (h : Keeps a s) : Goes a (execRemoteRequestIntake id s) :=
  .next (by
    split
    · exact h
    · exact .ite h (.ite h.upd.linkLost (.ite h.upd.complete (.ite h.upd.updFab.updFab.receive (by
        split
        · exact h.upd.updFab.complete
        · exact h.upd.updFab.updFab.txPush)))))

theorem Keeps.cmpArrives {m data olds} (h : Keeps a s) : Keeps a (s.cmpArrives m data olds) := by
  unfold State.cmpArrives
  dsimp only
  split
  · exact h.floorIn
  · exact h.floorIn.updFab

theorem Goes.execFloorSend {d} (h : Keeps a s) : Goes a (execFloorSend d s) :=
  .next (.ite h (by
    dsimp only
    split
    · exact h.updFab.txPush
    · exact h.updFab))

theorem Goes.execCopyAgeDiscard {p m} (h : Keeps a s) : Goes a (execCopyAgeDiscard p m s) :=
  .next (.ite h.leaveBuf.dropMsg (by
    split
    · exact h.modPort.dropMsg
    · exact h))

theorem Keeps.loseNode {d} (h : Keeps a s) : Keeps a (s.loseNode d) :=
  .record (.foldl (h.of_parts rfl id (List.length_map _)) fun h1 _ => h1.complete)

theorem Goes.execLnkNodeWrite {v} (h : Keeps a s) : Goes a (execLnkNodeWrite v s) := .next (.ite h.refuse h.wn)

theorem Goes.execJobCommit {f} (h : Keeps a s) : Goes a (execJobCommit f s) :=
  .next (.ite h (.ite h.refuse (.foldl h.wr fun h1 _ => h1.wr.wr.wr)))

theorem Keeps.modLayer {g l f} (h : Keeps a s) : Keeps a (s.modLayer g l f) := h.upd
theorem Keeps.gFlag {i g b} (h : Keeps a s) : Keeps a (s.gFlag i g b) := h.wf.wf
theorem Keeps.gUpdate {g} (h : Keeps a s) : Keeps a (s.gUpdate g) := h.wf.wf
theorem Keeps.engFault {f cause} (h : Keeps a s) : Keeps a (s.engFault f cause) := h.notify

theorem Keeps.sendColl {f i key m} (h : Keeps a s) : Keeps a (s.sendColl f i key m) := by
  unfold State.sendColl
  split
  · exact h.txPush
  · exact h

theorem Keeps.journal {f kind key off data pois} (h : Keeps a s) : Keeps a (s.journal f kind key off data pois) :=
  .ite h (.ite (.ite h.upd.stepEvent h) h.upd.engWrite)

theorem Keeps.returnEdges {i g es} (h : Keeps a s) : Keeps a (s.returnEdges i g es) := .foldl h fun h1 _ => h1.upd
theorem Keeps.clearPend {i g r} (h : Keeps a s) : Keeps a (s.clearPend i g r) := .ite h h.upd
theorem Keeps.raiseObject {i f o} (h : Keeps a s) : Keeps a (s.raiseObject i f o) := .ite h (.ite h.engFault h.send)

theorem Keeps.partCheck {i g layer} (h : Keeps a s) : Keeps a (s.partCheck i g layer) :=
  .ite h (.ite h.modLayer.raiseObject.gUpdate h)

theorem Keeps.finStripe {g layer x} (h : Keeps a s) : Keeps a (s.finStripe g layer x) := h.modLayer.partCheck

theorem Keeps.ownerStripe {g layer x v} (h : Keeps a s) : Keeps a (s.ownerStripe g layer x v) :=
  .gUpdate (.finStripe (.journal (.foldl h fun h1 _ => .iteOf (fun h2 => h2.engWrite) (fun h2 => h2.engFault) (.when (.unless
    (.ite h1 h1.addSat.gFlag) fun h2 => h2.addSat.gFlag) fun h2 => h2.gFlag.stepEvent))))

theorem Keeps.sendChild {hd} (h : Keeps a s) : Keeps a (s.sendChild hd) :=
  .ite h.upd h.upd.returnEdges.clearPend.sendColl.finStripe

theorem Keeps.nodeIn {g layer x k level node v es} (h : Keeps a s) : Keeps a (State.nodeIn g layer x k level node v es s) := by
  induction k generalizing s level node v es with
  | zero => exact h
  | succ k ih =>
    unfold State.nodeIn
    dsimp only
    refine .ite (.ite h.returnEdges.ownerStripe (.ite (ih h.returnEdges) h.sendChild)) ?_
    split
    · exact .ite h.upd.returnEdges.ownerStripe (.ite (ih h.upd.returnEdges) h.upd.sendChild)
    · exact h.upd

theorem Keeps.leafIn {g layer x v} (h : Keeps a s) : Keeps a (s.leafIn g layer x v) :=
  .ite h.ownerStripe (.ite h.nodeIn h.sendChild)

theorem Keeps.readEntry {g l} (h : Keeps a s) : Keeps a (s.readEntry g l) := .ite h (.ite h.engFault h.engRead.poisEvent.modLayer)

theorem Keeps.mark {m f} (h : Keeps a s) (hf : ∀ {x y s}, Keeps a s → Keeps a (f x y s)) : Keeps a (s.mark m f) :=
  .ite h.upd.raise (.gUpdate (hf h.upd.readEntry))

theorem Goes.execLayerReductionStart {i g layer} (h : Keeps a s) : Goes a (execLayerReductionStart i g layer s) :=
  .next (.ite h (.gUpdate (.partCheck (.foldl h.modLayer fun h1 _ => .ite h1.engFault h1.engRead.engRead.poisEvent.leafIn))))

theorem Keeps.creditsBack {i g r cr} (h : Keeps a s) : Keeps a (s.creditsBack i g r cr) :=
  .foldl (.upd (.foldlSnd h fun h1 _ => h1.upd)) fun h1 _ => h1.sendChild

theorem Keeps.takeCredits {i g node cr} (h : Keeps a s) : Keeps a (s.takeCredits i g node cr) :=
  .ite h (by
    split
    · exact h.creditsBack
    · exact h)

theorem Keeps.abandon {i g layer} (h : Keeps a s) : Keeps a (s.abandon i g layer) :=
  .ite h (.gUpdate (.foldl h.upd.modLayer.gFlag.addSat fun h1 _ => h1.sendColl))

theorem Keeps.putEarly {i p m cr} (h : Keeps a s) : Keeps a (s.putEarly i p m cr) := .ite h.upd h.addSat
theorem Keeps.firstCopy {key} (h : Keeps a s) : Keeps a (s.firstCopy key).2 := .iteSnd h h.upd

theorem Keeps.takeChild {m} (h : Keeps a s) : Keeps a (s.takeChild m) :=
  .ite h.firstCopy.addSat (.ite h.firstCopy.addSat h.firstCopy.nodeIn)

theorem Keeps.takeTund {p m f} (h : Keeps a s) : Keeps a (s.takeTund p m f) :=
  .ite h.firstCopy.addSat (.ite h.firstCopy.addSat (by
    split
    · exact h.firstCopy.addSat.gFlag.gUpdate
    · exact .gUpdate (.foldl (.modLayer (.journal (.when (.ite h.firstCopy.engWrite.readEntry h.firstCopy.engWrite)
        fun h1 => h1.gFlag.stepEvent))) fun h1 _ => h1.sendColl)))

theorem Keeps.ladleMsg {p m cr} (h : Keeps a s) : Keeps a (s.ladleMsg p m cr) := by
  unfold State.ladleMsg
  split
  · exact h.dropMsg
  · exact .ite (.ite h.takeCredits.takeTund (.ite (.ite h.takeCredits h.takeCredits.abandon) h.takeCredits.takeChild)) (.ite
      h.putEarly h.addSat)

theorem Keeps.collRow {p m op f} (h : Keeps a s) (hf : ∀ {s}, Keeps a s → Keeps a (f s)) : Keeps a (s.collRow p m op f) :=
  .ite h (hf h.leaveBuf)

theorem Keeps.broadcast {g layer} (h : Keeps a s) : Keeps a (s.broadcast g layer) :=
  .foldl h fun h1 _ => .foldl h1 fun h2 _ => .ite h2.engFault (.foldl h2.engRead.poisEvent fun h3 _ => h3.sendColl)

theorem Goes.execLdlClrChk {i} (h : Keeps a s) : Goes a (execLdlClrChk i s) := .next h.wn
theorem Goes.execLdlClrNf {i} (h : Keeps a s) : Goes a (execLdlClrNf i s) := .next h.wn
theorem Goes.execLdlClrLate {i} (h : Keeps a s) : Goes a (execLdlClrLate i s) := .next h.wn
theorem Goes.execLdlClrDup {i} (h : Keeps a s) : Goes a (execLdlClrDup i s) := .next h.wn
theorem Goes.execLdlClrStale {i} (h : Keeps a s) : Goes a (execLdlClrStale i s) := .next h.wn
theorem Keeps.clearGroup {g} (h : Keeps a s) : Keeps a (s.clearGroup g) := h.upd.wn.wn
theorem Keeps.loadTab {g} (h : Keeps a s) : Keeps a (s.loadTab g) := h.wr
theorem Keeps.joinStep {g f} (h : Keeps a s) : Keeps a (s.joinStep g f) := .ite h.loadTab.wn h.loadTab

theorem Goes.execLdlGcfgWrite {g v} (h : Keeps a s) : Goes a (execLdlGcfgWrite g v s) :=
  .next (.ite h (.ite h.refuse (.ite h.refuseCmd (.ite h.wn.clearGroup.joinStep.gUpdate h.wn.clearGroup))))

theorem Keeps.presentWait {x kind obj regs chk rdy eff} (h : Keeps a s) (hf : ∀ {s y}, Keeps a s → Keeps a (eff s y)) :
    Keeps a (presentWait x kind obj regs chk rdy eff s) := by
  unfold Machine.presentWait
  dsimp only
  split
  · exact h
  · exact .ite h (.ite h.raise (.ite h (by
      split
      · exact h.fetched.countIssue.raise
      · exact .ite (hf h.fetched.retire.modGroup) (.ite h h.fetched.modGroup))))

theorem Keeps.setRing {c r} (h : Keeps a s) : Keeps a (s.setRing c r) := h.upd
theorem Keeps.ctxEntry {f c} (h : Keeps a s) : Keeps a (s.ctxEntry f c).2 := .iteSnd h.engRead.poisEvent h

theorem Keeps.engLineTo {f src dst} (h : Keeps a s) : Keeps a (s.engLineTo f src dst) :=
  .ite h.engFault h.engRead.poisEvent.engWrite

theorem Keeps.startRound {f c ent} (h : Keeps a s) : Keeps a (s.startRound f c ent) :=
  .setRing (.upd (.foldl h fun h1 _ => h1.engLineTo))

theorem Keeps.ringSettle {c} (h : Keeps a s) : Keeps a (s.ringSettle c) := .ite h (.setRing (.foldl h fun h1 _ => h1.sendColl))

theorem Goes.execRnext {x w} (h : Keeps a s) : Goes a (execRnext x w s) :=
  .next (.presentWait (by
    dsimp only
    split
    · exact h
    · refine .ite h ?_
      split
      · next e => exact (h.ctxEntry.of_eq e).startRound
      · next e => exact h.ctxEntry.of_eq e) fun h1 => h1.lsWrite.poisEvent)

theorem Keeps.ringTake {p m f} (h : Keeps a s) (hf : ∀ {s y}, Keeps a s → Keeps a (f s y)) : Keeps a (s.ringTake p m f) := by
  unfold State.ringTake
  split
  · exact h.dropMsg
  · exact .ite h.dropMsg (.ite h (hf h))

theorem Goes.execRblk {p m} (h : Keeps a s) : Goes a (execRblk p m s) :=
  .next (h.collRow fun h1 => h1.ringTake fun h2 => .ite h2.addSat (.ringSettle (.setRing (.poisEvent
    (.ite h2.engWrite.journal h2.engFault)))))

theorem Keeps.qMsg {q op p k} (h : Keeps a s) : Keeps a (s.qMsg q op p k) := h.sendColl

theorem Keeps.engSend {eng f tag o pois k bs} (h : Keeps a s) : Keeps a (s.engSend eng f tag o pois k bs) := by
  induction k generalizing s o bs with
  | zero => exact h
  | succ k ih => exact .ite h (ih h.send)

theorem Keeps.qputAck {id ok} (h : Keeps a s) : Keeps a (s.qputAck id ok) := by
  unfold State.qputAck
  split
  · exact h
  · exact .ite h.upd (.ite h.upd.qMsg h.upd)

theorem Keeps.qtakeCount {q p} (h : Keeps a s) : Keeps a (s.qtakeCount q p) := .ite (.foldl h.upd fun h1 _ => h1.qMsg) h.upd

theorem Keeps.qtakePart {x q v vp} (h : Keeps a s) : Keeps a (s.qtakePart x q v vp) :=
  h.engRead.poisEvent.engWrite.journal.qtakeCount

theorem Keeps.queueTake {p m recv f} (h : Keeps a s) (hf : ∀ {s y}, Keeps a s → Keeps a (f s y)) : Keeps a (s.queueTake p m recv f) := by
  unfold State.queueTake
  split
  · exact h.dropMsg
  · exact .ite h.dropMsg (hf h)

theorem Goes.execRunClrDup {i} (h : Keeps a s) : Goes a (execRunClrDup i s) := .next h.wn

end

end Sys2Proof.Machine
end

section
/-! PROOF. What every command keeps: the stop of a flask, and the vote. -/

set_option Elab.async false

namespace Sys2Proof.Machine

section
variable {a s t : State}

theorem Keeps.setQ {f q} (h : Keeps a s) : Keeps a (s.setQ f q) := h.upd

theorem Keeps.putRec {f r} (h : Keeps a s) : Keeps a (s.putRec f r) := by
  unfold State.putRec
  dsimp only
  split
  · exact h
  · exact .ite h.engWrite.wn.setQ.raiseVec h.engWrite.wn.setQ

theorem Keeps.flushRecs {f k} (h : Keeps a s) : Keeps a (s.flushRecs f k) := by
  induction k generalizing s with
  | zero => exact h
  | succ k ih =>
    unfold State.flushRecs
    split
    · exact h
    · exact .ite (ih h.setQ.putRec) h

theorem Keeps.postRec {f r} (h : Keeps a s) : Keeps a (s.postRec f r) := h.setQ.flushRecs
theorem Keeps.complDesc {f d status} (h : Keeps a s) : Keeps a (s.complDesc f d status) := .ite h h.postRec
theorem Keeps.stopCores {f} (h : Keeps a s) : Keeps a (s.stopCores f) := h.upd
theorem Keeps.endDescs {f status} (h : Keeps a s) : Keeps a (s.endDescs f status) := .foldl h.setQ fun h1 _ => h1.complDesc

theorem Keeps.stopFlask {f cause quiet} (h : Keeps a s) : Keeps a (s.stopFlask f cause quiet) :=
  .ite h.stopCores.wf h.stopCores.wf.endDescs.postRec.raiseVec.wf

theorem Goes.execFaultNotice {k} (h : Keeps a s) : Goes a (execFaultNotice k s) :=
  .next (by
    split
    · exact .ite h.upd (.ite h.upd.addFld h.upd.wn.wn.stopFlask)
    · exact h)

theorem Goes.execStepEventNotice {k} (h : Keeps a s) : Goes a (execStepEventNotice k s) :=
  .next (by
    split
    · exact h.upd.wf
    · exact h)

theorem Keeps.clearFlight {f} (h : Keeps a s) : Keeps a (s.clearFlight f) := .upd (.foldl h fun h1 _ => h1.clearGroup)
theorem Keeps.unhold {f} (h : Keeps a s) : Keeps a (s.unhold f) := h.upd.wf

theorem Keeps.jobEndAt {f step} (h : Keeps a s) : Keeps a (s.jobEndAt f step) :=
  .record (by
    split
    · exact h.wf.clearFlight.wf.unhold
    · exact h.wf.clearFlight)

theorem Keeps.jobEnd {f} (h : Keeps a s) : Keeps a (s.jobEnd f) := h.jobEndAt
theorem Keeps.jobAbort {f} (h : Keeps a s) : Keeps a (s.jobAbort f) := h.jobEnd.notify
theorem Keeps.jobAbortAt {f step} (h : Keeps a s) : Keeps a (s.jobAbortAt f step) := h.jobEndAt.notify
theorem Keeps.abortAll (h : Keeps a s) : Keeps a s.abortAll := .foldl h fun h1 _ => h1.jobAbort
theorem Keeps.quarantine {g} (h : Keeps a s) : Keeps a (s.quarantine g) := .upd (.foldl h.modCore.wn fun h1 _ => h1.setQ)
theorem Keeps.setVs {v vt} (h : Keeps a s) : Keeps a (s.setVs v vt) := h.upd
theorem Keeps.repWrite {f o bs} (h : Keeps a s) : Keeps a (s.repWrite f o bs) := .ite h.engWrite h.engFault

theorem Keeps.barPlan {f step} (h : Keeps a s) : Keeps a (s.barPlan f step) := by
  unfold State.barPlan
  extract_lets l n frac den seed st d written noted ent
  have h1 : Keeps a noted := .ite h.repWrite.record h.repWrite
  exact .ite h1 h1.repWrite

theorem Keeps.bind {v} (h : Keeps a s) : Keeps a (s.bind v) :=
  .foldl (.barPlan (.upd (.unhold (.foldl (.setVs (.ite h (.foldl h.wn fun h1 _ => h1.wn))) fun h1 _ => h1.wn.loadTab.gUpdate))))
    fun h1 _ => h1.notify

theorem Goes.execLdlVcfgWrite {v val} (h : Keeps a s) : Goes a (execLdlVcfgWrite v val s) :=
  .next (.ite h (.ite (.unless (.ite h.refuse h) fun h1 => h1.upd.wf.unhold) (.ite h.refuse (.ite h.refuseCmd (.when (.foldl h.wn
    fun h1 _ => h1.wn) fun h1 => h1.bind)))))

theorem Keeps.takeNotice {n} (h : Keeps a s) : Keeps a (s.takeNotice n) := h.upd
theorem Keeps.flushCore {f g} (h : Keeps a s) : Keeps a (s.flushCore f g) := .ite h.modCore.taint h
theorem Keeps.strike {st g} (h : Keeps a s) : Keeps a (s.strike st g) := .ite (.foldl h.wn.upd fun h1 _ => h1.wf) h.wn
theorem Keeps.copyLine {eng f tag src dst} (h : Keeps a s) : Keeps a (s.copyLine eng f tag src dst) := h.engRead.poisEvent.engSend
theorem Keeps.riserHeader {v vt} (h : Keeps a s) : Keeps a (s.riserHeader v vt) := h.engSend.setVs

theorem Keeps.riserStart {v vt} (h : Keeps a s) : Keeps a (s.riserStart v vt) :=
  .ite h.setVs (.iteOf (fun h1 => h1.riserHeader) (fun h1 => h1.setVs) (.foldl h.setVs fun h1 _ => h1.copyLine))

theorem Keeps.riserAck {v id ok} (h : Keeps a s) : Keeps a (s.riserAck v id ok) := by
  unfold State.riserAck
  split
  · exact h
  · exact .ite h (.ite h.setVs (.ite h.setVs (.ite h.riserHeader h.setVs)))

theorem Goes.execRiserCopyComplete {v} (h : Keeps a s) : Goes a (execRiserCopyComplete v s) :=
  .next (by
    split
    · exact .ite h.setVs (.ite h.setVs h)
    · exact h)

theorem Keeps.replayStart {v t} (h : Keeps a s) : Keeps a (s.replayStart v t) := by
  unfold State.replayStart
  extract_lets f half id asked sent
  have h1 : Keeps a sent := h.engSend.send
  exact .ite h.setVs (.ite h.setVs h1.setVs)

theorem Keeps.seal {v vt} (h : Keeps a s) : Keeps a (s.seal v vt) := by
  unfold State.seal
  dsimp only
  split
  · exact .replayStart (.riserStart (.foldl (.when (by
      split
      · exact .engRead (.foldl (.foldl h.wf fun h1 _ => h1.snapOne) fun h1 _ => h1.modCore)
      · exact .engFault (.foldl (.foldl h.wf fun h1 _ => h1.snapOne) fun h1 _ => h1.modCore)) fun h1 => .wf (by
      split
      · exact .engRead (.foldl (.foldl h.wf fun h2 _ => h2.snapOne) fun h2 _ => h2.modCore)
      · exact .engFault (.foldl (.foldl h.wf fun h2 _ => h2.snapOne) fun h2 _ => h2.modCore))) fun h1 _ => .ite h1.strike
          (.ite h1.strike (.ite h1.addSat h1))))
  · exact .riserStart (.foldl (.when (by
      split
      · exact .engRead (.foldl (.foldl h.wf fun h1 _ => h1.snapOne) fun h1 _ => h1.modCore)
      · exact .engFault (.foldl (.foldl h.wf fun h1 _ => h1.snapOne) fun h1 _ => h1.modCore)) fun h1 => .wf (by
      split
      · exact .engRead (.foldl (.foldl h.wf fun h2 _ => h2.snapOne) fun h2 _ => h2.modCore)
      · exact .engFault (.foldl (.foldl h.wf fun h2 _ => h2.snapOne) fun h2 _ => h2.modCore))) fun h1 _ => .ite h1.strike
          (.ite h1.strike (.ite h1.addSat h1)))

theorem Goes.execStepEndPoll {v} (h : Keeps a s) : Goes a (execStepEndPoll v s) :=
  .next (by
    split
    · exact h
    · exact .ite h (.ite h.engFault (.ite h.engRead.poisEvent h.engRead.poisEvent.seal)))

theorem Keeps.sendVote {v step down level node rank o} (h : Keeps a s) : Keeps a (s.sendVote v step down level node rank o) :=
  h.sendColl

theorem Keeps.decide' {v vt o} (h : Keeps a s) : Keeps a (s.decide' v vt o) := .foldl h.setVs.wf.wf fun h1 _ => h1.sendVote

theorem Keeps.voteIn {v k level node b} (h : Keeps a s) : Keeps a (State.voteIn v k level node b s) := by
  induction k generalizing s level node b with
  | zero => exact h
  | succ k ih =>
    unfold State.voteIn
    dsimp only
    split
    · exact h
    · exact .ite h.addSat (.ite h.setVs (.ite h.setVs.decide' (.ite (ih h.setVs) h.setVs.sendVote)))

theorem Keeps.voteLeaf {v o} (h : Keeps a s) : Keeps a (s.voteLeaf v o) := by
  unfold State.voteLeaf
  dsimp only
  split
  · exact h
  · exact .ite h.decide' (.ite h.voteIn h.sendVote)

theorem Goes.execModuleTerm {v} (h : Keeps a s) : Goes a (execModuleTerm v s) :=
  .next (by
    split
    · exact h
    · exact .ite h h.wn.setVs.voteLeaf)

theorem Keeps.voteMsg {p m} (h : Keeps a s) : Keeps a (s.voteMsg p m) := by
  unfold State.voteMsg
  dsimp only
  split
  · exact .ite h.dropMsg (.ite (.ite h.addSat (.ite (.ite h.setVs h.setVs.decide') (.ite h.setVs.addSat h.setVs.voteIn))) (.ite
      h.putEarly h.addSat))
  · exact h.dropMsg

theorem Goes.execVoteWaitExpiry {v level} (h : Keeps a s) : Goes a (execVoteWaitExpiry v level s) :=
  .next (by
    split
    · exact h
    · split
      · exact h
      · exact .ite h h.setVs.voteIn)

theorem Keeps.sendJobctl {v kind node} (h : Keeps a s) : Keeps a (s.sendJobctl v kind node) := h.sendColl

theorem Goes.execProbeTimer {v} (h : Keeps a s) : Goes a (execProbeTimer v s) :=
  .next (by
    split
    · exact h
    · exact .ite h (.foldl h fun h1 _ => h1.sendJobctl))

theorem Goes.execJobctlAbort {p m} (h : Keeps a s) : Goes a (execJobctlAbort p m s) :=
  .next (.ite h (h.collRow fun h1 => by
    dsimp only
    split
    · exact h1.dropMsg
    · exact .ite h1.dropMsg (.jobAbort (.foldl h1 fun h2 _ => h2.sendColl))))

theorem Keeps.nodeLost {d} (h : Keeps a s) : Keeps a (s.nodeLost d) :=
  .foldl h.loseNode fun h1 _ => .jobAbort (by
    split
    · exact .foldl h1 fun h2 _ => h2.sendJobctl
    · exact h1)

theorem Keeps.scaleComplete {v c clean d} (h : Keeps a s) : Keeps a (s.scaleComplete v c clean d) := h.wn.wn.wn
theorem Keeps.flip {f} (h : Keeps a s) : Keeps a (s.flip f) := h.upd.wf

theorem Keeps.drainEarly {v f} (h : Keeps a s) : Keeps a (s.drainEarly v f) :=
  .foldl h.upd fun h1 _ => .ite h1.voteMsg h1.ladleMsg

theorem Goes.execStepCompletion {v} (h : Keeps a s) : Goes a (execStepCompletion v s) :=
  .next (by
    split
    · exact h
    · split
      · exact h
      · exact .when (.drainEarly (.foldl (.foldl (.upd (.setVs (.foldl (.wf (.wn (.iteOf (fun h1 => h1.flip.wn) (fun h1 => h1.addFld)
          (.barPlan (.repWrite (.foldl h fun h1 _ => h1.scaleComplete)))))) fun h1 _ => h1.clearGroup.loadTab.wn)))
          fun h1 _ => h1.gUpdate) fun h1 _ => h1.notify)) fun h1 => h1.jobAbortAt)

theorem Keeps.replayEnd {v vt res} (h : Keeps a s) : Keeps a (s.replayEnd v vt res) :=
  .setVs (.foldl h fun h1 _ => .ite h1.strike.strike (.ite h1.strike h1))

theorem Goes.execReplayResponsePoll {v} (h : Keeps a s) : Goes a (execReplayResponsePoll v s) :=
  .next (by
    split
    · exact h
    · exact .ite h (.ite h.engFault (.ite h.engRead.poisEvent h.engRead.poisEvent.replayEnd)))

theorem Goes.execReplayTimeout {v} (h : Keeps a s) : Goes a (execReplayTimeout v s) :=
  .next (by
    split
    · exact .ite h.replayEnd h
    · exact h)

theorem Goes.execPourFinish {v step} (h : Keeps a s) : Goes a (execPourFinish v step s) :=
  .next (.ite h (.ite h.refuse h.flip.wf))

theorem Goes.execRiserRestore {v cmd} (h : Keeps a s) : Goes a (execRiserRestore v cmd s) :=
  .next (.ite h (.ite h.refuse (by
    dsimp only
    split
    · exact h.refuse
    · exact .foldl h fun h1 _ => .ite h1.copyLine h1.engFault)))

theorem Goes.execEvalHold {f hold} (h : Keeps a s) : Goes a (execEvalHold f hold s) := .next (.ite h (.ite h.refuse h.wn))
theorem Goes.execTbarWrite {f v} (h : Keeps a s) : Goes a (execTbarWrite f v s) := .next (.ite h (.ite h.refuse h.wn))

end

end Sys2Proof.Machine
end

section
/-! PROOF. What every command keeps: fabric ports. -/

set_option Elab.async false

namespace Sys2Proof.Machine

section
variable {a s t : State}

theorem Keeps.place {flask m} (h : Keeps a s) : Keeps a (s.place flask m) :=
  .ite (by
    split
    · exact h.txPush
    · exact h) (by
    split
    · exact h.txPush
    · exact h)

theorem Keeps.resend {p} (h : Keeps a s) : Keeps a (s.resend p) :=
  .foldl h fun h1 _ => by
    dsimp only
    split
    · exact .ite h1 h1.updFab.complete
    · exact h1.updFab.txPush

theorem Keeps.portDown {p why} (h : Keeps a s) : Keeps a (s.portDown p why) :=
  .ite h (.ite (.ite h.wf h) (.when (.foldl (.foldl h.wf.wf.modPort.addSat.record.resend fun h1 _ => h1.place)
    fun h1 _ => h1.place) fun h1 => .foldl h1 fun h2 _ => h2.nodeLost))

theorem Keeps.showFlit {p q bs} (h : Keeps a s) : Keeps a (s.showFlit p q bs) := h.modPort.upd
theorem Keeps.ctlSend {p q kind area} (h : Keeps a s) : Keeps a (s.ctlSend p q kind area) := h.showFlit
theorem Keeps.farewell {p} (h : Keeps a s) : Keeps a (s.farewell p) := .ite h (.ite h.freeB.ctlSend h.freeB)

theorem Goes.execFlitSlot {p} (h : Keeps a s) : Goes a (execFlitSlot p s) :=
  .next (.ite h (.ite h.ctlSend (.ite h.ctlSend (by
    split
    · exact h.showFlit.addWrap
    · exact .ite h.ctlSend (.ite h.ctlSend h.showFlit.addWrap)))))

theorem Keeps.linkCtl {p c} (h : Keeps a s) : Keeps a (s.linkCtl p c) :=
  .ite (.ite h.modPort.addSat.portDown h.modPort.addSat) h.modPort

theorem Keeps.fec {p ws} (h : Keeps a s) : Keeps a (s.fec p ws) := h.addWrap

theorem Keeps.flitRow {p kind fec flit f} (h : Keeps a s) (hf : ∀ {s}, Keeps a s → Keeps a (f s)) : Keeps a (s.flitRow p kind fec flit f) :=
  .ite h (hf h.fec)

theorem Keeps.ctlFlit {p kind fec flit} (h : Keeps a s) : Keeps a (s.ctlFlit p kind fec flit) :=
  h.flitRow fun h1 => .ite h1.linkCtl h1

theorem Goes.execPortTraining {p ok c} (h : Keeps a s) : Goes a (execPortTraining p ok c s) :=
  .next (.ite h (.ite h.modPort.wn.modPort.wf (.ite h.modPort.wn.modPort.wf (.ite h.modPort.wn.wf (.ite
    h.modPort.wn.wf.wf.modPort.record h.modPort.wn.wf.wf.modPort)))))

theorem Goes.execPortReset {p} (h : Keeps a s) : Goes a (execPortReset p s) := .next (.ite h h.farewell.portDown.modPort)

theorem Goes.execLnkCtlEn {p en} (h : Keeps a s) : Goes a (execLnkCtlEn p en s) :=
  .next (.ite h (.ite h.wn h.wn.farewell.portDown))

theorem Goes.execLnkRouteWrite {d mask} (h : Keeps a s) : Goes a (execLnkRouteWrite d mask s) :=
  .next (.ite h (.ite (.ite h.wn.nodeLost h.wn) (.ite h.refuse h.wn.updFab)))

theorem Goes.execLnkClrFlit {p} (h : Keeps a s) : Goes a (execLnkClrFlit p s) := .next h.wn.wn
theorem Goes.execLnkClrDrop {p} (h : Keeps a s) : Goes a (execLnkClrDrop p s) := .next h.wn
theorem Goes.execLnkClrReject {p} (h : Keeps a s) : Goes a (execLnkClrReject p s) := .next h.wn
theorem Goes.execLnkClrDown {p} (h : Keeps a s) : Goes a (execLnkClrDown p s) := .next h.wn
theorem Goes.execLnkClrReplay {p} (h : Keeps a s) : Goes a (execLnkClrReplay p s) := .next h.wn
theorem Goes.execLnkClrFec {p} (h : Keeps a s) : Goes a (execLnkClrFec p s) := .next h.wn

theorem Keeps.engStatus {f status} (h : Keeps a s) : Keeps a (s.engStatus f status) :=
  .ite h (.ite h.engFault (.ite h.engFault h.engFault.stepEvent))

theorem Keeps.ackEngine {n p} (h : Keeps a s) : Keeps a (s.ackEngine n p) :=
  .ite h.takeResp.upd.engStatus.qputAck (.ite h.takeResp.upd.engStatus.riserAck h.takeResp.upd.engStatus)

theorem Goes.execStoreAcknowledgement {id} (h : Keeps a s) : Goes a (execStoreAcknowledgement id s) :=
  .next (by
    split
    · exact h
    · split
      · exact h.ackEngine
      · exact h.ackCore)

end

end Sys2Proof.Machine
end

section
/-! PROOF. What every command keeps: work queues, launches, contexts, and the hosts. -/

set_option Elab.async false

namespace Sys2Proof.Machine

section
variable {a s t : State}

theorem Keeps.setHand {f d} (h : Keeps a s) : Keeps a (s.setHand f d) := h.setQ
theorem Keeps.endHand {f d status} (h : Keeps a s) : Keeps a (s.endHand f d status) := h.setQ.complDesc

theorem Keeps.seqCheck {f d} (h : Keeps a s) : Keeps a (s.seqCheck f d) :=
  .ite (.ite h.endHand h.setHand) (.ite h.endHand h.setHand)

theorem Keeps.readDesc {f i} (h : Keeps a s) : Keeps a (s.readDesc f i).2 := by
  unfold State.readDesc
  split
  · exact h
  · exact h.engRead.poisEvent

theorem Goes.execSeqReread {f} (h : Keeps a s) : Goes a (execSeqReread f s) :=
  .next (by
    split
    · exact .ite h h.readDesc.seqCheck
    · exact h)

theorem Goes.execQueueEnable {f v} (h : Keeps a s) : Goes a (execQueueEnable f v s) :=
  .next (.ite h (.ite h.wf (.ite h.wf (.ite h.wf.wf.wf h.wf.wf))))

theorem Keeps.leaveStandby (h : Keeps a s) : Keeps a s.leaveStandby := h.upd
theorem Keeps.standbyEnds (h : Keeps a s) : Keeps a s.standbyEnds := .ite h h.leaveStandby

theorem Goes.execSqDoorbell {f v} (h : Keeps a s) : Goes a (execSqDoorbell f v s) :=
  .next (.ite h (.ite h.standbyEnds h.standbyEnds.wn))

theorem Goes.execCqHeadWrite {f v} (h : Keeps a s) : Goes a (execCqHeadWrite f v s) := .next (.ite h h.wn.flushRecs)
theorem Goes.execQclrHerr {f} (h : Keeps a s) : Goes a (execQclrHerr f s) := .next h.wn

theorem Goes.execQueueNop {f} (h : Keeps a s) : Goes a (execQueueNop f s) :=
  .next (by
    split
    · exact h.endHand
    · exact h)

theorem Goes.execQueueSignal {f} (h : Keeps a s) : Goes a (execQueueSignal f s) :=
  .next (by
    split
    · exact h
    · exact .ite h.endHand (.ite h (.endHand (.poisEvent (.pocAtom (.ite h.engLine h))))))

theorem Goes.execWait {f} (h : Keeps a s) : Goes a (execWait f s) :=
  .next (by
    split
    · exact h
    · exact .ite h.endHand h.setHand)

theorem Goes.execWaitPoll {f} (h : Keeps a s) : Goes a (execWaitPoll f s) :=
  .next (by
    split
    · exact h
    · exact .ite h (.ite h.engRead.poisEvent.endHand h.engRead.poisEvent))

theorem Goes.execWaitTimeout {f} (h : Keeps a s) : Goes a (execWaitTimeout f s) :=
  .next (by
    split
    · exact h
    · exact .ite h h.endHand)

theorem Keeps.copyBytes {f k src dst n} (h : Keeps a s) : Keeps a (s.copyBytes f k src dst n) := by
  induction k generalizing s src dst n with
  | zero => exact h
  | succ k ih => exact .ite h (ih h.engRead.poisEvent.engWrite)

theorem Goes.execCopy {f} (h : Keeps a s) : Goes a (execCopy f s) :=
  .next (by
    split
    · exact h
    · exact .ite h.endHand (.ite h h.copyBytes.endHand))

theorem Keeps.readCut {f l} (h : Keeps a s) : Keeps a (s.readCut f l).2 := by
  induction l generalizing s with
  | nil => exact h
  | cons p l ih => exact ih h.engRead.poisEvent

theorem Keeps.coreSet {f d} (h : Keeps a s) : Keeps a (s.coreSet f d).2 := by
  unfold State.coreSet
  extract_lets first count all own
  have hown (r : Option (List Nat)) {t : State} (h : Keeps a t) : Keeps a (own (r, t)).2 := by
    unfold own
    dsimp only
    split
    · exact .iteSnd h h
    · exact h
  clear_value own
  refine .iteSnd h (.iteSnd (hown _ h) ?_)
  split
  · exact h
  · exact hown _ h.readCut

theorem Keeps.answered {f d} (h : Keeps a s) : Keeps a (s.answered f d) := .ite h.setHand (.ite h.endHand h.setQ)

theorem Keeps.launch {f op} (h : Keeps a s) : Keeps a (s.launch f op) := by
  unfold State.launch
  split
  · exact h
  · split
    · next e => exact (h.coreSet.of_eq e).endHand
    · next e => exact .ite (h.coreSet.of_eq e).endHand (h.coreSet.of_eq e).answered

theorem Keeps.zeroLs {g lo hi} (h : Keeps a s) : Keeps a (s.zeroLs g lo hi) := h.of_parts rfl (fun w => memory_filter_wf w _) rfl
theorem Keeps.dropCache {g} (h : Keeps a s) : Keeps a (s.dropCache g) := h.modCore.upd.taint

theorem Keeps.acceptHost {f g pos d} (h : Keeps a s) : Keeps a (s.acceptHost f g pos d) :=
  .modCore (.wn (.wf (.wf (.ite h.zeroLs.dropCache.wf h))))

theorem Keeps.acceptGuest {g pos d} (h : Keeps a s) : Keeps a (s.acceptGuest g pos d) := h.wf.modCore

theorem Goes.execLaunchAccept {g guest} (h : Keeps a s) : Goes a (execLaunchAccept g guest s) :=
  .next (by
    split
    · exact h
    · exact .ite h.answered (.ite h (.ite h.answered (.answered (.ite h.acceptGuest h.acceptHost)))))

theorem Goes.execLaunchComplete {f tag} (h : Keeps a s) : Goes a (execLaunchComplete f tag s) :=
  .next (by
    split
    · exact h
    · split
      · exact h.setQ.complDesc
      · exact h)

theorem Keeps.clearSlots {g guest} (h : Keeps a s) : Keeps a (s.clearSlots g guest) := h.upd
theorem Keeps.unseat {g guest} (h : Keeps a s) : Keeps a (s.unseat g guest) := .modCore (.foldl h fun h1 _ => h1.endGroup)
theorem Keeps.readEdges {g} (h : Keeps a s) : Keeps a (s.readEdges g) := .foldl h fun h1 _ => h1.readEdge

theorem Keeps.saveCore {f g} (h : Keeps a s) : Keeps a (s.saveCore f g) :=
  .unseat (.upd (.unless (.scrub (.ite h h.readEdges)) fun h1 => h1.dropCache.modCore))

theorem Keeps.saveStep {f d g} (h : Keeps a s) : Keeps a (s.saveStep f d g).2 := .iteSnd h (.iteSnd h.saveCore h)
theorem Keeps.setDone {f d} (h : Keeps a s) : Keeps a (s.setDone f d) := .ite h.setHand h.endHand

theorem Goes.execSave {f} (h : Keeps a s) : Goes a (execSave f s) :=
  .next (by
    split
    · exact .setDone (.foldlSnd h fun h1 _ => h1.saveStep)
    · split
      · exact h
      · split
        · next e => exact (h.coreSet.of_eq e).endHand
        · next e => exact .setDone (.foldlSnd (.foldl (h.coreSet.of_eq e) fun h1 _ => .ite h1.modCore h1) fun h1 _ => h1.saveStep))

theorem Keeps.restoreCore {f g v} (h : Keeps a s) : Keeps a (s.restoreCore f g v) := by
  unfold State.restoreCore
  extract_lets guest uncached host part p o zeroed back clear regs poll gs seated
  have h1 : Keeps a part := .when (.ite h (.wn (.wf (.wf (.ite h h.dropCache))))) fun h1 => h1.wf
  have h2 : Keeps a back := h1.zeroLs.of_parts rfl (memory_foldl_wf _ _) rfl
  refine .foldl (.upd (.ite h2.clearSlots.upd.modCore h2.clearSlots.upd.modCore.upd)) fun h3 _ => ?_
  split
  · exact .ite h3.pollNext h3
  · exact h3

theorem Keeps.restoreStep {f d g} (h : Keeps a s) : Keeps a (s.restoreStep f d g).2 := by
  unfold State.restoreStep
  dsimp only
  split
  · exact h
  · exact .iteSnd h (.iteSnd h (.iteSnd h h.restoreCore))

theorem Goes.execRestore {f} (h : Keeps a s) : Goes a (execRestore f s) :=
  .next (by
    split
    · exact .setDone (.foldlSnd h fun h1 _ => h1.restoreStep)
    · split
      · exact h
      · split
        · next e => exact (h.coreSet.of_eq e).endHand
        · next e => exact .setDone (.foldlSnd (h.coreSet.of_eq e) fun h1 _ => h1.restoreStep))

theorem Keeps.shakeOut {f} (h : Keeps a s) : Keeps a (s.shakeOut f) := .ite h (.wf (.ite h.stopFlask.jobAbort h.stopFlask))
theorem Goes.execShakeOut {f} (h : Keeps a s) : Goes a (execShakeOut f s) := .next h.shakeOut
theorem Keeps.applyAperture {f} (h : Keeps a s) : Keeps a (s.applyAperture f) := .foldl h.upd fun h1 _ => h1.serve

theorem Keeps.dmaOver {q} (h : Keeps a s) : Keeps a (s.dmaOver q) := by
  unfold State.dmaOver
  split
  · split
    · exact h.setDma
    · exact h
  · exact h

theorem Keeps.dropRemote {f} (h : Keeps a s) : Keeps a (s.dropRemote f) := .updFab (.foldl h fun h1 _ => h1.slotFree.dmaOver)

theorem Keeps.dropRequests {f runs} (h : Keeps a s) : Keeps a (s.dropRequests f runs) :=
  .upd (.ite (.foldl (.foldl h fun h1 _ => h1.slotFree.dmaOver) fun h1 _ => h1.dmaOver) h)

theorem Keeps.zeroPart {g guest} (h : Keeps a s) : Keeps a (s.zeroPart g guest) :=
  .ite h.zeroLs.clearSlots h.zeroLs.clearSlots.dropCache.zeroArray

theorem Keeps.shakeCore {f g} (h : Keeps a s) : Keeps a (s.shakeCore f g) :=
  .ite h.unseat.modCore (.ite h.unseat.modCore.zeroPart h.unseat.modCore.modCore)

theorem Goes.execShakeOutDrainEnd {f} (h : Keeps a s) : Goes a (execShakeOutDrainEnd f s) :=
  .next (.ite h (.unless (.wf (.clearFlight (.upd (.wn (.wn (.wn (.wn (.wf (.wn (.wn (.setQ (.foldl
    h.applyAperture.dropRemote.dropRequests fun h1 _ => h1.shakeCore)))))))))))) fun h1 => h1.raiseVec))

theorem Keeps.ldConfigReset {f} (h : Keeps a s) : Keeps a (s.ldConfigReset f) := h.upd
theorem Keeps.refuseMem {ld} (h : Keeps a s) : Keeps a (s.refuseMem ld) := h.addFld
theorem Keeps.cxlLost {ld} (h : Keeps a s) : Keeps a (s.cxlLost ld) := h.notify
theorem Keeps.holdCxl {e} (h : Keeps a s) : Keeps a (s.holdCxl e) := h.upd
theorem Keeps.cxlRead {ld dpa off} (h : Keeps a s) : Keeps a (s.cxlRead ld dpa off) := .ite h.cxlLost.upd h.engRead.upd

theorem Keeps.cxlWrite {ld dpa off data mask poi} (h : Keeps a s) : Keeps a (s.cxlWrite ld dpa off data mask poi) :=
  .ite h.cxlLost.upd h.engLine.pocWrite.upd

theorem Goes.execCxlMemRead {ld dpa} (h : Keeps a s) : Goes a (execCxlMemRead ld dpa s) :=
  .next (.ite h (by
    dsimp only
    split
    · exact h.standbyEnds.refuseMem.upd
    · exact .ite h.standbyEnds.holdCxl h.standbyEnds.cxlRead))

theorem Goes.execCxlMemWrite {ld dpa data mask poi} (h : Keeps a s) : Goes a (execCxlMemWrite ld dpa data mask poi s) :=
  .next (.ite h (by
    dsimp only
    split
    · exact h.standbyEnds.refuseMem.upd
    · exact .ite h.standbyEnds.holdCxl h.standbyEnds.cxlWrite))

theorem Keeps.answer {ld cmd rc content} (h : Keeps a s) : Keeps a (s.answer ld cmd rc content) := h.upd
theorem Keeps.fm {f} (h : Keeps a s) (hf : ∀ {s}, Keeps a s → Keeps a (f s)) : Keeps a (s.fm f) := .ite (hf h) h
theorem Keeps.mbox {ld f} (h : Keeps a s) (hf : ∀ {s}, Keeps a s → Keeps a (f s)) : Keeps a (s.mbox ld f) := .ite (hf h) h
theorem Keeps.cxlClear {ld off d} (h : Keeps a s) : Keeps a (s.cxlClear ld off d) := h.engWrite.answer

theorem Goes.execClearPoison {ld dpa data} (h : Keeps a s) : Goes a (execClearPoison ld dpa data s) :=
  .next (h.mbox fun h1 => by
    split
    · exact h1.answer
    · exact .ite h1.holdCxl h1.cxlClear)

theorem Keeps.serveHeld {e} (h : Keeps a s) : Keeps a (s.serveHeld e) := by
  unfold State.serveHeld
  split
  · split
    · exact h.cxlRead
    · exact h
  · split
    · exact h.cxlWrite
    · exact h
  · split
    · exact h.cxlClear
    · exact h

theorem Keeps.sendPending {ld} (h : Keeps a s) : Keeps a (s.sendPending ld) := .foldl h fun h1 _ => h1.upd

theorem Goes.execMsixTableWrite {ld vec entry} (h : Keeps a s) : Goes a (execMsixTableWrite ld vec entry s) :=
  .next (.ite h h.upd.sendPending)

theorem Keeps.failHeld {e} (h : Keeps a s) : Keeps a (s.failHeld e) := by
  unfold State.failHeld
  split
  · exact h.upd
  · exact h.upd
  · exact h.answer

theorem Keeps.ideFails {k} (h : Keeps a s) : Keeps a (s.ideFails k) := .record (.foldl h.wf.wf.upd fun h1 _ => h1.failHeld)
theorem Keeps.ideKeyed {k} (h : Keeps a s) : Keeps a (s.ideKeyed k) := .ite h.wf.wf h.wf
theorem Keeps.barWrite {ld off bs} (h : Keeps a s) : Keeps a (s.barWrite ld off bs) := h.upd
theorem Keeps.linkDown (h : Keeps a s) : Keeps a s.linkDown := h.upd.wn

end

end Sys2Proof.Machine
end

section
/-! PROOF. What every command keeps: failures, power, boot and resets. -/

set_option Elab.async false

namespace Sys2Proof.Machine

section
variable {a s t : State}

theorem Goes.execLinkFailed {c} (h : Keeps a s) : Goes a (execLinkFailed c s) :=
  .next (by
    split
    · exact h
    · exact .ite h (.foldl (.foldl (.foldl h.upd.record.abortAll.updFab fun h1 _ => h1.linkLost) fun h1 _ => h1.linkLost)
        fun h1 _ => h1.linkLost))

theorem Keeps.pllQuarantine {g} (h : Keeps a s) : Keeps a (s.pllQuarantine g) := h.quarantine.record

theorem Goes.execPllLockLoss {u} (h : Keeps a s) : Goes a (execPllLockLoss u s) :=
  .next (.ite h (by
    split
    · exact .ite h (.foldl h.wf fun h1 _ => h1.pllQuarantine)
    · exact .ite h h.wf.record.abortAll))

theorem Keeps.modClusters {k f} (h : Keeps a s) : Keeps a (s.modClusters k f) := h.upd

theorem Keeps.toCold {k} (h : Keeps a s) : Keeps a (s.toCold k) := by
  unfold State.toCold
  extract_lets inK emptied lost split errs cold
  have h0 : Keeps a emptied := h.modClusters
  clear_value emptied
  have h1 : Keeps a cold := h0.of_parts rfl (fun w => memory_filter_wf w _) rfl
  exact .foldl h1 fun h2 _ => h2.wf.wr

theorem Keeps.wakeCluster {k} (h : Keeps a s) : Keeps a (s.wakeCluster k) := .wf (.modClusters (.ite h.upd.wn h.upd))

theorem Goes.execWakeComplete {g} (h : Keeps a s) : Goes a (execWakeComplete g s) :=
  .next (.ite h (.ite h.modCore (.when (.ite h.upd.modCore.wf.zeroPart h.upd.modCore.wf) fun h1 => h1.zeroPart)))

theorem Keeps.cleanLlc (h : Keeps a s) : Keeps a s.cleanLlc := .upd (.foldl h fun h1 _ => h1.sectorCheck.bankPush)
theorem Keeps.enterStandby (h : Keeps a s) : Keeps a s.enterStandby := h.upd.toCold.cleanLlc

theorem Goes.execPwrCmdStandby (h : Keeps a s) : Goes a (execPwrCmdStandby s) :=
  .next (.ite h (by
    split
    · exact h.refuseCmd
    · exact h.enterStandby))

theorem Keeps.rotaNext {c} (h : Keeps a s) : Keeps a (s.rotaNext c) := h.upd.wn

theorem Goes.execPwrCmdWake (h : Keeps a s) : Goes a (execPwrCmdWake s) :=
  .next (.ite h (.foldl (.ite h.leaveStandby h) fun h1 _ => h1.wakeCluster))

theorem Keeps.setLevel (h : Keeps a s) : Keeps a s.setLevel := h.wf
theorem Keeps.faultPin (h : Keeps a s) : Keeps a s.faultPin := .ite h h.upd

theorem Keeps.tripFlask {f} (h : Keeps a s) : Keeps a (s.tripFlask f) :=
  .dropRequests (.dropRemote (.unless (.ite h.jobEnd h) fun h1 => h1.wn.wn.stopFlask))

theorem Keeps.trip {kind} (h : Keeps a s) : Keeps a (s.trip kind) :=
  .record (.faultPin (.upd (.wf (.enterStandby (.foldl h fun h1 _ => h1.tripFlask)))))

theorem Keeps.withPat {k} (h : Keeps a s) : Keeps a (s.withPat k) := h.upd
theorem Keeps.setBoot {b} (h : Keeps a s) : Keeps a (s.setBoot b) := h.upd.wf
theorem Keeps.bootStop {cause} (h : Keeps a s) : Keeps a (s.bootStop cause) := h.linkDown.wf.wf.faultPin.record

theorem Keeps.nextCand (h : Keeps a s) : Keeps a s.nextCand := by
  unfold State.nextCand
  dsimp only
  split
  · exact h.bootStop
  · exact h.setBoot

theorem Keeps.startBoot {kind} (h : Keeps a s) : Keeps a (s.startBoot kind) := h.addSat.wf.wf.wf.setBoot.wf.faultPin

theorem Goes.execSlotHeadersRead (h : Keeps a s) : Goes a (execSlotHeadersRead s) :=
  .next (.ite h (by
    split
    · exact h.bootStop
    · exact h.setBoot))

theorem Goes.execDramZeroing (h : Keeps a s) : Goes a (execDramZeroing s) :=
  .next (.ite h (.setBoot (h.of_parts rfl (fun w => memory_filter_wf w _) rfl)))

theorem Keeps.loadQueue {q} (h : Keeps a s) : Keeps a (s.loadQueue q) := h.wn.wn
theorem Keeps.loadRing {c} (h : Keeps a s) : Keeps a (s.loadRing c) := h.wf.wf
theorem Keeps.loadWheel {e} (h : Keeps a s) : Keeps a (s.loadWheel e) := h.wn
theorem Keeps.loadFlask {f} (h : Keeps a s) : Keeps a (s.loadFlask f) := h.wn.wn

theorem Goes.execRegisterLoad (h : Keeps a s) : Goes a (execRegisterLoad s) :=
  .next (.ite h (.faultPin (.wf (.setBoot (.upd (.foldl (.wf (.foldl (.foldl (.foldl (.foldl (.foldl (.foldl (.wn (.wn (.foldl
    h.withPat.upd.wn fun h1 _ => h1.wn))) fun h1 _ => h1.wn) fun h1 _ => h1.loadWheel) fun h1 _ => h1.wf)
    fun h1 _ => h1.loadFlask) fun h1 _ => h1.loadRing) fun h1 _ => h1.loadQueue)) fun h1 _ => h1.wf))))))

theorem Keeps.lost {rs} (h : Keeps a s) : Keeps a (s.lost rs) :=
  .unless (h.of_parts rfl (fun _ => Sparse.wf_nil 0) (List.length_map _)) fun h1 => h1.wr

theorem Keeps.porState {alive} (h : Keeps a s) : Keeps a (s.porState alive) := h.lost.upd
theorem Keeps.stayCold {u : State} (h : Keeps a t) : Keeps a (u.stayCold t) := .ite h (.foldl h.toCold fun h1 _ => h1.wf)

theorem Keeps.moduleReset {kind} (h : Keeps a s) : Keeps a (s.moduleReset kind) :=
  .when (.stayCold (.wf (.upd (.lost (.ite h (.foldl h fun h1 _ => h1.farewell)))))) fun h1 => h1.wf.wf

theorem Keeps.railsOff (h : Keeps a s) : Keeps a s.railsOff := h.lost.upd
theorem Goes.execRstCmdModule (h : Keeps a s) : Goes a (execRstCmdModule s) := .next (.ite h.moduleReset h)

theorem Keeps.inputEvent {kind} (h : Keeps a s) : Keeps a (s.inputEvent kind) :=
  .ite h (.ite (.ite h h.upd) h.railsOff.upd.faultPin.record)

end

end Sys2Proof.Machine
end

section
/-! PROOF. What every command keeps: register writes, management, and the vector rows. -/

set_option Elab.async false

namespace Sys2Proof.Machine

section
variable {a s t : State}

theorem Keeps.iStat {g st} (h : Keeps a s) : Keeps a (s.iStat g st).2 := .iteSnd h (.iteSnd h (.iteSnd h h.freeB))
theorem Keeps.iStats {g} (h : Keeps a s) : Keeps a (s.iStats g).2 := .foldlSnd h fun h1 _ => h1.iStat
theorem Keeps.gStarve {g} (h : Keeps a s) : Keeps a (s.gStarve g).2 := .iteSnd h.freeN h

theorem Keeps.rreg {o} (h : Keeps a s) : Keeps a (s.rreg o).2 :=
  .iteSnd h (by
    split
    · exact h
    · exact h
    · exact h
    · exact h
    · exact h
    · exact h
    · exact h
    · exact h
    · exact h
    · exact h.iStats
    · exact h.gStarve
    · exact h)

theorem Keeps.readRegs {o n ok} (h : Keeps a s) : Keeps a (s.readRegs o n ok).2 := .foldlSnd h fun h1 _ => h1.rreg

/-- What a command that goes on leaves, where it is one register write's action. -/
theorem Goes.via {f} (hf : Goes a (f s)) : Keeps a (s.via f) := by
  obtain ⟨t, ht, h1⟩ := hf
  simpa only [State.via, ht] using h1

theorem Keeps.actions {v fs} (h : Keeps a s) (hf : fs.Forall fun e => ∀ {s}, Keeps a s → Goes a (e.2 s)) :
    Keeps a (s.actions v fs) := by
  unfold State.actions
  induction fs generalizing s with
  | nil => exact h
  | cons e fs ih =>
    obtain ⟨he, hfs⟩ := (List.forall_cons _ e fs).1 hf
    exact ih (.ite (he h).via h) hfs

theorem Keeps.writeCor {r v} (h : Keeps a s) : Keeps a (s.writeCor r v) := by
  unfold State.writeCor
  dsimp only
  split
  · exact h.actions .execRcclrClear
  · exact h.actions ⟨.execMxclrAln, .execMxclrEdge, .execMxclrVec, .execMxclrGate⟩
  · exact h.actions ⟨.execExclrIssue, .execExclrAtom⟩
  · exact h.actions .execSyncclrPoll
  · exact h

theorem Keeps.writeMem {r v} (h : Keeps a s) : Keeps a (s.writeMem r v) := by
  unfold State.writeMem
  dsimp only
  split
  · exact Goes.via (.execDgctlSnap h)
  · exact h.actions ⟨.execMsdClrLlc, .execMsdClrPois, .execMsdClrRest⟩
  · exact h.actions ⟨.execChnClrRs, .execChnClrScrub, .execChnClrPin⟩
  · exact Goes.via (.execLnkCtlEn h)
  · exact h.actions .execPortReset
  · exact h.actions ⟨.execLnkClrFec, .execLnkClrReplay, .execLnkClrDown, .execLnkClrReject, .execLnkClrDrop, .execLnkClrFlit⟩
  · exact Goes.via (.execLnkNodeWrite h)
  · exact Goes.via (.execLnkRouteWrite h)
  · exact h

theorem Keeps.writeFlk {r v} (h : Keeps a s) : Keeps a (s.writeFlk r v) := by
  unfold State.writeFlk
  dsimp only
  split
  · exact Goes.via (.execQueueEnable h)
  · exact .ite h h.wn
  · exact .ite h h.wn
  · exact Goes.via (.execSqDoorbell h)
  · exact Goes.via (.execCqHeadWrite h)
  · exact h.actions .execShakeOut
  · exact h.actions .execQclrHerr
  · exact h.actions .execJobCommit
  · exact Goes.via (.execTbarWrite h)
  · exact Goes.via (.execEvalHold h)
  · exact h

theorem Keeps.writeEng {r v} (h : Keeps a s) : Keeps a (s.writeEng r v) := by
  unfold State.writeEng
  dsimp only
  split
  · exact Goes.via (.execLdlGcfgWrite h)
  · exact h.actions ⟨.execLdlClrChk, .execLdlClrNf, .execLdlClrLate, .execLdlClrDup, .execLdlClrStale⟩
  · exact Goes.via (.execLdlVcfgWrite h)
  · exact h.wn
  · exact .ite (.ite h.wf h.wf.refuse) h.wn
  · exact h.actions .execPourFinish
  · exact h.actions .execRiserRestore
  · exact h.actions .execRunClrDup
  · exact .ite h.refuse h.wn
  · split
    · exact .ite h.refuse h.wn
    · exact h

theorem Keeps.zeroAll {r} (h : Keeps a s) : Keeps a (s.zeroAll r) := h.upd
theorem Goes.execErrClrRdrop (h : Keeps a s) : Goes a (execErrClrRdrop s) := .next h.wn
theorem Goes.execErrClrCc (h : Keeps a s) : Goes a (execErrClrCc s) := .next h.zeroAll
theorem Goes.execErrClrLs (h : Keeps a s) : Goes a (execErrClrLs s) := .next h.zeroAll

theorem Keeps.writeTop {r v} (h : Keeps a s) : Keeps a (s.writeTop r v) := by
  unfold State.writeTop
  split
  · exact h.actions ⟨.execPwrCmdStandby, .execPwrCmdWake⟩
  · exact h.wn.setLevel
  · exact h.refuse
  · exact h.actions .execRstCmdModule
  · exact h.actions ⟨.execErrClrLs, .execErrClrCc, .execErrClrRdrop⟩
  · exact h

theorem Keeps.wreg {o v} (h : Keeps a s) : Keeps a (s.wreg o v) := by
  unfold State.wreg
  split
  · exact h.wn
  · exact .ite h.writeCor (.ite h.writeMem (.ite h.writeFlk (.ite h.writeEng h.writeTop)))

theorem Keeps.mgtWrite {o v k} (h : Keeps a s) : Keeps a (s.mgtWrite o v k) := .ite h.refuse (.ite h.wreg h)

theorem Keeps.hostWrite {ld off width v} (h : Keeps a s) : Keeps a (s.hostWrite ld off width v) :=
  .ite h (.foldl h fun h1 _ => h1.wreg)

theorem Keeps.barStore {ld off width v} (h : Keeps a s) : Keeps a (s.barStore ld off width v) :=
  .ite h (by
    split
    · exact h.hostWrite
    · exact .ite (Goes.via (.execMsixTableWrite h)) h.barWrite)

theorem Goes.execRegisterWrite {p off width v} (h : Keeps a s) : Goes a (execRegisterWrite p off width v s) :=
  .next (.ite h (by
    split
    · exact .ite h (.ite h.refuse (.foldl h fun h1 _ => h1.mgtWrite))
    · exact h.hostWrite
    · exact h.barStore))

theorem Keeps.setSess {n e} (h : Keeps a s) : Keeps a (s.setSess n e) := h.upd

theorem Keeps.endSess {n} (h : Keeps a s) : Keeps a (s.endSess n) := by
  unfold State.endSess
  dsimp only
  split
  · exact .ite h.setSess.upd h.setSess
  · exact h.setSess

theorem Keeps.respond {m code body} (h : Keeps a s) : Keeps a (s.respond m code body) := by
  unfold State.respond
  split
  · exact h.upd
  · exact h.setSess.upd

theorem Keeps.reply {m body} (h : Keeps a s) : Keeps a (s.reply m body) := h.respond
theorem Keeps.err {m e} (h : Keeps a s) : Keeps a (s.err m e) := h.respond
theorem Keeps.status {m e} (h : Keeps a s) : Keeps a (s.status m e) := h.reply
theorem Keeps.taken {m} (h : Keeps a s) : Keeps a (s.taken m) := h.upd

theorem Keeps.serveMgt {m code f} (h : Keeps a s) (hf : ∀ {s}, Keeps a s → Keeps a (f s)) : Keeps a (s.serveMgt m code f) :=
  .ite h (.ite h.taken.err (hf h.taken))

theorem Keeps.serveAuth {m code f} (h : Keeps a s) (hf : ∀ {s}, Keeps a s → Keeps a (f s)) : Keeps a (s.serveAuth m code f) :=
  h.serveMgt fun h1 => .ite (hf h1) h1.err

theorem Keeps.arriveMsg {src mid bs} (h : Keeps a s) : Keeps a (s.arriveMsg src mid bs) := .ite h h.upd
theorem Keeps.toSign {m} (h : Keeps a s) : Keeps a (s.toSign m) := h.upd
theorem Keeps.openSess {m n idx} (h : Keeps a s) : Keeps a (s.openSess m n idx) := h.upd.setSess.upd

theorem Goes.execIdentitySignature (h : Keeps a s) : Goes a (execIdentitySignature s) :=
  .next (by
    split
    · exact h
    · exact .ite h (.ite h.upd.err (.iteOf (fun h1 => h1.reply) (fun h1 => by
        split
        · exact h1.openSess
        · exact h1.err) (.upd (.ite h.upd.wn h.upd)))))

theorem Goes.execSecure {m} (h : Keeps a s) : Goes a (execSecure m s) :=
  .next (h.serveMgt fun h1 => by
    dsimp only
    split
    · exact h1.err
    · exact .ite h1.err (.ite h1.endSess.err (by
        split
        · exact h1.err
        · exact .ite h1.setSess.ideKeyed.respond (.ite h1.setSess.err h1.setSess.upd))))

theorem Goes.execAuth {m} (h : Keeps a s) : Goes a (execAuth m s) :=
  .next (h.serveMgt fun h1 => .ite h1.endSess.err (by
    split
    · exact h1.setSess
    · exact h1.err))

theorem Goes.execAuthCheckComplete {sess} (h : Keeps a s) : Goes a (execAuthCheckComplete sess s) :=
  .next (by
    split
    · exact h
    · split
      · exact h
      · exact .ite h.setSess.status h.endSess.err)

theorem Goes.execImageWrite {m} (h : Keeps a s) : Goes a (execImageWrite m s) :=
  .next (h.serveAuth fun h1 => by
    dsimp only
    split
    · exact h1.status
    · exact .ite h1.err (.ite h1.err (.ite h1.refuseCmd.err (.ite h1.refuseCmd.status h1.upd.status))))

theorem Goes.execImageEnd {m} (h : Keeps a s) : Goes a (execImageEnd m s) :=
  .next (h.serveAuth fun h1 => by
    dsimp only
    split
    · exact h1.status
    · exact .ite h1.err (.ite h1.refuseCmd.status h1.upd.status))

theorem Keeps.installReply {e} (h : Keeps a s) : Keeps a (s.installReply e) := h.reply

theorem Goes.execJobInstallVerify (h : Keeps a s) : Goes a (execJobInstallVerify s) :=
  .next (by
    split
    · exact h
    · exact .ite h (by
        split
        · exact h.upd.refuseCmd.installReply
        · exact h.wn.upd))

theorem Keeps.installOne {o w v} (h : Keeps a s) : Keeps a (s.installOne o w v).2.2 := by
  unfold State.installOne
  dsimp only
  split
  · exact h.refuse
  · refine .foldlBy (fun b : Nat × Bool × State => b.2.2) h fun h1 _ => ?_
    split
    · exact h1.refuse
    · split <;> exact h1.wreg

theorem Goes.execJobInstallWrite (h : Keeps a s) : Goes a (execJobInstallWrite s) :=
  .next (by
    split
    · exact h
    · exact .ite h (.ite h.installOne.upd h.installOne.upd.installReply))

theorem Goes.execRegWrite {m} (h : Keeps a s) : Goes a (execRegWrite m s) :=
  .next (.ite h (h.serveAuth fun h1 => .ite h1.err (.ite h1.refuse.status (.ite h1.status (.status (.foldl h1 fun h2 _ => h2.mgtWrite))))))

theorem Keeps.sendRecords {vt} (h : Keeps a s) : Keeps a (s.sendRecords vt) := h.upd
theorem Keeps.vector {x q f rp w} (h : Keeps a s) : Keeps a (vector x q f rp w s) := h.presentReg fun h1 => h1.regEff
theorem Keeps.lane1 {x f w} (h : Keeps a s) : Keeps a (lane1 x f w s) := h.vector
theorem Keeps.lane2 {x f w} (h : Keeps a s) : Keeps a (lane2 x f w s) := h.vector
theorem Keeps.lane3 {x f w} (h : Keeps a s) : Keeps a (lane3 x f w s) := h.vector
theorem Keeps.quad2 {x f w} (h : Keeps a s) : Keeps a (quad2 x f w s) := h.vector

theorem Goes.execWtree {x w} (h : Keeps a s) : Goes a (execWtree x w s) :=
  .next (h.presentReg fun h1 => .regEff (.foldlSnd (.foldl h1 fun h2 _ => .foldl h2 fun h3 _ => h3.scrub)
    fun h2 _ => .foldlSnd h2 fun h3 _ => h3.lsBytes))

end

end Sys2Proof.Machine
end

section
/-! PROOF. What every command keeps: one ac, and every row of the opcode table. -/

set_option Elab.async false

namespace Sys2Proof.Machine

section
variable {a s t : State}

theorem Keeps.upset {u} (h : Keeps a s) : Keeps a (s.upset u) := by
  unfold State.upset
  dsimp only
  split
  · exact h.upd
  · exact h.upd
  · exact h.upd
  · exact .ite h.upd h
  · exact h.upd
  · exact h.modCore
  · exact h

theorem Keeps.tickCluster {k} (h : Keeps a s) : Keeps a (s.tickCluster k) := .ite h (.ite h.upd h.addWrap.addWrap)

theorem Keeps.tick (h : Keeps a s) : Keeps a s.tick :=
  .ite h (.ite h.upd (.upset (.upd (.when (.ite h.upd.wf h.upd) fun h1 => .foldl h1 fun h2 _ => h2.tickCluster))))

theorem Goes.exec (h : Keeps a s) (c : Instr) : Goes a (exec c s) := by
  cases c with
  | linkFailed => exact .execLinkFailed h
  | registerWrite => exact .execRegisterWrite h
  | nop => exact .next (h.presentReg fun h1 => h1)
  | umov | umovh => exact .next (h.presentReg fun h1 => h1.regEff)
  | uadd | usub | umul | uand | uor | uxor | ushl | ushr | usar | umin | umax | uslt => exact .next h.uniform2
  | ugid => exact .next h.uniform
  | br | brc | brm => exact .next h.branch
  | exit => exact .next (h.presentReg fun h1 => h1.departures.endGroup)
  | mwait => exact .next (h.present fun h1 => h1)
  | unlistedOpcode => exact .next (.ite h (h.present fun h1 => h1))
  | iadd | isub | iand | ior | ixor | ishl | ishr | isar | fadd | fsub | fmul | fmin | fmax | fdiv => exact .next h.lane2
  | imov | fabs | fneg | itof | utof | ftoi | ftou | widh | widb | fexp2 | flog2 | frcp | frsq | fsqrt => exact .next h.lane1
  | sel | lid | icmp | fcmp | kop | kmovu | umovk | perm | bcst | rdl => exact .next h.vector
  | ffma => exact .next h.lane3
  | wadd | wmul => exact .next h.quad2
  | wtree => exact .execWtree h
  | ld | ldh | ldb => exact .next h.load
  | st => exact .next (h.presentMem fun h1 => .foldl h1 fun h2 _ => h2.storeLine.poisEvent)
  | ldu => exact .next (h.present fun h1 => h1.loadAll.poisEvent)
  | stu => exact .next (h.presentMem fun h1 => h1.storeLine.poisEvent)
  | atom => exact .next (h.presentMem fun h1 => .foldl (.addSat (.ite h1.acquireAt h1)) fun h2 _ => h2.atomAddr.poisEvent)
  | fence => exact .next (h.present fun h1 => .ite h1.acquireAt.modGroup h1)
  | pfset => exact .next (h.presentMem fun h1 => h1.modCore.poisEvent)
  | cvt => exact .next (h.presentReg fun h1 => h1.countCast.regEff)
  | castl => exact .next (h.presentReg fun h1 => h1.elemScrub.getDesc.getDesc.countCast.regEff)
  | casts => exact .next (h.presentReg fun h1 => .poisEvent (.freshen (.foldl h1 fun h2 _ => h2.castBlock)))
  | castm => exact .execCastm h
  | rcset => exact .next (h.presentReg fun h1 => h1.wn.wn.poisEvent)
  | rcget => exact .next (h.present fun h1 => h1.regEff)
  | rcclr => exact .next (h.present fun h1 => h1.clearSlot)
  | mload | mstream | mdrain => exact .next h.matrix
  | lcmk => exact .next (h.present fun h1 => h1.upd)
  | bar | signal => exact .next (h.presentMem fun h1 => h1.atomicLine.send.modGroup.poisEvent)
  | swait => exact .next (h.present fun h1 => h1.send.modGroup.poisEvent)
  | dma => exact .execDma h
  | qput => exact .next (h.presentWait fun h1 => h1.engRead.poisEvent.engSend.upd)
  | qtake => exact .next (h.presentWait fun h1 => h1.qtakePart)
  | rnext => exact .execRnext h
  | rfree => exact .next (h.presentWait fun h1 => h1.setRing.modGroup.poisEvent.ringSettle)
  | loadResponse => exact .execLoadResponse h
  | atomResponse => exact .execAtomResponse h
  | storeAcknowledgement => exact .execStoreAcknowledgement h
  | mloadGrant => exact .execMloadGrant h
  | planeReady | arrayZeroingEnd => exact .next (.ite h.modCore h)
  | mstreamGrant => exact .next h.streamGrant
  | edgeLanding => exact .execEdgeLanding h
  | mdrainGrant => exact .execMdrainGrant h
  | mxclrGate => exact .execMxclrGate h
  | mxclrVec => exact .execMxclrVec h
  | mxclrEdge => exact .execMxclrEdge h
  | mxclrAln => exact .execMxclrAln h
  | rcclrClear => exact .execRcclrClear h
  | exclrAtom => exact .execExclrAtom h
  | exclrIssue => exact .execExclrIssue h
  | syncclrPoll => exact .execSyncclrPoll h
  | launchAccept => exact .execLaunchAccept h
  | splitZeroingEnd => exact .next (.ite h.modCore.wf h)
  | guaranteedModeStart | guaranteedModeEnd => exact .next (.ite h.wn h)
  | sequencerMismatch => exact .next (.ite h (.record (.ite h.quarantine.wn h.quarantine)))
  | quarantineReset => exact .next (.ite h.zeroArray.modCore h)
  | cacheFill => exact .execCacheFill h
  | llcRequest | nearMemoryRequest => exact .next h.homeRow
  | prefetchLineRequest => exact .execPrefetchLineRequest h
  | bankSlot => exact .execBankSlot h
  | dramDataArrival => exact .next (.ite h h.upd.dataAtHome)
  | refreshSlot => exact .execRefreshSlot h
  | scrubSlot => exact .execScrubSlot h
  | backingRestoreComplete => exact .execBackingRestoreComplete h
  | dgctlSnap => exact .execDgctlSnap h
  | msdClrRest => exact .execMsdClrRest h
  | msdClrPois => exact .execMsdClrPois h
  | msdClrLlc => exact .execMsdClrLlc h
  | chnClrPin => exact .execChnClrPin h
  | chnClrScrub => exact .execChnClrScrub h
  | chnClrRs => exact .execChnClrRs h
  | barrierArrival | barrierDeparture | signalUpdate => exact .next h.objectRow
  | pollReturn => exact .execPollReturn h
  | watchdogFault => exact .execWatchdogFault h
  | dmaStart => exact .execDmaStart h
  | dmaSignalUpdate => exact .execDmaSignalUpdate h
  | landingNotice => exact .next (.ite h h.upd.setLand)
  | remoteRequestIntake => exact .execRemoteRequestIntake h
  | flitSlot => exact .execFlitSlot h
  | dataFlit => exact .next (h.flitRow fun h1 => .ite h1.modPort (.ite h1 h1.modPort.addWrap.linkCtl))
  | keepalive => exact .next (.ite h.ctlFlit h.ctlFlit.wn.wf.wf)
  | skip | idle => exact .next h.ctlFlit
  | keepaliveTimeout => exact .next (.ite h.portDown h)
  | electricalIdle => exact .next (.ite h (.ite h.portDown.wf h.wf))
  | portTraining => exact .execPortTraining h
  | moduleStartTimeout => exact .next (.ite h h.modPort.wf)
  | portUp => exact .next (.ite h h.wf)
  | rd | wr | wrm | atomMessage => exact .next h.requestRow
  | floor => exact .next (.ite h h.leaveBuf.floorIn)
  | cmp | rdrsp | atrsp => exact .next (.ite h h.leaveBuf.cmpArrives)
  | unreach => exact .next (.ite h h.leaveBuf.nodeLost)
  | unknownOpcodeMessage => exact .next (.ite h h.leaveBuf.dropMsg.record)
  | floorSend => exact .execFloorSend h
  | copyAgeDiscard => exact .execCopyAgeDiscard h
  | lnkCtlEn => exact .execLnkCtlEn h
  | portReset => exact .execPortReset h
  | lnkClrFlit => exact .execLnkClrFlit h
  | lnkClrDrop => exact .execLnkClrDrop h
  | lnkClrReject => exact .execLnkClrReject h
  | lnkClrDown => exact .execLnkClrDown h
  | lnkClrReplay => exact .execLnkClrReplay h
  | lnkClrFec => exact .execLnkClrFec h
  | lnkNodeWrite => exact .execLnkNodeWrite h
  | lnkRouteWrite => exact .execLnkRouteWrite h
  | jobCommit => exact .execJobCommit h
  | gradientMark => exact .next (.ite h (h.mark fun h1 => .ite h1.modLayer h1.gFlag.gFlag))
  | layerReductionStart => exact .execLayerReductionStart h
  | leaf | part | late | tund => exact .next (h.collRow fun h1 => h1.ladleMsg)
  | lateCreditReturn => exact .next (.ite h (.foldl h fun h1 _ => h1.clearPend.sendColl))
  | layerAbandon => exact .next (.ite h h.abandon)
  | updateMark => exact .next (.ite h (h.mark fun h1 => .ite (.ite h1.modLayer.broadcast h1.modLayer) h1.gFlag.gFlag))
  | ldlClrChk => exact .execLdlClrChk h
  | ldlClrNf => exact .execLdlClrNf h
  | ldlClrLate => exact .execLdlClrLate h
  | ldlClrDup => exact .execLdlClrDup h
  | ldlClrStale => exact .execLdlClrStale h
  | ldlGcfgWrite => exact .execLdlGcfgWrite h
  | runClrDup => exact .execRunClrDup h
  | rblkSend => exact .next (.ite h (.ringSettle (.setRing (.foldl h fun h1 _ => .ite h1.engFault h1.engRead.poisEvent.sendColl))))
  | rblk => exact .execRblk h
  | rcrd => exact .next (h.collRow fun h1 => h1.ringTake fun h2 => .ite h2 h2.setRing)
  | qrdy => exact .next (h.collRow fun h1 => h1.queueTake fun h2 => .ite h2.addSat (.ite h2.engFault h2.upd))
  | qcrd => exact .next (h.collRow fun h1 => h1.queueTake fun h2 => .ite h2.addSat h2.upd)
  | ldlVcfgWrite => exact .execLdlVcfgWrite h
  | bindingNotice => exact .next (.ite h.takeNotice.flushCore h)
  | stepEventNotice => exact .execStepEventNotice h
  | faultNotice => exact .execFaultNotice h
  | stepEndPoll => exact .execStepEndPoll h
  | riserCopyComplete => exact .execRiserCopyComplete h
  | moduleTerm => exact .execModuleTerm h
  | voteUp | voteDecision => exact .next (.ite h (h.collRow fun h1 => h1.voteMsg))
  | voteWaitExpiry => exact .execVoteWaitExpiry h
  | probeTimer => exact .execProbeTimer h
  | jobctlProbe => exact .next (.ite h (h.collRow fun h1 => h1))
  | jobctlAbort => exact .execJobctlAbort h
  | stepCompletion => exact .execStepCompletion h
  | completionNotice => exact .next (.ite h.takeNotice.flushCore.modCore h)
  | strikeQuarantine => exact .next (.ite h.upd.quarantine.record h)
  | replayResponsePoll => exact .execReplayResponsePoll h
  | replayTimeout => exact .execReplayTimeout h
  | pourFinish => exact .execPourFinish h
  | riserRestore => exact .execRiserRestore h
  | evalHold => exact .execEvalHold h
  | tbarWrite => exact .execTbarWrite h
  | cxlMemRead => exact .execCxlMemRead h
  | cxlMemWrite => exact .execCxlMemWrite h
  | identify | getLdInfo | getLdAllocations | setLdAllocations | getQosControl => exact .next (h.fm fun h1 => h1.answer)
  | unsupportedCommand => exact .next (.ite (.ite h (h.fm fun h1 => h1.answer)) (.ite h (h.mbox fun h1 => h1.answer)))
  | getEventRecords | getEventInterruptPolicy | getFwInfo | getSupportedLogs | getLog | identifyMemoryDevice | getHealthInfo
    | getPoisonList => exact .next (h.mbox fun h1 => h1.answer)
  | clearEventRecords => exact .next (h.mbox fun h1 => .answer (.ite h1.upd h1))
  | setEventInterruptPolicy => exact .next (h.mbox fun h1 => h1.upd.answer)
  | clearPoison => exact .execClearPoison h
  | discovery | cxlTableAccess => exact .next (.ite h.answer h)
  | ideIntegrityFailure => exact .next (.ite (.ite h h.ideFails) (.ite h.ideFails h.freeB.ideFails))
  | queueEnable => exact .execQueueEnable h
  | sqDoorbell => exact .execSqDoorbell h
  | cqHeadWrite => exact .execCqHeadWrite h
  | descriptorTake => exact .next (.ite h h.readDesc.wn.seqCheck)
  | seqReread => exact .execSeqReread h
  | queueNop => exact .execQueueNop h
  | launch | glaunch => exact .next h.launch
  | queueSignal => exact .execQueueSignal h
  | wait => exact .execWait h
  | waitPoll => exact .execWaitPoll h
  | waitTimeout => exact .execWaitTimeout h
  | copy => exact .execCopy h
  | save => exact .execSave h
  | restore => exact .execRestore h
  | launchComplete => exact .execLaunchComplete h
  | imodTimer => exact .next (.ite h h.setQ.raiseVec)
  | shakeOut => exact .execShakeOut h
  | shakeOutDrainEnd => exact .execShakeOutDrainEnd h
  | ldReset => exact .next (.ite h h.ldConfigReset.shakeOut.setQ)
  | qclrHerr => exact .execQclrHerr h
  | cxlPerst => exact .next (.ite h.wf (.foldl h.wf.linkDown.wf fun h1 _ => h1.ldConfigReset))
  | cxlLinkStateChange => exact .next (.ite h.linkDown (.ite h h.wn.wf))
  | powerOnResetRelease => exact .next (.ite h (.ite h.upd h.upd.startBoot))
  | parameterTableRead => exact .next (.ite h (.ite h.setBoot h.bootStop))
  | slotHeadersRead => exact .execSlotHeadersRead h
  | imageRead => exact .next (.ite h h.setBoot)
  | signatureVerify => exact .next (.ite h (.ite h.setBoot h.nextCand))
  | pllLockAndLinkTraining => exact .next (.ite h (.ite h.bootStop (.setBoot (.modClusters (.foldl h.wf fun h1 _ => h1.wn)))))
  | lpddr6Training => exact .next (.ite h (.ite h.bootStop (.ite h.setBoot h.nextCand)))
  | dramZeroing => exact .execDramZeroing h
  | registerLoad => exact .execRegisterLoad h
  | imageBegin => exact .next (h.serveAuth fun h1 => .ite h1.err (.ite h1.err (.ite h1.refuseCmd.status h1.upd.status)))
  | imageWrite => exact .execImageWrite h
  | imageEnd => exact .execImageEnd h
  | getId | telem => exact .next (h.serveMgt fun h1 => h1.reply)
  | getMeas => exact .next (h.serveMgt fun h1 => .ite h1.err h1.toSign)
  | keyExch => exact .next (h.serveMgt fun h1 => .ite h1.err (.ite h1.err h1.toSign))
  | secure => exact .execSecure h
  | endSession => exact .next (h.serveMgt fun h1 => .ite h1.reply.endSess h1.err)
  | unknownCode => exact .next (.ite h h.taken.err)
  | identitySignature => exact .execIdentitySignature h
  | jobInstall => exact .next (h.serveMgt fun h1 => .ite h1.err h1.upd)
  | jobInstallVerify => exact .execJobInstallVerify h
  | jobInstallWrite => exact .execJobInstallWrite h
  | auth => exact .execAuth h
  | authCheckComplete => exact .execAuthCheckComplete h
  | regRead => exact .next (.ite h (h.serveMgt fun h1 => .ite h1.err (.ite h1.reply (.ite h1.reply h1.readRegs.reply))))
  | regWrite => exact .execRegWrite h
  | recGet => exact .next (h.serveMgt fun h1 => .ite h1.err (.reply (.ite h1.upd h1)))
  | recAck => exact .next (h.serveMgt fun h1 => .ite h1.err (.status (.ite h1 h1.upd.wn)))
  | telemetrySend => exact .next (.ite h.upd h)
  | managementDatagram => exact .next (.ite h (.ite h (.ite h.upd h.upd.arriveMsg)))
  | reassemblyTimeout => exact .next h.upd
  | neighbourDiscovery => exact .next (.ite h (.ite (.ite h.upd h) (.ite h.upd h)))
  | setdasa | entdaa | inputRising | alwaysOnSupplyStart => exact .next (.ite h h.upd)
  | fatalRecordResend => exact .next (.ite h.sendRecords h)
  | ethernetLinkUp => exact .next (.ite h h.wf.sendRecords)
  | errClrRdrop => exact .execErrClrRdrop h
  | errClrCc => exact .execErrClrCc h
  | errClrLs => exact .execErrClrLs h
  | pllLockLoss => exact .execPllLockLoss h
  | crystalLoss => exact .next (.ite h.moduleReset h)
  | wakeEvent => exact .next (.ite h (.ite (.ite h.modCore h) (.ite h (.ite h.wakeCluster.modCore h.wakeCluster))))
  | wakeComplete => exact .execWakeComplete h
  | holdEntry => exact .next (.ite h h.modCore.wf)
  | napEntry | restEntry => exact .next (.ite h h.modClusters.wf)
  | coldEntry => exact .next (.ite h h.toCold)
  | pwrCmdWake => exact .execPwrCmdWake h
  | pwrCmdStandby => exact .execPwrCmdStandby h
  | rotaStop => exact .next (.ite h (.ite h.upd.wf h.upd))
  | standbyExit => exact .next h.standbyEnds
  | rotaRestart => exact .next (.ite h (.foldl (.upd (.wf (.wf (.foldl h.upd fun h1 _ => h1.rotaNext)))) fun h1 _ => h1.serveHeld))
  | powerWindowEnd => exact .next (.ite h (.ite h.wn.wn.upd.setLevel.wf.record h.wn.wn.upd.setLevel.wf))
  | thermalTrip => exact .next (.ite h (.ite (.ite h.trip h) (.ite h.trip h)))
  | rstCmdModule => exact .execRstCmdModule h
  | moduleResetPin => exact .next (.ite h.upd h.upd.moduleReset)
  | undervoltage | overvoltage | overcurrent => exact .next h.inputEvent
  | powerOnResetAssert => exact .next (.ite h h.porState)
  | hardwareShutdown => exact .next (.ite h h.railsOff.upd.record)
  | leakDetected => exact .next (.ite h (.ite h.upd.wf h.upd.wf.trip))
  | cageInsertion => exact .next (.ite h (.ite h.modPort.wf.wf h.modPort.wf))
  | cageRemoval => exact .next (.ite h h.modPort.wf.wf)
  | cageOvercurrent => exact .next (.ite h h.modPort.portDown.record)
  | moduleResetRelease => exact .next (.ite h (.startBoot (.upd (.ite h h.addFld))))
  | alwaysOnSupplyLoss => exact .next (.ite h h.porState.upd)
  | apertureAccess => exact .next h.coreRow
  | broadcastWaitExpiry => exact .next (.ite h h.modLayer.gFlag.gUpdate)
  | cmisModuleReady => exact .next (.ite h h.modPort)
  | configurationRequest => exact .next (.ite h (.ite h.upd (.ite h (.ite h.upd (.ite h.upd h.upd.sendPending)))))
  | msixTableWrite => exact .execMsixTableWrite h
  | ethernetLinkDown => exact .next h.wf

end

/-- Settles O60: the front command goes from the state without it, and an empty queue lets one ac pass. -/
theorem stepKeepsInvariant : Obligations.StepKeepsInvariant := by
  unfold Obligations.StepKeepsInvariant
  intro s
  cases hq : s.pending with
  | nil =>
    have h := (Keeps.refl s).tick
    exact ⟨s.tick, by simp only [step, hq], h.1.trans hq, h.inv⟩
  | cons c rest =>
    obtain ⟨t, ht, h⟩ := Goes.exec (Keeps.refl { s with pending := rest }) c
    exact ⟨t, by simp only [step, hq, ht], h.1, fun i => h.inv ⟨i.mem, i.ports⟩⟩

end Sys2Proof.Machine
end

section
/-! PROOF. Fields of numbers and of registers (R12, R17): what a field reads as after it, or another field, is written. -/

set_option Elab.async false

namespace Sys2Proof.Machine

/-! ### Fields of a number -/

theorem testBit_fld (v hi lo k : Nat) : (fld v hi lo).testBit k = (decide (k < hi + 1 - lo) && v.testBit (lo + k)) := by
  rw [fld, Nat.testBit_mod_two_pow, Nat.testBit_shiftRight]

theorem testBit_setFld {hi lo : Nat} (v x k : Nat) (h : lo ≤ hi + 1) :
    (setFld v hi lo x).testBit k
      = if k < lo then v.testBit k else if k ≤ hi then x.testBit (k - lo) else v.testBit k := by
  have hb : 2 ^ lo * (x % 2 ^ (hi + 1 - lo)) + v % 2 ^ lo < 2 ^ (hi + 1) := by
    calc _ < 2 ^ lo * (x % 2 ^ (hi + 1 - lo) + 1) := by
            rw [Nat.mul_add_one]
            exact Nat.add_lt_add_left (Nat.mod_lt _ (Nat.two_pow_pos _)) _
      _ ≤ 2 ^ lo * 2 ^ (hi + 1 - lo) := Nat.mul_le_mul_left _ (Nat.mod_lt _ (Nat.two_pow_pos _))
      _ = 2 ^ (hi + 1) := by rw [← Nat.pow_add, Nat.add_sub_cancel' h]
  rw [setFld, Nat.shiftLeft_eq, Nat.shiftLeft_eq, Nat.add_assoc, Nat.mul_comm, Nat.mul_comm (x % _),
    Nat.testBit_two_pow_mul_add _ hb, Nat.testBit_two_pow_mul_add _ (Nat.mod_lt _ (Nat.two_pow_pos _)), Nat.testBit_shiftRight,
    Nat.testBit_mod_two_pow, Nat.testBit_mod_two_pow]
  rcases Nat.lt_or_ge k lo with h1 | h1
  · simp [h1, Nat.lt_of_lt_of_le h1 h]
  · rcases Nat.lt_or_ge hi k with h2 | h2
    · simp [Nat.not_lt.2 h1, Nat.not_lt.2 (Nat.succ_le_of_lt h2), Nat.not_le.2 h2, Nat.add_sub_cancel' (Nat.succ_le_of_lt h2)]
    · have : k - lo < hi + 1 - lo := by omega
      simp [Nat.not_lt.2 h1, Nat.lt_succ_of_le h2, h2, this]

theorem fld_setFld_same {hi lo : Nat} (v x : Nat) (h : lo ≤ hi) : fld (setFld v hi lo x) hi lo = x % 2 ^ (hi + 1 - lo) := by
  refine Nat.eq_of_testBit_eq fun k => ?_
  rw [testBit_fld, testBit_setFld _ _ _ (Nat.le_succ_of_le h), Nat.testBit_mod_two_pow]
  by_cases hk : k < hi + 1 - lo
  · simp [hk, show lo + k ≤ hi by omega]
  · simp [hk]

/-- A field that shares no bit with the one written. -/
theorem fld_setFld_other {hi lo hi' lo' : Nat} (v x : Nat) (h : lo ≤ hi + 1) (hd : hi' < lo ∨ hi < lo') :
    fld (setFld v hi lo x) hi' lo' = fld v hi' lo' := by
  refine Nat.eq_of_testBit_eq fun k => ?_
  rw [testBit_fld, testBit_fld, testBit_setFld _ _ _ h]
  by_cases hk : k < hi' + 1 - lo'
  · rcases hd with hd | hd
    · simp [show lo' + k < lo by omega]
    · simp [show ¬lo' + k ≤ hi by omega]
  · simp [hk]

theorem setFld_lt {v hi lo x n : Nat} (hv : v < 2 ^ n) (h : lo ≤ hi + 1) (hn : hi < n) : setFld v hi lo x < 2 ^ n := by
  refine Nat.lt_pow_two_of_testBit _ fun k hk => ?_
  have := Nat.testBit_lt_two_pow (Nat.lt_of_lt_of_le hv (Nat.pow_le_pow_right (by decide) hk))
  simp [testBit_setFld _ _ _ h, this, show ¬k ≤ hi by omega]

theorem fld_mod (v hi lo n : Nat) (h : hi < n) : fld (v % 2 ^ n) hi lo = fld v hi lo := by
  refine Nat.eq_of_testBit_eq fun k => ?_
  rw [testBit_fld, testBit_fld, Nat.testBit_mod_two_pow]
  by_cases hk : k < hi + 1 - lo
  · simp [show lo + k < n by omega]
  · simp [hk]

theorem fld_lt (v hi lo : Nat) : fld v hi lo < 2 ^ (hi + 1 - lo) := Nat.mod_lt _ (Nat.two_pow_pos _)

theorem fld_bit (v b : Nat) : fld v b b = bit v b := by simp [fld, bit]

/-! ### Fields of a register -/

theorem State.rn_lt (s : State) (r : Reg) (i j : Nat) : s.rn r i j < 2 ^ 64 := (s.rd r i j).isLt

theorem State.rf_of_rn {s t : State} {r : Reg} {i j : Nat} (h : t.rn r i j = s.rn r i j) (hi lo : Nat) :
    t.rf r i j hi lo = s.rf r i j hi lo := congrArg (fld · hi lo) h

theorem State.rf_of_regs {s t : State} (h : t.regs = s.regs) (r : Reg) (i j hi lo : Nat) : t.rf r i j hi lo = s.rf r i j hi lo :=
  State.rf_of_rn (State.rn_of_regs h r i j) hi lo

theorem State.rf_wn_same (s : State) (r : Reg) (i j v : Nat) {hi : Nat} (lo : Nat) (h : hi < 64) :
    (s.wn r i j v).rf r i j hi lo = fld v hi lo := by
  rw [State.rf, State.rn_wn_same, fld_mod _ _ _ _ h]

theorem State.rf_wf_same (s : State) (r : Reg) (i j v : Nat) {hi lo : Nat} (h : lo ≤ hi) (h64 : hi < 64) :
    (s.wf r i j hi lo v).rf r i j hi lo = v % 2 ^ (hi + 1 - lo) := by
  rw [State.wf, State.rf_wn_same _ _ _ _ _ _ h64, fld_setFld_same _ _ h]

/-- A write of one field leaves the fields apart from it in the same register alone. -/
theorem State.rf_wf_apart (s : State) (r : Reg) (i j v : Nat) {hi lo hi' lo' : Nat} (h : lo ≤ hi) (h64 : hi' < 64)
    (hd : hi' < lo ∨ hi < lo') : (s.wf r i j hi lo v).rf r i j hi' lo' = s.rf r i j hi' lo' := by
  rw [State.wf, State.rf_wn_same _ _ _ _ _ _ h64, fld_setFld_other _ _ (Nat.le_succ_of_le h) hd, State.rf]

theorem State.rn_wf_other (s : State) {r r' : Reg} (h : r' ≠ r) (i j hi lo v i' j' : Nat) :
    (s.wf r i j hi lo v).rn r' i' j' = s.rn r' i' j' := State.rn_wn_other s h ..

theorem State.rn_wf_elsewhere (s : State) {r r' : Reg} {i j i' j' : Nat} (hi lo v : Nat) (hj : j < 2 ^ 20) (hj' : j' < 2 ^ 20)
    (h : (r', i', j') ≠ (r, i, j)) : (s.wf r i j hi lo v).rn r' i' j' = s.rn r' i' j' :=
  State.rn_wn_elsewhere s _ hj hj' h

end Sys2Proof.Machine
end

section
/-! PROOF. What serving an access at its point of coherence leaves alone (R195 to R231, R250): the relation `HomeOnly`, and that it holds
over each operation of a home, of an engine's access, and of an error record. -/

set_option Elab.async false

namespace Sys2Proof.Machine

/-- The registers in which homes, channels, local stores and the error ring count. -/
def homeRegs : List Reg :=
  [.RSEQ, .RDROP, .LSCORR, .DGSUM, .DGFLAG, .POIS, .PATROL, .SCRUB, .RSPOIS, .RSCORR, .RSUNC, .PINSYM, .LLCHIT, .LLCMISS]

/-- From `s` to `t` only what an access at its point of coherence may change has changed: memory and its poison, the homes' own state,
the counters of `homeRegs`, what is logged and sent; and, where `b` says so, the prefetch streams of cores. No request in flight and no
response is lost. -/
structure HomeOnly (b : Bool) (s t : State) : Prop where
  regs : ∀ r i j, r ∉ homeRegs → t.rn r i j = s.rn r i j
  cores : ∀ g, ∃ pf, t.core g = { s.core g with pf := pf }
  still : b = false → t.cores = s.cores
  pat : t.pat = s.pat
  down : t.down = s.down
  queue : t.queue = s.queue
  saved : t.saved = s.saved
  stby : t.stby = s.stby
  pins : t.pins = s.pins
  pwr : t.pwr = s.pwr
  cxlHeld : t.cxlHeld = s.cxlHeld
  slot : t.m.slot = s.m.slot
  selfref : t.m.selfref = s.m.selfref
  reqs : s.reqs ⊆ t.reqs
  resps : s.resps ⊆ t.resps

section
variable {b : Bool} {a s t : State}

theorem HomeOnly.refl (s : State) : HomeOnly b s s :=
  ⟨fun _ _ _ _ => rfl, fun g => ⟨(s.core g).pf, rfl⟩, fun _ => rfl, rfl, rfl, rfl, rfl, rfl, rfl, rfl, rfl, rfl, rfl,
    List.Subset.refl _, List.Subset.refl _⟩

/-! ### Updates of the state's fields -/

/-- The fields that an access may change. -/
theorem HomeOnly.upd {mem pois notices records ldlog pba out nextId freeCtr fab m} (h : HomeOnly b a s)
    (hslot : m.slot = s.m.slot := by rfl) (hself : m.selfref = s.m.selfref := by rfl) :
    HomeOnly b a { s with mem := mem, pois := pois, notices := notices, records := records, ldlog := ldlog, pba := pba, out := out,
                          nextId := nextId, freeCtr := freeCtr, fab := fab, m := m } :=
  ⟨h.regs, h.cores, h.still, h.pat, h.down, h.queue, h.saved, h.stby, h.pins, h.pwr, h.cxlHeld, hslot.trans h.slot,
    hself.trans h.selfref, h.reqs, h.resps⟩

/-- Requests may be sent. -/
theorem HomeOnly.updReqs {reqs nextId} (h : HomeOnly b a s) : HomeOnly b a { s with reqs := s.reqs ++ reqs, nextId := nextId } :=
  ⟨h.regs, h.cores, h.still, h.pat, h.down, h.queue, h.saved, h.stby, h.pins, h.pwr, h.cxlHeld, h.slot, h.selfref,
    fun _ hq => List.mem_append_left _ (h.reqs hq), h.resps⟩

/-- Responses may come back, and the fabric may change. -/
theorem HomeOnly.updResps {resps fab} (h : HomeOnly b a s) : HomeOnly b a { s with resps := s.resps ++ resps, fab := fab } :=
  ⟨h.regs, h.cores, h.still, h.pat, h.down, h.queue, h.saved, h.stby, h.pins, h.pwr, h.cxlHeld, h.slot, h.selfref, h.reqs,
    fun _ hp => List.mem_append_left _ (h.resps hp)⟩

/-- The prefetch streams of a core may change. -/
theorem HomeOnly.modPf {g f} (h : HomeOnly true a s) (hf : ∀ c : Core, ∃ pf, f c = { c with pf := pf }) :
    HomeOnly true a (s.modCore g f) := by
  refine ⟨h.regs, fun g' => ?_, fun e => absurd e (by decide), h.pat, h.down, h.queue, h.saved, h.stby, h.pins, h.pwr, h.cxlHeld,
    h.slot, h.selfref, h.reqs, h.resps⟩
  by_cases hg : g' = g
  · subst hg
    obtain ⟨pf, hpf⟩ := h.cores g'
    obtain ⟨pf', hpf'⟩ := hf (s.core g')
    exact ⟨pf', by rw [State.modCore, State.core_setCore_same, hpf', hpf]⟩
  · rw [State.modCore, State.core_setCore_other _ _ hg]
    exact h.cores g'

theorem HomeOnly.wr {r i j v} (h : HomeOnly b a s) (hr : r ∈ homeRegs := by decide) : HomeOnly b a (s.wr r i j v) :=
  ⟨fun r' i' j' h' => (congrArg BitVec.toNat (State.rd_wr_other s v (Reg.key_ne (ne_of_mem_of_not_mem hr h').symm i j i' j'))).trans
      (h.regs r' i' j' h'),
    h.cores, h.still, h.pat, h.down, h.queue, h.saved, h.stby, h.pins, h.pwr, h.cxlHeld, h.slot, h.selfref, h.reqs, h.resps⟩

theorem HomeOnly.wn {r i j v} (h : HomeOnly b a s) (hr : r ∈ homeRegs := by decide) : HomeOnly b a (s.wn r i j v) := h.wr hr
theorem HomeOnly.wf {r i j hi lo v} (h : HomeOnly b a s) (hr : r ∈ homeRegs := by decide) : HomeOnly b a (s.wf r i j hi lo v) := h.wr hr
theorem HomeOnly.addSat {r i j w n} (h : HomeOnly b a s) (hr : r ∈ homeRegs := by decide) : HomeOnly b a (s.addSat r i j w n) := h.wr hr
theorem HomeOnly.addFld {r i j hi lo n} (h : HomeOnly b a s) (hr : r ∈ homeRegs := by decide) : HomeOnly b a
    (s.addFld r i j hi lo n) := h.wr hr

/-! ### Branches and loops -/

theorem HomeOnly.ite {c : Prop} [Decidable c] (hs : HomeOnly b a s) (ht : HomeOnly b a t) : HomeOnly b a (if c then s else t) := by
  split
  · exact hs
  · exact ht

/-- Two ways on from one state. -/
theorem HomeOnly.iteOf {u : State} {c : Prop} [Decidable c] (hs : HomeOnly b a u → HomeOnly b a s) (ht : HomeOnly b a u → HomeOnly b a t)
    (h : HomeOnly b a u) : HomeOnly b a (if c then s else t) :=
  .ite (hs h) (ht h)

theorem HomeOnly.iteSnd {α : Type} {p q : α × State} {c : Prop} [Decidable c] (hp : HomeOnly b a p.2) (hq : HomeOnly b a q.2) :
    HomeOnly b a (if c then p else q).2 := by
  split
  · exact hp
  · exact hq

theorem HomeOnly.foldlBy {α β : Type} {f : β → α → β} {l : List α} {i : β} (st : β → State) (h : HomeOnly b a (st i))
    (hf : ∀ {i : β}, HomeOnly b a (st i) → ∀ x, HomeOnly b a (st (f i x))) : HomeOnly b a (st (l.foldl f i)) := by
  induction l generalizing i with
  | nil => exact h
  | cons x l ih => exact ih (hf h x)

theorem HomeOnly.foldl {α : Type} {f : State → α → State} {l : List α} (h : HomeOnly b a s)
    (hf : ∀ {s}, HomeOnly b a s → ∀ x, HomeOnly b a (f s x)) : HomeOnly b a (l.foldl f s) :=
  .foldlBy id h hf

/-! ### Error records, notices and the local store -/

theorem HomeOnly.freeB (h : HomeOnly b a s) : HomeOnly b a (s.freeB).2 := h.upd
theorem HomeOnly.notify {n} (h : HomeOnly b a s) : HomeOnly b a (s.notify n) := h.upd
theorem HomeOnly.stepEvent {f flag} (h : HomeOnly b a s) : HomeOnly b a (s.stepEvent f flag) := h.notify
theorem HomeOnly.send {mk} (h : HomeOnly b a s) : HomeOnly b a (s.send mk) := h.updReqs
theorem HomeOnly.put {o mask bs} (h : HomeOnly b a s) : HomeOnly b a (s.put o mask bs) := h.upd
theorem HomeOnly.poison {o n} (h : HomeOnly b a s) : HomeOnly b a (s.poison o n) := h.upd
theorem HomeOnly.clean {o n mask} (h : HomeOnly b a s) : HomeOnly b a (s.clean o n mask) := h.upd

theorem HomeOnly.lsBytes {g o n} (h : HomeOnly b a s) : HomeOnly b a (s.lsBytes g o n).2 :=
  .iteSnd h (.foldlBy Prod.snd h fun h1 _ => .iteSnd h1.upd h1)

theorem HomeOnly.seen {o n} (h : HomeOnly b a s) : HomeOnly b a (s.seen o n).2 := by
  unfold State.seen
  split
  · exact h.lsBytes
  · exact h

theorem HomeOnly.keep {r} (h : HomeOnly b a s) : HomeOnly b a (s.keep r) :=
  .ite h.upd (by
    split
    · exact h.upd
    · exact h.addSat)

theorem HomeOnly.raiseVec {ld v} (h : HomeOnly b a s) : HomeOnly b a (s.raiseVec ld v) := .ite h.upd h.upd
theorem HomeOnly.logTo {f cls rseq} (h : HomeOnly b a s) : HomeOnly b a (s.logTo f cls rseq) := .ite h.upd.raiseVec h.upd

theorem HomeOnly.record {cls code src inst flask d0 d1 d2} (h : HomeOnly b a s) : HomeOnly b a
    (s.record cls code src inst flask d0 d1 d2) := by
  unfold State.record
  dsimp only
  split
  · exact .logTo (.wn (.keep (.ite h.upd h)))
  · exact .wn (.keep (.ite h.upd h))

theorem HomeOnly.corr {r i j src inst kind} (h : HomeOnly b a s) (hr : r ∈ homeRegs := by decide) : HomeOnly b a
    (s.corr r i j src inst kind) :=
  .ite (h.addSat hr).record (h.addSat hr)

theorem HomeOnly.scrubWord {w} (h : HomeOnly b a s) : HomeOnly b a (s.scrubWord w) := by
  unfold State.scrubWord
  split
  · exact h
  · exact .ite (.corr h.upd) h.upd.poison.record

theorem HomeOnly.scrub {o n} (h : HomeOnly b a s) : HomeOnly b a (s.scrub o n) := .ite h (.foldl h fun h1 _ => h1.scrubWord)

theorem HomeOnly.lsWrite {o mask bs pois} (h : HomeOnly b a s) : HomeOnly b a (s.lsWrite o mask bs pois) := by
  unfold State.lsWrite
  extract_lets n whole touched ws s1 s2
  have h1 : HomeOnly b a s1 := .ite h (.foldl h fun h1 _ => .ite h1.upd h1.scrubWord)
  exact .ite h1.put.upd h1.put.upd

/-! ### Applications at the point of coherence -/

theorem HomeOnly.digest {f off size op recs pois} (h : HomeOnly b a s) : HomeOnly b a (s.digest f off size op recs pois) :=
  .ite (by
    split
    · exact h
    · exact .ite (.stepEvent (.wf (.wr h))) (.wr h)) h

theorem HomeOnly.sealCheck {off} (h : HomeOnly b a s) : HomeOnly b a (s.sealCheck off) := .ite (.ite h.stepEvent h) h
theorem HomeOnly.overtake {line} (h : HomeOnly b a s) : HomeOnly b a (s.overtake line) := h.upd

theorem HomeOnly.pocWrite {f off mask bs pois} (h : HomeOnly b a s) : HomeOnly b a (s.pocWrite f off mask bs pois) :=
  .ite (.ite h.digest.sealCheck.put.overtake.poison h.digest.sealCheck.put.overtake.clean) h.lsWrite

theorem HomeOnly.pocRead {off n} (h : HomeOnly b a s) : HomeOnly b a (s.pocRead off n).2.2 := h.scrub.seen

theorem HomeOnly.pocAtom {f off sz aop ops pois} (h : HomeOnly b a s) : HomeOnly b a (s.pocAtom f off sz aop ops pois).2.2 :=
  .ite (.ite h.pocRead.digest.sealCheck.put.overtake.poison h.pocRead.digest.sealCheck.put.overtake) h.pocRead.digest.sealCheck.lsWrite

theorem HomeOnly.pocBar {f off aop n} (h : HomeOnly b a s) : HomeOnly b a (s.pocBar f off aop n).2.2.2 :=
  .ite h.pocRead.digest.sealCheck.put.overtake h.pocRead.digest.sealCheck.lsWrite

/-! ### The channel and the poison list -/

theorem HomeOnly.bankPush {line write} (h : HomeOnly b a s) : HomeOnly b a (s.bankPush line write) := h.upd
theorem HomeOnly.poisUsed {die} (h : HomeOnly b a s) : HomeOnly b a (s.poisUsed die) := h.wf
theorem HomeOnly.unlist {line} (h : HomeOnly b a s) : HomeOnly b a (s.unlist line) := h.upd.poisUsed
theorem HomeOnly.dramWrite {line} (h : HomeOnly b a s) : HomeOnly b a (s.dramWrite line) := .ite h.upd (.unlist h.upd)

theorem HomeOnly.bankWrite {line} (h : HomeOnly b a s) : HomeOnly b a (s.bankWrite line) :=
  .ite (.wf h.dramWrite.upd) h.dramWrite

theorem HomeOnly.bankTake {line write} (h : HomeOnly b a s) : HomeOnly b a (s.bankTake line write) := h.upd
theorem HomeOnly.flushBank {line} (h : HomeOnly b a s) : HomeOnly b a (s.flushBank line) := .ite h.bankTake.bankWrite h

theorem HomeOnly.countAccess {c k} (h : HomeOnly b a s) : HomeOnly b a (s.countAccess c k) := by
  unfold State.countAccess
  split
  · exact h
  · exact h.addSat
  · exact .corr (.foldl h fun h1 _ => h1.addSat)
  · exact h.addSat

theorem HomeOnly.decodeLine {line} (h : HomeOnly b a s) : HomeOnly b a (s.decodeLine line).2 := h.countAccess.countAccess

theorem HomeOnly.leftover {line skip} (h : HomeOnly b a s) : HomeOnly b a (s.leftover line skip) :=
  .ite h (.foldl (.foldl h fun h1 _ => .ite h1.put h1) fun h1 _ => .ite h1.put h1)

theorem HomeOnly.backing {line} (h : HomeOnly b a s) : HomeOnly b a (s.backing line) := .ite h (.ite h.upd (.ite h (.send h.upd)))

theorem HomeOnly.listLine {line} (h : HomeOnly b a s) : HomeOnly b a (s.listLine line) :=
  .ite h.upd (.ite (.poisUsed h.upd) (.record (.wf h.upd)))

theorem HomeOnly.poisonLine {line flask} (h : HomeOnly b a s) : HomeOnly b a (s.poisonLine line flask) := h.listLine.record.backing
theorem HomeOnly.scrubPush {line pois} (h : HomeOnly b a s) : HomeOnly b a (s.scrubPush line pois) := .ite h.upd h.addFld

/-! ### The last-level cache -/

theorem HomeOnly.llcTouch {die set way} (h : HomeOnly b a s) : HomeOnly b a (s.llcTouch die set way) := h.upd
theorem HomeOnly.llcDrop {line} (h : HomeOnly b a s) : HomeOnly b a (s.llcDrop line) := h.upd
theorem HomeOnly.llcDirty {line} (h : HomeOnly b a s) : HomeOnly b a (s.llcDirty line) := h.upd
theorem HomeOnly.standLine {line flask} (h : HomeOnly b a s) : HomeOnly b a (s.standLine line flask) := h.llcDirty.record

theorem HomeOnly.sectorCheck {e ks whole} (h : HomeOnly b a s) : HomeOnly b a (s.sectorCheck e ks whole) := by
  unfold State.sectorCheck
  extract_lets words two m s1 c
  have h1 : HomeOnly b a s1 := .ite h h.upd
  exact .ite h1 (.ite h1.listLine.record.backing h1.llcDrop)

theorem HomeOnly.evict {v} (h : HomeOnly b a s) : HomeOnly b a (s.evict v) := .llcDrop (.ite h.sectorCheck.bankPush h)

theorem HomeOnly.install {line dirty} (h : HomeOnly b a s) : HomeOnly b a (s.install line dirty) := by
  unfold State.install
  split
  · exact .ite h.llcTouch.llcDirty h.llcTouch
  · exact .llcTouch (.upd (by
      split
      · exact h.evict
      · exact h))

theorem HomeOnly.fetchLine {line flask skip keep} (h : HomeOnly b a s) : HomeOnly b a (s.fetchLine line flask skip keep).2 := by
  have h1 : HomeOnly b a (s.decodeLine line).2 := h.decodeLine
  have h2 : HomeOnly b a ((s.decodeLine line).2.leftover line skip) := h1.leftover
  exact .iteSnd (.ite h1.standLine h1) (.iteSnd (.ite h2.poisonLine.scrubPush h2.poisonLine)
    (.iteSnd (.ite (.scrubPush (.ite h2.upd h2.upd)) (.ite h2.upd h2.upd)) (.ite h2.upd h2.upd)))

/-! ### Requests at their home, and an engine's accesses -/

theorem HomeOnly.txPush {p flask m} (h : HomeOnly b a s) : HomeOnly b a (s.txPush p flask m) := h.upd

theorem HomeOnly.sendBack {flask off m} (h : HomeOnly b a s) : HomeOnly b a (s.sendBack flask off m) := by
  unfold State.sendBack
  split
  · exact h.txPush
  · exact h

theorem HomeOnly.complete {q data pw olds status} (h : HomeOnly b a s) : HomeOnly b a (s.complete q data pw olds status) := by
  unfold State.complete
  dsimp only
  split
  · exact .ite (by
      split
      · exact h.updResps
      · exact h.upd) (.sendBack h.upd)
  · exact h.updResps

theorem HomeOnly.landed {q} (h : HomeOnly b a s) : HomeOnly b a (s.landed q) := by
  unfold State.landed
  split
  · exact h.notify
  · exact h

theorem HomeOnly.applyWrite {q} (h : HomeOnly b a s) : HomeOnly b a (s.applyWrite q) := h.pocWrite.landed

theorem HomeOnly.pfDone {q} (h : HomeOnly true a s) : HomeOnly true a (s.pfDone q) := by
  unfold State.pfDone
  split
  · refine h.modPf fun c => ?_
    split
    · exact ⟨_, rfl⟩
    · exact ⟨c.pf, rfl⟩
  · exact h

theorem HomeOnly.serve {q} (h : HomeOnly true a s) : HomeOnly true a (s.serve q) := by
  unfold State.serve
  dsimp only
  split
  · exact .complete (.seen (.ite h.scrub (.foldl h fun h1 _ => h1.scrub)))
  · exact .complete (.seen (.ite h.scrub (.foldl h fun h1 _ => h1.scrub)))
  · exact .ite h.seen.complete h.pfDone
  · exact h.applyWrite.complete
  · exact h.pocAtom.complete
  · exact h.pocAtom.complete
  · exact h.pocBar.complete
  · exact h.pocBar.complete

/-- An update at its home ends no prefetch. -/
theorem HomeOnly.serveUpdate {q} (h : HomeOnly b a s) (hq : q.kind.updates = true) : HomeOnly b a (s.serve q) := by
  unfold State.serve
  dsimp only
  split
  · simp_all [RKind.updates]
  · simp_all [RKind.updates]
  · simp_all [RKind.updates]
  · exact h.applyWrite.complete
  · exact h.pocAtom.complete
  · exact h.pocAtom.complete
  · exact h.pocBar.complete
  · exact h.pocBar.complete

theorem HomeOnly.dataAtHome {line} (h : HomeOnly true a s) : HomeOnly true a (s.dataAtHome line) :=
  .iteOf (fun h1 => .ite h1.bankPush h1) (fun h1 => h1.install) (by
    split
    · exact .foldl (.ite (.complete (.fetchLine h.upd)) (.serve (.fetchLine h.upd))) fun h1 _ => h1.serve
    · exact .fetchLine h.upd)

theorem HomeOnly.settleLine {line} (h : HomeOnly true a s) : HomeOnly true a (s.settleLine line) := .ite
    (.dataAtHome h.flushBank.bankTake.upd) h

theorem HomeOnly.engLine {line flask off n write} (h : HomeOnly true a s) : HomeOnly true a (s.engLine line flask off n write) := by
  unfold State.engLine
  extract_lets die whole settled checked hit miss
  have h1 : HomeOnly true a checked := by
    unfold checked
    split
    · exact h.settleLine.sectorCheck
    · exact h.settleLine
  split
  · have h2 : HomeOnly true a hit := h1.addSat
    exact .ite h2.llcDrop.bankPush h2.install
  · have h2 : HomeOnly true a miss := h1.addSat
    have h3 : HomeOnly true a (if whole then (true, miss) else (miss.flushBank line).fetchLine line flask (fun _ => false) false).2 :=
      .iteSnd h2 h2.flushBank.fetchLine
    exact .ite (.ite h3.bankPush h3) h3.install

theorem HomeOnly.engRead {f off n} (h : HomeOnly true a s) : HomeOnly true a (s.engRead f off n).2.2 := by
  have h1 : HomeOnly true a (if off < dramEnd then (linePieces off n).foldl
      (fun s p => s.engLine (s.view p.1 / 128) (some f) p.1 p.2 false) s
      else s) := .ite (.foldl h fun h1 _ => h1.engLine) h
  exact .ite h1 h1.scrub

theorem HomeOnly.engWriteN {f pois k off bs} (h : HomeOnly true a s) : HomeOnly true a (s.engWriteN f pois k off bs) := by
  induction k generalizing s off bs with
  | zero => exact h
  | succ k ih => exact .ite h (ih (.pocWrite (.ite h.engLine h)))

theorem HomeOnly.engWrite {f off bs pois} (h : HomeOnly true a s) : HomeOnly true a (s.engWrite f off bs pois) := h.engWriteN

end

end Sys2Proof.Machine
end

section
/-! PROOF. Completion records and the stop of a flask (R445 to R447): what writing records leaves alone, and what a stop does to the
flask's queue and cores. -/

set_option Elab.async false

namespace Sys2Proof.Machine

/-- A map with every value changed by its key; the default stays the default. -/
theorem Sparse.get_map {α : Type} (d : α) (F : Nat → α → α) (m : Sparse α) {k : Nat} (hd : F k d = d) :
    Sparse.get d (m.map fun e => (e.1, F e.1 e.2)) k = F k (Sparse.get d m k) := by
  induction m with
  | nil => exact hd.symm
  | cons e m ih =>
    obtain ⟨i, v⟩ := e
    by_cases h : i = k
    · subst h; simp
    · simp [h, ih]

@[simp] theorem State.q_setQ_same (s : State) (f : Nat) (q : QueueSt) : (s.setQ f q).q f = q := Sparse.get_set_same ..

theorem State.q_setQ_other (s : State) {f f' : Nat} (q : QueueSt) (h : f' ≠ f) : (s.setQ f q).q f' = s.q f' :=
  Sparse.get_set_other _ _ _ _ h

/-- From `s` to `t` completion records were written: beside what an access changes, only the record stores and the completion rings
moved; what the queues have in hand and in progress is the same. -/
structure Posts (s t : State) : Prop where
  regs : ∀ r i j, r ∉ homeRegs → r ≠ .CQTAIL → t.rn r i j = s.rn r i j
  cores : ∀ g, ∃ pf, t.core g = { s.core g with pf := pf }
  pat : t.pat = s.pat
  hand : ∀ f, (t.q f).hand = (s.q f).hand
  prog : ∀ f, (t.q f).prog = (s.q f).prog
  pins : t.pins = s.pins

section
variable {a s t : State}

theorem Posts.refl (s : State) : Posts s s :=
  ⟨fun _ _ _ _ _ => rfl, fun g => ⟨(s.core g).pf, rfl⟩, rfl, fun _ => rfl, fun _ => rfl, rfl⟩

theorem Posts.served {b} (h : Posts a s) (ht : HomeOnly b s t) : Posts a t where
  regs r i j hr hc := (ht.regs r i j hr).trans (h.regs r i j hr hc)
  cores g := by
    obtain ⟨pf, hpf⟩ := h.cores g
    obtain ⟨pf', hpf'⟩ := ht.cores g
    exact ⟨pf', by rw [hpf', hpf]⟩
  pat := ht.pat.trans h.pat
  hand f := by rw [State.q, ht.queue]; exact h.hand f
  prog f := by rw [State.q, ht.queue]; exact h.prog f
  pins := ht.pins.trans h.pins

theorem Posts.cqTail {f v} (h : Posts a s) : Posts a (s.wn .CQTAIL f 0 v) :=
  ⟨fun r i j hr hc => (State.rn_wn_other s hc ..).trans (h.regs r i j hr hc), h.cores, h.pat, h.hand, h.prog, h.pins⟩

/-- The record store of a queue changes. -/
theorem Posts.setQ {f q} (h : Posts a s) (hh : q.hand = (s.q f).hand := by rfl) (hp : q.prog = (s.q f).prog := by rfl) :
    Posts a (s.setQ f q) := by
  refine ⟨h.regs, h.cores, h.pat, fun f' => ?_, fun f' => ?_, h.pins⟩ <;> by_cases hf : f' = f
  · rw [hf, State.q_setQ_same, hh, h.hand]
  · rw [State.q_setQ_other s q hf, h.hand]
  · rw [hf, State.q_setQ_same, hp, h.prog]
  · rw [State.q_setQ_other s q hf, h.prog]

theorem Posts.raiseVec {ld v} (h : Posts a s) : Posts a (s.raiseVec ld v) := h.served (b := true) (HomeOnly.refl s).raiseVec

theorem Posts.putRec {f r} (h : Posts a s) : Posts a (s.putRec f r) := by
  unfold State.putRec
  extract_lets i n w0 bs
  split
  · exact h
  · dsimp only
    split
    · exact .raiseVec (.setQ (.cqTail (h.served (HomeOnly.refl s).engWrite)))
    · exact .setQ (.cqTail (h.served (HomeOnly.refl s).engWrite))

theorem Posts.flushRecs {f k} (h : Posts a s) : Posts a (s.flushRecs f k) := by
  induction k generalizing s with
  | zero => exact h
  | succ k ih =>
    unfold State.flushRecs
    split
    · exact h
    · split
      · exact ih h.setQ.putRec
      · exact h

theorem Posts.postRec {f r} (h : Posts a s) : Posts a (s.postRec f r) := h.setQ.flushRecs

theorem Posts.complDesc {f d status} (h : Posts a s) : Posts a (s.complDesc f d status) := by
  unfold State.complDesc
  split
  · exact h
  · exact h.postRec

theorem Posts.complDescs {f status} (ds : List Desc) (h : Posts a s) : Posts a (ds.foldl (fun s d => s.complDesc f d status) s) := by
  induction ds generalizing s with
  | nil => exact h
  | cons d ds ih => exact ih h.complDesc

end

/-! ### The stop of a flask -/

/-- What the stop of a flask of kind `gst` does to a core that holds its groups. -/
def Core.haltFor (c : Core) (gst : Bool) (f : Nat) : Core :=
  let c' := if c.groups.any fun gr => isG gr.strm = gst then c.stopAll gst 3 else c
  { c' with groups := c'.groups.map fun gr => if isG gr.strm = gst then { gr with wait := none } else gr,
            dma := c'.dma.filter fun d => match d.2 with
              | some d => d.started || isG d.who.strm ≠ gst || d.flask ≠ f
              | none => true }

theorem State.stopCores_cores (s : State) (f : Nat) :
    (s.stopCores f).cores = s.cores.map fun e => (e.1,
      if (if s.isGuest f = true then s.guestOf e.1 else e.2.hflask) = f then e.2.haltFor (s.isGuest f) f else e.2) := by
  refine List.map_congr_left fun e _ => ?_
  cases hg : s.isGuest f <;> simp only [Bool.false_eq_true, if_true, if_false, decide_eq_true_eq] <;> split <;> rfl

/-- Core `g` after a stop of flask `f`: changed when it holds groups of the flask's kind for the flask. -/
def State.coreHalted (s : State) (f g : Nat) : Core :=
  if (if s.isGuest f = true then s.guestOf g else (s.core g).hflask) = f then (s.core g).haltFor (s.isGuest f) f else s.core g

theorem State.core_stopCores (s : State) (f g : Nat) : (s.stopCores f).core g = s.coreHalted f g := by
  have hd : (if (if s.isGuest f = true then s.guestOf g else Core.init.hflask) = f
      then Core.init.haltFor (s.isGuest f) f else Core.init) = Core.init := by
    split
    · split <;> rfl
    · split <;> rfl
  rw [State.core, State.stopCores_cores]
  exact Sparse.get_map Core.init (fun k c => if (if s.isGuest f = true then s.guestOf k else c.hflask) = f
      then c.haltFor (s.isGuest f) f else c) s.cores hd

theorem State.coreHalted_of_cores {s t : State} (hp : t.pat = s.pat) (hc : t.cores = s.cores) (f g : Nat) :
    t.coreHalted f g = s.coreHalted f g := by
  simp only [State.coreHalted, State.isGuest_of_pat hp, State.guestOf_of_pat hp, State.core_of_cores hc]

theorem Core.haltFor_groups (c : Core) (gst : Bool) (f : Nat) :
    (c.haltFor gst f).groups = c.groups.map fun gr => if isG gr.strm = gst then { gr with wait := none } else gr := by
  unfold Core.haltFor
  dsimp only
  split <;> rfl

/-- No stream of the kind issues on a core that held a group of it. -/
theorem Core.haltFor_runs (c : Core) (gst : Bool) (f : Nat) (st : Stream) (h : ∃ gr ∈ c.groups, isG gr.strm = gst) (hst : isG st = gst) :
    (c.haltFor gst f).runs st = false := by
  have ha : (c.groups.any fun gr => decide (isG gr.strm = gst)) = true := by simpa using h
  have hs : (c.haltFor gst f).stop = (c.stopAll gst 3).stop := by simp only [Core.haltFor, ha, if_true]
  have hn : (c.stopAll gst 3).stop.getD (streamNum st) 0 ≠ 0 := by
    subst hst
    cases st <;> simp [Core.stopAll, streamNum, isG] <;> split <;> simp_all
  simp only [Core.runs, hs, hn, decide_false, Bool.false_and]

/-- The state in which the descriptors of a stopped flask complete: its cores are stopped, and its queue is empty. -/
def State.halted (s : State) (f : Nat) : State :=
  let s := (s.stopCores f).wf .QSTAT f 0 1 1 1
  s.setQ f { s.q f with hand := none, prog := [] }

theorem State.halted_rn (s : State) (f : Nat) (r : Reg) (i j : Nat) : (s.halted f).rn r i j = (s.wf .QSTAT f 0 1 1 1).rn r i j := rfl

theorem State.stopFlask_eq (s : State) (f cause : Nat) :
    ∃ u, Posts (s.halted f) u ∧ s.stopFlask f cause false = u.wf .STEP f 0 1 1 1 := by
  unfold State.stopFlask
  extract_lets s1 st s2 s3
  have h2 : Posts (s.halted f) s2 := by
    unfold s2 State.endDescs
    extract_lets q ds
    exact Posts.complDescs _ (Posts.refl (s.halted f))
  exact ⟨s3.raiseVec f 2, h2.postRec.raiseVec, if_neg (by decide)⟩

/-- A stop writes FLK_QSTAT and FLK_STEP of its flask, and what writing its completion records writes. -/
theorem State.stopFlask_rn (s : State) (f cause : Nat) {r : Reg} (hr : r ∉ homeRegs) (hc : r ≠ .CQTAIL) (hq : r ≠ .QSTAT)
    (hs : r ≠ .STEP) (i j : Nat) : (s.stopFlask f cause false).rn r i j = s.rn r i j := by
  obtain ⟨u, hu, e⟩ := s.stopFlask_eq f cause
  rw [e, State.rn_wf_other _ hs, hu.regs _ _ _ hr hc, State.halted_rn, State.rn_wf_other _ hq]

theorem State.stopFlask_qstat (s : State) (f cause i j : Nat) :
    (s.stopFlask f cause false).rn .QSTAT i j = (s.wf .QSTAT f 0 1 1 1).rn .QSTAT i j := by
  obtain ⟨u, hu, e⟩ := s.stopFlask_eq f cause
  rw [e, State.rn_wf_other _ (by decide), hu.regs _ _ _ (by decide) (by decide), State.halted_rn]

theorem State.stopFlask_core (s : State) (f cause g : Nat) :
    ∃ pf, (s.stopFlask f cause false).core g = { s.coreHalted f g with pf := pf } := by
  obtain ⟨u, hu, e⟩ := s.stopFlask_eq f cause
  obtain ⟨pf, h⟩ := hu.cores g
  exact ⟨pf, by rw [e, ← State.core_stopCores]; exact h⟩

theorem State.stopFlask_pins (s : State) (f cause : Nat) : (s.stopFlask f cause false).pins = s.pins := by
  obtain ⟨u, hu, e⟩ := s.stopFlask_eq f cause
  rw [e]
  exact hu.pins

theorem State.stopFlask_queue (s : State) (f cause : Nat) :
    ((s.stopFlask f cause false).q f).hand = none ∧ ((s.stopFlask f cause false).q f).prog = [] := by
  obtain ⟨u, hu, e⟩ := s.stopFlask_eq f cause
  rw [e]
  exact ⟨(hu.hand f).trans (by simp [State.halted]), (hu.prog f).trans (by simp [State.halted])⟩

theorem State.stopFlask_step (s : State) (f cause : Nat) : (s.stopFlask f cause false).rf .STEP f 0 1 1 = 1 := by
  obtain ⟨u, -, e⟩ := s.stopFlask_eq f cause
  rw [e, State.rf_wf_same _ _ _ _ _ (by decide) (by decide)]
  rfl

end Sys2Proof.Machine
end

section
/-! PROOF. O45: fault, step-event, binding and completion notices (R384, R387, R388, R447, R448). -/

set_option Elab.async false

namespace Sys2Proof.Machine

theorem streamNum_lt (st : Stream) : streamNum st < 4 := by cases st <;> decide

/-! ### Fault notices -/

theorem State.addFld_rf_same (s : State) (r : Reg) (i j n : Nat) {hi lo : Nat} (h : lo ≤ hi) (h64 : hi < 64) :
    (s.addFld r i j hi lo n).rf r i j hi lo = min (2 ^ (hi + 1 - lo) - 1) (s.rf r i j hi lo + n) := by
  have hp := Nat.two_pow_pos (hi + 1 - lo)
  rw [State.addFld, State.rf_wf_same _ _ _ _ _ h h64, sat, Nat.mod_eq_of_lt (by omega)]

/-- A fault notice that finds its flask running: the state in which the flask is stopped, its fault latched. -/
def State.latched (s : State) (k f cause g : Nat) (st : Stream) (q pc a : Nat) : State :=
  (State.wn { s with notices := dropAt k s.notices } .FAULT0 f 0
    (cause % 256 * 2 ^ 48 + streamNum st * 2 ^ 46 + q % 32 * 2 ^ 41 + g % 4096 * 2 ^ 29)).wn .FAULT1 f 0 (pc % 2 ^ 20 * 2 ^ 44 + a % 2 ^ 44)

theorem execFaultNotice_eq {k f cause g q pc a : Nat} {st : Stream} {s : State} (h : s.notices[k]? = some (.fault f cause g st q pc a)) :
    exec (.faultNotice k) s = .next (if s.rf .QSTAT f 0 2 2 = 1 then { s with notices := dropAt k s.notices }
      else if s.rf .QSTAT f 0 1 1 = 1 then State.addFld { s with notices := dropAt k s.notices } .FAULT0 f 0 63 56 1
      else (s.latched k f cause g st q pc a).stopFlask f cause false) := by
  simp only [exec, execFaultNotice, h]
  rfl

/-- The words latched are what FLK_FAULT0 and FLK_FAULT1 read as. -/
theorem State.latched_fault0 (s : State) (k f cause g : Nat) (st : Stream) (q pc a : Nat) {hi : Nat} (lo : Nat) (h : hi < 64) :
    ((s.latched k f cause g st q pc a).stopFlask f cause false).rf .FAULT0 f 0 hi lo
      = fld (cause % 256 * 2 ^ 48 + streamNum st * 2 ^ 46 + q % 32 * 2 ^ 41 + g % 4096 * 2 ^ 29) hi lo := by
  rw [State.rf, State.stopFlask_rn _ _ _ (by decide) (by decide) (by decide) (by decide), State.latched,
    State.rn_wn_other _ (by decide), ← State.rf, State.rf_wn_same _ _ _ _ _ _ h]

theorem State.latched_fault1 (s : State) (k f cause g : Nat) (st : Stream) (q pc a : Nat) {hi : Nat} (lo : Nat) (h : hi < 64) :
    ((s.latched k f cause g st q pc a).stopFlask f cause false).rf .FAULT1 f 0 hi lo
      = fld (pc % 2 ^ 20 * 2 ^ 44 + a % 2 ^ 44) hi lo := by
  rw [State.rf, State.stopFlask_rn _ _ _ (by decide) (by decide) (by decide) (by decide), State.latched, ← State.rf,
    State.rf_wn_same _ _ _ _ _ _ h]

theorem State.latched_qstat (s : State) (k f cause g : Nat) (st : Stream) (q pc a : Nat) :
    ((s.latched k f cause g st q pc a).stopFlask f cause false).rf .QSTAT f 0 1 1 = 1 := by
  rw [State.rf, State.stopFlask_qstat, ← State.rf, State.rf_wf_same _ _ _ _ _ (by decide) (by decide)]
  rfl

theorem State.latched_coreHalted (s : State) (k f cause g : Nat) (st : Stream) (q pc a h : Nat) :
    (s.latched k f cause g st q pc a).coreHalted f h = s.coreHalted f h := by
  have hp : (s.latched k f cause g st q pc a).pat = s.pat := by rw [State.latched, State.wn_pat, State.wn_pat]
  have hc : (s.latched k f cause g st q pc a).cores = s.cores := by rw [State.latched, State.wn_cores, State.wn_cores]
  exact State.coreHalted_of_cores hp hc f h

theorem State.latched_core (s : State) (k f cause g : Nat) (st : Stream) (q pc a h : Nat) :
    ∃ pf, ((s.latched k f cause g st q pc a).stopFlask f cause false).core h = { s.coreHalted f h with pf := pf } := by
  obtain ⟨pf, e⟩ := (s.latched k f cause g st q pc a).stopFlask_core f cause h
  exact ⟨pf, by rw [← State.latched_coreHalted]; exact e⟩

theorem faultNotice_latches {k f cause g q pc a : Nat} {st : Stream} {s : State}
    (hn : s.notices[k]? = some (.fault f cause g st q pc a)) (h2 : s.rf .QSTAT f 0 2 2 = 0) (h1 : s.rf .QSTAT f 0 1 1 = 0) :
    ∃ t, exec (.faultNotice k) s = .next t
      ∧ t.rf .QSTAT f 0 1 1 = 1 ∧ t.rf .STEP f 0 1 1 = 1 ∧ t.rf .FAULT0 f 0 55 48 = cause % 256
      ∧ t.rf .FAULT0 f 0 47 46 = streamNum st ∧ t.rf .FAULT0 f 0 45 41 = q % 32 ∧ t.rf .FAULT0 f 0 40 29 = g % 4096
      ∧ t.rf .FAULT0 f 0 63 56 = 0 ∧ t.rf .FAULT1 f 0 63 44 = pc % 2 ^ 20 ∧ t.rf .FAULT1 f 0 43 0 = a % 2 ^ 44
      ∧ (t.q f).hand = none ∧ (t.q f).prog = []
      ∧ (∀ h, (t.core h).groups = if (if s.isGuest f = true then s.guestOf h else (s.core h).hflask) = f then
            (s.core h).groups.map (fun gr => if isG gr.strm = s.isGuest f then { gr with wait := none } else gr)
          else (s.core h).groups)
      ∧ ∀ h, (if s.isGuest f = true then s.guestOf h else (s.core h).hflask) = f →
          (∃ gr ∈ (s.core h).groups, isG gr.strm = s.isGuest f) →
          ∀ st', isG st' = s.isGuest f → (t.core h).runs st' = false := by
  have hst := streamNum_lt st
  refine ⟨(s.latched k f cause g st q pc a).stopFlask f cause false, ?_, s.latched_qstat .., State.stopFlask_step .., ?_, ?_, ?_, ?_, ?_,
    ?_, ?_, (State.stopFlask_queue ..).1, (State.stopFlask_queue ..).2, fun h => ?_, fun h hf hg st' hst' => ?_⟩
  · rw [execFaultNotice_eq hn, if_neg (by omega), if_neg (by omega)]
  iterate 5
    rw [State.latched_fault0 _ _ _ _ _ _ _ _ _ _ (by decide)]
    simp only [fld, Nat.shiftRight_eq_div_pow]
    omega
  iterate 2
    rw [State.latched_fault1 _ _ _ _ _ _ _ _ _ _ (by decide)]
    simp only [fld, Nat.shiftRight_eq_div_pow]
    omega
  · obtain ⟨pf, e⟩ := s.latched_core k f cause g st q pc a h
    rw [e]
    by_cases hf : (if s.isGuest f = true then s.guestOf h else (s.core h).hflask) = f
    · rw [if_pos hf, State.coreHalted, if_pos hf]
      exact Core.haltFor_groups _ _ f
    · rw [if_neg hf, State.coreHalted, if_neg hf]
  · obtain ⟨pf, e⟩ := s.latched_core k f cause g st q pc a h
    rw [e, State.coreHalted, if_pos hf]
    exact (s.core h).haltFor_runs _ f st' hg hst'

/-! ### The other notices -/

theorem stepEventNotice_sets {k f flag : Nat} {s : State} (hn : s.notices[k]? = some (.stepEv f flag)) (hf : flag < 6) :
    ∃ t, exec (.stepEventNotice k) s = .next t ∧ t = { s with notices := dropAt k s.notices, regs := t.regs }
      ∧ t.rf .STEP f 0 flag flag = 1 ∧ ∀ b, b < 6 → b ≠ flag → t.rf .STEP f 0 b b = s.rf .STEP f 0 b b := by
  refine ⟨State.wf { s with notices := dropAt k s.notices } .STEP f 0 flag flag 1, ?_, rfl, ?_, fun b hb hne => ?_⟩
  · simp only [exec, execStepEventNotice, hn]
  · rw [State.rf_wf_same _ _ _ _ _ le_rfl (by omega), Nat.add_sub_cancel_left]
    rfl
  · exact State.rf_wf_apart _ _ _ _ _ le_rfl (by omega) (by omega)

/-- A core that holds a host group of the flask is flushed by a notice of it. -/
theorem State.flushCore_eq {f g : Nat} {s : State} (hf : (s.core g).hflask = f) (hg : ∃ gr ∈ (s.core g).groups, isG gr.strm = false) :
    s.flushCore f g = (s.modCore g Core.invalidate).taint g none := by
  obtain ⟨gr, hm, hgr⟩ := hg
  exact if_pos (by simpa [hf] using ⟨gr, hm, hgr⟩)

theorem bindingNotice_flushes {f g : Nat} {s : State} (hf : (s.core g).hflask = f) (hg : ∃ gr ∈ (s.core g).groups, isG gr.strm = false)
    (hn : s.notices.contains (.binding f g) = true) : ∃ t, exec (.bindingNotice f g) s = .next t
      ∧ t.notices = s.notices.erase (.binding f g) ∧ t.core g = { s.core g with cc := [], lru := [] } ∧ t.mem = s.mem
      ∧ t.regs = s.regs ∧ ∀ h, h ≠ g → t.core h = s.core h := by
  refine ⟨((s.takeNotice (.binding f g)).modCore g Core.invalidate).taint g none, ?_, rfl, ?_, rfl, rfl, fun h hh => ?_⟩
  · rw [exec, execBindingNotice, if_pos hn, State.flushCore_eq (s := s.takeNotice (.binding f g)) hf hg]
  · exact State.core_setCore_same ..
  · exact State.core_setCore_other _ _ hh

theorem completionNotice_flushes {f g : Nat} {s : State} (hf : (s.core g).hflask = f)
    (hg : ∃ gr ∈ (s.core g).groups, isG gr.strm = false)
    (hn : s.notices.contains (.completion f g) = true) : ∃ t, exec (.completionNotice f g) s = .next t
      ∧ t.notices = s.notices.erase (.completion f g) ∧ t.core g = { s.core g with cc := [], lru := [], phold := false }
      ∧ t.mem = s.mem ∧ t.regs = s.regs ∧ ∀ h, h ≠ g → t.core h = s.core h := by
  refine ⟨(((s.takeNotice (.completion f g)).modCore g Core.invalidate).taint g none).modCore g fun c => { c with phold := false },
    ?_, rfl, ?_, rfl, rfl, fun h hh => ?_⟩
  · rw [exec, execCompletionNotice, if_pos hn, State.flushCore_eq (s := s.takeNotice (.completion f g)) hf hg]
  · rw [State.modCore, State.core_setCore_same]
    exact congrArg (fun c : Core => { c with phold := false }) (State.core_setCore_same ..)
  · exact (State.core_setCore_other _ _ hh).trans (State.core_setCore_other _ _ hh)

/-- Settles O45: the fault notice by the rules of the stop of a flask, the others by the fields they write. -/
theorem notices : Obligations.Notices := by
  unfold Obligations.Notices
  refine ⟨fun k f cause g q pc a st s hn => ⟨fun h2 => ?_, fun h2 h1 => ?_, faultNotice_latches hn⟩, fun k f flag s => stepEventNotice_sets,
    fun f g s hf hg => ⟨bindingNotice_flushes hf hg, completionNotice_flushes hf hg⟩⟩
  · exact ⟨_, (execFaultNotice_eq hn).trans (by rw [if_pos h2]), rfl⟩
  · refine ⟨_, (execFaultNotice_eq hn).trans (by rw [if_neg (by omega), if_pos h1]), rfl, ?_, ?_⟩
    · exact State.addFld_rf_same _ _ _ _ _ (by decide) (by decide)
    · exact State.rf_wf_apart _ _ _ _ _ (by decide) (by decide) (by decide)

end Sys2Proof.Machine
end

section
/-! PROOF. Loops over states, clusters, and the power states of cores (R490 to R494). -/

set_option Elab.async false

namespace Sys2Proof.Machine

/-! ### Loops -/

/-- What every step of a loop leaves alone, the loop leaves alone. -/
theorem foldl_leaves {α β : Type} {p : State → β} {f : State → α → State} (hf : ∀ s x, p (f s x) = p s) (l : List α) (s : State) :
    p (l.foldl f s) = p s := by
  induction l generalizing s with
  | nil => rfl
  | cons x l ih => exact (ih _).trans (hf s x)

theorem foldl_keeps {α : Type} {P : State → Prop} {f : State → α → State} (hf : ∀ s x, P s → P (f s x)) (l : List α) {s : State}
    (h : P s) : P (l.foldl f s) := by
  induction l generalizing s with
  | nil => exact h
  | cons x l ih => exact ih (hf s x h)

/-- What the step for `x` brings about, and every step keeps, holds after a loop over a list with `x`. -/
theorem foldl_reaches {α : Type} {P : State → Prop} {f : State → α → State} {x : α} (hx : ∀ s, P (f s x))
    (hf : ∀ s y, P s → P (f s y)) {l : List α} (hl : x ∈ l) (s : State) : P (l.foldl f s) := by
  induction l generalizing s with
  | nil => exact absurd hl List.not_mem_nil
  | cons y l ih =>
    rcases List.mem_cons.1 hl with rfl | h
    · exact foldl_keeps hf l (hx s)
    · exact ih h _

/-! ### The cores of clusters -/

theorem Sparse.get_tabulate {α : Type} [DecidableEq α] (d : α) (F : Nat → α) (l : List Nat) (k : Nat) :
    Sparse.get d ((l.map fun i => (i, F i)).filter fun e => e.2 ≠ d) k = if k ∈ l then F k else d := by
  induction l with
  | nil => rfl
  | cons i l ih =>
    by_cases hF : F i = d
    · simp only [List.map_cons, List.filter_cons, hF, ne_eq, not_true_eq_false, decide_false, Bool.false_eq_true, if_false, ih,
        List.mem_cons]
      by_cases hk : k = i
      · subst hk; simp [hF]
      · simp [hk]
    · simp only [List.map_cons, List.filter_cons, hF, ne_eq, not_false_eq_true, decide_true, if_true, Sparse.get_cons, ih, List.mem_cons]
      by_cases hk : k = i
      · subst hk; simp
      · simp [hk, Ne.symm hk]

theorem State.modClusters_mem (s : State) (k : Nat → Bool) (f : Core → Core) : (s.modClusters k f).mem = s.mem := by
  unfold State.modClusters
  rfl

theorem State.modClusters_regs (s : State) (k : Nat → Bool) (f : Core → Core) : (s.modClusters k f).regs = s.regs := by
  unfold State.modClusters
  rfl

theorem State.modClusters_pwr (s : State) (k : Nat → Bool) (f : Core → Core) : (s.modClusters k f).pwr = s.pwr := by
  unfold State.modClusters
  rfl

/-- A change of clusters changes their cores, and no others. -/
theorem State.core_modClusters (s : State) (k : Nat → Bool) (f : Core → Core) {g : Nat} (hg : g < 4096) :
    (s.modClusters k f).core g = if k (g / 64) = true then f (s.core g) else s.core g := by
  unfold State.modClusters State.core
  rw [Sparse.get_tabulate, if_pos (List.mem_range.2 hg)]

theorem allCores_iff {k : Nat} {t : Nat → Bool} : allCores k t = true ↔ ∀ n, n < 64 → t (64 * k + n) = true := by
  simp [allCores]

/-! ### Hold, Nap and Rest -/

theorem holdEntry_enters {g : Nat} {s : State} (hg : g < 4096) (ha : (s.core g).awake = true) (hi : s.idle g = true)
    (ht : s.rf .IDLE 0 0 7 0 ≠ 0 ∨ s.inSvc g = false) : ∃ t, exec (.holdEntry g) s = .next t
      ∧ t.core g = { s.core g with power := 1 } ∧ (∀ h, h ≠ g → t.core h = s.core h)
      ∧ t.rf .HOLD (g / 64) 0 (g % 64) (g % 64) = 1 ∧ t.mem = s.mem := by
  refine ⟨(s.modCore g fun c => { c with power := 1 }).wf .HOLD (g / 64) 0 (g % 64) (g % 64) 1, ?_, State.core_setCore_same ..,
    fun h hh => State.core_setCore_other _ _ hh, ?_, rfl⟩
  · rw [exec, execHoldEntry, if_neg]
    rcases ht with ht | ht <;> simp [hg, ha, hi, ht]
  · rw [State.rf_wf_same _ _ _ _ _ le_rfl (Nat.mod_lt _ (by decide)), Nat.add_sub_cancel_left]
    rfl

theorem holdEntry_stays {g : Nat} {s : State} (h : (s.core g).awake = false ∨ s.idle g = false) :
    exec (.holdEntry g) s = .next s := by
  rw [exec, execHoldEntry, if_pos]
  rcases h with h | h <;> simp [h]

theorem napEntry_enters {k : Nat} {s : State} (hk : k < 64) (h0 : s.rf .IDLE 0 0 7 0 ≠ 0) (h1 : s.rf .IDLE 0 0 15 8 ≠ 0)
    (hc : ∀ n, n < 64 → (s.core (64 * k + n)).power = 1 ∧ (s.core (64 * k + n)).waking = false) :
    ∃ t, exec (.napEntry k) s = .next t ∧ t.clu k = 1 ∧ t.mem = s.mem
      ∧ ∀ g, g < 4096 → t.core g = if g / 64 = k then { s.core g with power := 2 } else s.core g := by
  refine ⟨(s.modClusters (· = k) fun c => { c with power := 2 }).wf .PSTATE k 0 1 0 1, ?_,
    State.rf_wf_same _ _ _ _ _ (by decide) (by decide), (State.wf_mem ..).trans (State.modClusters_mem ..), fun g hg => ?_⟩
  · have ha : allCores k (fun g => decide ((s.core g).power = 1) && !(s.core g).waking) = true :=
      allCores_iff.2 fun n hn => by simp [hc n hn]
    rw [exec, execNapEntry, if_neg]
    simp [hk, h0, h1, ha]
  · rw [State.core_of_cores (State.wf_cores ..), State.core_modClusters _ _ _ hg]
    simp only [decide_eq_true_eq]

theorem restEntry_enters {k : Nat} {s : State} (hk : k < 64) (h0 : s.rf .IDLE 0 0 7 0 ≠ 0) (h1 : s.rf .IDLE 0 0 15 8 ≠ 0)
    (h2 : s.rf .IDLE 0 0 31 16 ≠ 0) (hn : s.clu k = 1) :
    ∃ t, exec (.restEntry k) s = .next t ∧ t.clu k = 2 ∧ t.mem = s.mem
      ∧ ∀ g, g < 4096 → t.core g = if g / 64 = k then { s.core g with power := 3 } else s.core g := by
  refine ⟨(s.modClusters (· = k) fun c => { c with power := 3 }).wf .PSTATE k 0 1 0 2, ?_,
    State.rf_wf_same _ _ _ _ _ (by decide) (by decide), (State.wf_mem ..).trans (State.modClusters_mem ..), fun g hg => ?_⟩
  · rw [exec, execRestEntry, if_neg]
    simp [hk, h0, h1, h2, hn]
  · rw [State.core_of_cores (State.wf_cores ..), State.core_modClusters _ _ _ hg]
    simp only [decide_eq_true_eq]

theorem napRest_disabled {k : Nat} {s : State} (h : s.rf .IDLE 0 0 15 8 = 0) :
    exec (.napEntry k) s = .next s ∧ exec (.restEntry k) s = .next s :=
  ⟨by rw [exec, execNapEntry, if_pos (by simp [h])], by rw [exec, execRestEntry, if_pos (by simp [h])]⟩

/-! ### Cold -/

/-- Flag and hold bits of a cluster that goes cold. -/
def State.coldMark (s : State) (k : Nat) : State := (s.wf .PSTATE k 0 1 0 3).wr .HOLD k 0 (BitVec.allOnes 64)

theorem State.coldMark_rn (s : State) (k : Nat) {r : Reg} (h1 : r ≠ .PSTATE) (h2 : r ≠ .HOLD) (i j : Nat) :
    (s.coldMark k).rn r i j = s.rn r i j := by
  have h := State.rd_wr_other (s.wf .PSTATE k 0 1 0 3) (BitVec.allOnes 64) (Reg.key_ne h2 k 0 i j)
  exact (congrArg BitVec.toNat h).trans (State.rn_wf_other s h1 ..)

theorem State.coldMark_pstate (s : State) (k i hi lo : Nat) :
    (s.coldMark k).rf .PSTATE i 0 hi lo = (s.wf .PSTATE k 0 1 0 3).rf .PSTATE i 0 hi lo := by
  have h := State.rd_wr_other (s.wf .PSTATE k 0 1 0 3) (BitVec.allOnes 64) (Reg.key_ne (r := .HOLD) (r' := .PSTATE) (by decide) k 0 i 0)
  exact congrArg (fld · hi lo) (congrArg BitVec.toNat h)

/-- An offset in the aperture of a core of clusters `k`. -/
def inClusters (k : Nat → Bool) (a : Nat) : Bool :=
  match aperOf a with
  | some g => k (g / 64)
  | none => false

/-- The entries of the register file that clusters `k` lose with their power, and what becomes of the others. -/
def coldRegs (k : Nat → Bool) (regs : Sparse Word64) : Sparse Word64 :=
  let lost (e : Nat × Word64) : Bool :=
    isCor e.1 && k (e.1 / 2 ^ 34) && e.1 % 256 ≠ Reg.SEQMM.ctorIdx && e.1 % 256 ≠ Reg.SPLIT.ctorIdx
  let split (e : Nat × Word64) : Nat × Word64 := if isCor e.1 && k (e.1 / 2 ^ 34) then coldReg e else e
  (regs.filter fun e => !(lost e)).map split

/-- What else the loss of power of clusters `k` takes, but for their cores and their marks. -/
def State.unpower (s : State) (k : Nat → Bool) : State :=
  { s with
    regs := coldRegs k s.regs,
    mem := s.mem.filter fun e => !(inClusters k e.1),
    pois := s.pois.filter fun i => !(inClusters k (4 * i)),
    m := { s.m with lerr := s.m.lerr.filter fun e => !(inClusters k (4 * e.1)),
                    eerr := s.m.eerr.filter fun e => !(k (e.1 / 2 ^ 20)),
                    cerr := s.m.cerr.filter fun e => !(k (e.1 / 2 ^ 23)) } }

theorem State.toCold_eq (s : State) (k : Nat → Bool) :
    s.toCold k = ((List.range 64).filter k).foldl State.coldMark ((s.modClusters k fun _ => Core.cold).unpower k) := by
  unfold State.toCold
  generalize s.modClusters k (fun _ => Core.cold) = c
  rfl

theorem State.unpower_cores (s : State) (k : Nat → Bool) : (s.unpower k).cores = s.cores := rfl

theorem State.unpower_byte (s : State) (k : Nat → Bool) (a : Nat) :
    (s.unpower k).byte a = if inClusters k a = true then 0 else s.byte a := by
  refine (Sparse.get_filter_key 0 s.mem (fun a => !inClusters k a) a).trans ?_
  cases inClusters k a <;> rfl

theorem State.toCold_core (s : State) (k : Nat → Bool) {g : Nat} (hg : g < 4096) :
    (s.toCold k).core g = if k (g / 64) = true then Core.cold else s.core g := by
  rw [State.toCold_eq, foldl_leaves (f := State.coldMark) (p := fun s => s.core g) fun _ _ => rfl,
    State.core_of_cores (State.unpower_cores _ k), State.core_modClusters s k _ hg]

/-- A state that only lost cores and power: memory outside the apertures of clusters `k` is as it was. -/
theorem State.toCold_byte (s : State) (k : Nat → Bool) (a : Nat) :
    (s.toCold k).byte a = if inClusters k a = true then 0 else s.byte a := by
  rw [State.toCold_eq, foldl_leaves (f := State.coldMark) (p := fun s => s.byte a) fun _ _ => rfl, State.unpower_byte]
  rw [State.byte, State.modClusters_mem, ← State.byte]

theorem Reg.key_div (r : Reg) (i : Nat) : r.key i 0 / 2 ^ 34 = i / 64 := by
  have := r.ctorIdx_lt
  unfold Reg.key
  omega

theorem isCor_key (r : Reg) (i j : Nat) : isCor (r.key i j) = decide (r.ctorIdx < Reg.PSTATE.ctorIdx) := by
  rw [isCor, Reg.key_mod]

/-- An entry of the register file after the loss of power of clusters `k`. -/
def coldVal (k : Nat → Bool) (q : Nat) (v : Word64) : Word64 :=
  if isCor q && k (q / 2 ^ 34) then if q % 256 = Reg.SPLIT.ctorIdx then v &&& 0xC else v else v

theorem coldRegs_eq (k : Nat → Bool) (regs : Sparse Word64) :
    coldRegs k regs = (regs.filter fun e => !(isCor e.1 && k (e.1 / 2 ^ 34) && decide (e.1 % 256 ≠ Reg.SEQMM.ctorIdx)
      && decide (e.1 % 256 ≠ Reg.SPLIT.ctorIdx))).map fun e => (e.1, coldVal k e.1 e.2) := by
  refine List.map_congr_left fun e _ => ?_
  unfold coldVal coldReg
  split
  · split <;> rfl
  · rfl

/-- Reading a register of the COR block of a cluster without power: only COR_SEQMM is left, and the guest reserve of COR_SPLIT. -/
theorem get_coldRegs_lost {k : Nat → Bool} {r : Reg} {i : Nat} (regs : Sparse Word64) (hr : r.ctorIdx < Reg.PSTATE.ctorIdx)
    (hk : k (i / 64) = true) : Sparse.get r.resetVal (coldRegs k regs) (r.key i 0)
      = if r = .SPLIT then Sparse.get r.resetVal regs (r.key i 0) &&& 0xC
        else if r = .SEQMM then Sparse.get r.resetVal regs (r.key i 0) else r.resetVal := by
  have hc : (isCor (r.key i 0) && k (r.key i 0 / 2 ^ 34)) = true := by
    rw [isCor_key, Reg.key_div, hk, decide_eq_true hr]
    rfl
  have hs : coldVal k (r.key i 0) = fun v => if r = .SPLIT then v &&& 0xC else v := by
    funext v
    simp only [coldVal, hc, if_true, Reg.key_mod]
    exact if_congr ⟨Reg.ctorIdx_inj, congrArg _⟩ rfl rfl
  have hd : coldVal k (r.key i 0) r.resetVal = r.resetVal := by
    rw [hs]
    dsimp only
    split
    · rename_i h; subst h; rfl
    · rfl
  rw [coldRegs_eq, Sparse.get_map r.resetVal (coldVal k) _ hd, hs]
  rw [Sparse.get_filter_key r.resetVal regs (fun q => !(isCor q && k (q / 2 ^ 34) && decide (q % 256 ≠ Reg.SEQMM.ctorIdx)
      && decide (q % 256 ≠ Reg.SPLIT.ctorIdx)))]
  simp only [hc, Bool.true_and, Reg.key_mod]
  by_cases h1 : r = .SPLIT
  · subst h1; simp
  · by_cases h2 : r = .SEQMM
    · subst h2; simp
    · have h1' : r.ctorIdx ≠ Reg.SPLIT.ctorIdx := fun e => h1 (Reg.ctorIdx_inj e)
      have h2' : r.ctorIdx ≠ Reg.SEQMM.ctorIdx := fun e => h2 (Reg.ctorIdx_inj e)
      simp [h1, h2, h1', h2']

/-- Any other register. -/
theorem get_coldRegs_kept {k : Nat → Bool} {r : Reg} {i j : Nat} (regs : Sparse Word64) (h : Reg.PSTATE.ctorIdx ≤ r.ctorIdx) :
    Sparse.get r.resetVal (coldRegs k regs) (r.key i j) = Sparse.get r.resetVal regs (r.key i j) := by
  have hc : isCor (r.key i j) = false := by rw [isCor_key, decide_eq_false (Nat.not_lt.2 h)]
  have hs (v : Word64) : coldVal k (r.key i j) v = v := by rw [coldVal, hc, Bool.false_and, if_neg (by decide)]
  rw [coldRegs_eq, Sparse.get_map r.resetVal (coldVal k) _ (hs _), hs]
  rw [Sparse.get_filter_key r.resetVal regs (fun q => !(isCor q && k (q / 2 ^ 34) && decide (q % 256 ≠ Reg.SEQMM.ctorIdx)
      && decide (q % 256 ≠ Reg.SPLIT.ctorIdx))), if_pos]
  rw [hc, Bool.false_and, Bool.false_and, Bool.false_and, Bool.not_false]

theorem State.unpower_rd (s : State) (k : Nat → Bool) (f : Core → Core) (r : Reg) (i j : Nat) :
    ((s.modClusters k f).unpower k).rd r i j = Sparse.get r.resetVal (coldRegs k s.regs) (r.key i j) := by
  rw [← State.modClusters_regs s k f]
  rfl

theorem State.toCold_rn_eq (s : State) (k : Nat → Bool) {r : Reg} (h1 : r ≠ .PSTATE) (h2 : r ≠ .HOLD) (i j : Nat) :
    (s.toCold k).rn r i j = (Sparse.get r.resetVal (coldRegs k s.regs) (r.key i j)).toNat := by
  rw [State.toCold_eq, foldl_leaves (f := State.coldMark) (p := fun s => s.rn r i j) fun s n => s.coldMark_rn n h1 h2 i j, State.rn,
    State.unpower_rd]

/-- Registers of the other blocks keep their values. -/
theorem State.toCold_rn (s : State) (k : Nat → Bool) {r : Reg} (hr : Reg.PSTATE.ctorIdx < r.ctorIdx) (h : r ≠ .HOLD) (i j : Nat) :
    (s.toCold k).rn r i j = s.rn r i j := by
  rw [State.toCold_rn_eq s k (fun e => absurd hr (by rw [e]; exact lt_irrefl _)) h,
    get_coldRegs_kept _ hr.le]
  rfl

/-- The COR registers of a cluster that goes cold. -/
theorem State.toCold_cor (s : State) {k : Nat → Bool} {r : Reg} (hr : r.ctorIdx < Reg.PSTATE.ctorIdx) {g : Nat}
    (hk : k (g / 64) = true) : (s.toCold k).rn r g 0
      = (if r = .SPLIT then s.rd r g 0 &&& 0xC else if r = .SEQMM then s.rd r g 0 else r.resetVal).toNat := by
  rw [State.toCold_rn_eq s k (fun e => absurd hr (by rw [e]; exact lt_irrefl _)) (fun e => absurd hr (by rw [e]; decide)),
    get_coldRegs_lost _ hr hk]
  rfl

theorem State.toCold_clu_cold (s : State) {k : Nat → Bool} {i : Nat} (hi : i < 64) (hk : k i = true) : (s.toCold k).clu i = 3 := by
  rw [State.toCold_eq]
  refine foldl_reaches (f := State.coldMark) (P := fun s => s.clu i = 3) (x := i) (fun s => ?_) (fun s n h => ?_)
    (List.mem_filter.2 ⟨List.mem_range.2 hi, hk⟩) _
  · rw [State.clu, State.coldMark_pstate, State.rf_wf_same _ _ _ _ _ (by decide) (by decide)]
    rfl
  · rw [State.clu, State.coldMark_pstate]
    by_cases hn : n = i
    · subst hn
      rw [State.rf_wf_same _ _ _ _ _ (by decide) (by decide)]
      rfl
    · rw [State.rf, State.rn_wf_elsewhere _ _ _ _ (by decide) (by decide) (by simpa using Ne.symm hn)]
      exact h

/-! ### COLD_ENTRY -/

theorem aperOf_aper {g o : Nat} (hg : g < 4096) (ho : o < 2 ^ 20) : aperOf (aper g + o) = some g := by
  have h : apBase ≤ aper g + o ∧ aper g + o < apBase + 0x1_0000_0000 := by unfold aper; omega
  rw [aperOf, if_pos h]
  exact congrArg some (by unfold aper; omega)

theorem aperOf_dram {o : Nat} (ho : o < dramEnd) : aperOf o = none := by
  rw [aperOf, if_neg]
  unfold dramEnd at ho
  unfold apBase
  omega

/-- DRAM keeps its bytes while clusters are cold. -/
theorem State.toCold_dram (s : State) (k : Nat → Bool) {o : Nat} (ho : o < dramEnd) : (s.toCold k).byte o = s.byte o := by
  rw [State.toCold_byte, inClusters, aperOf_dram ho]
  rfl

/-- The local stores of cold cores are gone. -/
theorem State.toCold_aper (s : State) {k : Nat → Bool} {g o : Nat} (hg : g < 4096) (hk : k (g / 64) = true) (ho : o < 2 ^ 20) :
    (s.toCold k).byte (aper g + o) = 0 := by
  rw [State.toCold_byte, inClusters, aperOf_aper hg ho]
  exact if_pos hk

theorem State.toCold_split (s : State) {k : Nat → Bool} {g : Nat} (hk : k (g / 64) = true) :
    (s.toCold k).rf .SPLIT g 0 1 0 = 0 ∧ (s.toCold k).rf .SPLIT g 0 3 2 = s.rf .SPLIT g 0 3 2 := by
  have h : (s.toCold k).rn .SPLIT g 0 = s.rn .SPLIT g 0 &&& 0xC := by
    rw [State.toCold_cor s (by decide) hk, if_pos rfl, BitVec.toNat_and]
    rfl
  constructor <;> refine Nat.eq_of_testBit_eq fun b => ?_
  · rw [State.rf, h, testBit_fld, Nat.testBit_and]
    rcases b with _ | _ | b <;> simp [show Nat.testBit 12 1 = false by decide]
  · rw [State.rf, h, testBit_fld, Nat.testBit_and, State.rf, testBit_fld]
    rcases b with _ | _ | b <;> simp [show Nat.testBit 12 2 = true by decide, show Nat.testBit 12 3 = true by decide]

theorem coldEntry_enters {k : Nat} {s : State} (hk : k < 64) (h3 : s.clu k ≠ 3) (hb : s.coldBit k = true ∨ s.rf .PSTATE k 0 2 2 = 1)
    (hc : ∀ n, n < 64 → s.idle (64 * k + n) = true ∧ (s.core (64 * k + n)).waking = false) :
    ∃ t, exec (.coldEntry k) s = .next t ∧ t.clu k = 3
      ∧ (∀ g, g < 4096 → g / 64 = k → t.core g = Core.cold ∧ t.rf .SPLIT g 0 1 0 = 0 ∧ t.rf .SPLIT g 0 3 2 = s.rf .SPLIT g 0 3 2
          ∧ t.rn .SEQMM g 0 = s.rn .SEQMM g 0 ∧ t.rn .SHAPE g 0 = 0 ∧ ∀ o, o < 2 ^ 20 → t.byte (aper g + o) = 0)
      ∧ (∀ g, g < 4096 → g / 64 ≠ k → t.core g = s.core g) ∧ (∀ o, o < dramEnd → t.byte o = s.byte o) := by
  have hkk : (fun j => decide (j = k)) k = true := decide_eq_true rfl
  refine ⟨s.toCold (· = k), ?_, s.toCold_clu_cold hk hkk, fun g hg hgk => ?_, fun g hg hgk => ?_, fun o => s.toCold_dram _⟩
  · have ha : allCores k (fun g => s.idle g && !(s.core g).waking) = true := allCores_iff.2 fun n hn => by simp [hc n hn]
    rw [exec, execColdEntry, if_neg]
    rcases hb with hb | hb <;> simp [hk, h3, hb, ha]
  · have hgk' : (fun j => decide (j = k)) (g / 64) = true := decide_eq_true hgk
    refine ⟨(s.toCold_core _ hg).trans (if_pos hgk'), (s.toCold_split hgk').1, (s.toCold_split hgk').2, ?_, ?_,
      fun o => s.toCold_aper hg hgk'⟩
    · rw [State.toCold_cor s (by decide) hgk', if_neg (by decide), if_pos rfl]
      rfl
    · rw [State.toCold_cor s (by decide) hgk', if_neg (by decide), if_neg (by decide)]
      rfl
  · exact (s.toCold_core _ hg).trans (if_neg (by simpa using hgk))

theorem coldEntry_stays {k : Nat} {s : State} (h : s.coldBit k = false ∧ s.rf .PSTATE k 0 2 2 = 0) :
    exec (.coldEntry k) s = .next s := by
  rw [exec, execColdEntry, if_pos (by simp [h])]

end Sys2Proof.Machine
end

section
/-! PROOF. Wakes of cores and clusters (R489, R493, R503). -/

set_option Elab.async false

namespace Sys2Proof.Machine

/-! ### The wake event -/

/-- A core of a cluster that wakes: it is in Hold; coming from Cold its array is to be zeroed. -/
def Core.roused (c : Core) (clu : Nat) : Core := if clu = 3 then Core.startZero { c with power := 1 } else { c with power := 1 }

theorem State.wakeCluster_mem (s : State) (k : Nat) : (s.wakeCluster k).mem = s.mem := by
  unfold State.wakeCluster
  extract_lets cold p s1 s2
  rw [State.wf_mem, State.modClusters_mem]
  unfold s2
  split <;> rfl

theorem State.wakeCluster_rn (s : State) (k : Nat) {r : Reg} (h1 : r ≠ .PSTATE) (h2 : r ≠ .FCNT) (i j : Nat) :
    (s.wakeCluster k).rn r i j = s.rn r i j := by
  unfold State.wakeCluster
  extract_lets cold p s1 s2
  rw [State.rn_wf_other _ h1, State.rn_of_regs (State.modClusters_regs ..)]
  unfold s2
  split
  · exact State.rn_wn_other s1 h2 ..
  · rfl

theorem State.wakeCluster_inSvc (s : State) (k g : Nat) : (s.wakeCluster k).inSvc g = s.inSvc g := by
  rw [State.inSvc, State.wakeCluster_rn _ _ (by decide) (by decide), State.inSvc]

theorem State.wakeCluster_core (s : State) (k : Nat) {g : Nat} (hg : g < 4096) :
    (s.wakeCluster k).core g = if g / 64 = k then (s.core g).roused (s.clu k) else s.core g := by
  unfold State.wakeCluster
  extract_lets cold p s1 s2
  have hs : s2.cores = s.cores := by unfold s2; split <;> rfl
  rw [State.core_of_cores (State.wf_cores ..), State.core_modClusters _ _ _ hg, State.core_of_cores hs]
  simp only [decide_eq_true_eq, Core.roused, cold]

theorem State.wakeCluster_clu (s : State) (k : Nat) : (s.wakeCluster k).clu k = 0 := by
  unfold State.wakeCluster
  extract_lets cold p s1 s2
  rw [State.clu, State.rf_wf_same _ _ _ _ _ (by decide) (by decide)]
  rfl

theorem State.wakeCluster_lock (s : State) (k : Nat) : Sparse.get 0 (s.wakeCluster k).pwr.lock k = lockAc (s.clu k) := by
  unfold State.wakeCluster
  extract_lets cold p s1 s2
  have hs : s2.pwr = s1.pwr := by unfold s2; split <;> rfl
  rw [State.wf_pwr, State.modClusters_pwr, hs]
  exact Sparse.get_set_same ..

theorem State.wakeCluster_fcnt (s : State) (k : Nat) (h : s.clu k = 3) : (s.wakeCluster k).rn .FCNT k 0 = 0 := by
  unfold State.wakeCluster
  extract_lets cold p s1 s2
  rw [State.rn_wf_other _ (by decide), State.rn_of_regs (State.modClusters_regs ..)]
  unfold s2
  rw [if_pos (decide_eq_true h), State.rn_wn_same, Nat.zero_mod]

theorem wakeEvent_running {g : Nat} {s : State} (hg : g < 4096) (hp : (s.core g).power ≠ 0) (hw : (s.core g).waking = false)
    (hc : s.clu (g / 64) = 0) : exec (.wakeEvent g) s
      = .next (if s.inSvc g = true then s.modCore g fun c => { c with waking := true } else s) := by
  rw [exec, execWakeEvent, if_neg (by simp [hg, hp, hw]), if_pos hc]

theorem wakeEvent_cluster {g : Nat} {s : State} (hg : g < 4096) (hp : (s.core g).power ≠ 0) (hw : (s.core g).waking = false)
    (hc : s.clu (g / 64) ≠ 0) (hm : s.mayWake (g / 64) = true) : ∃ t, exec (.wakeEvent g) s = .next t ∧ t.clu (g / 64) = 0
      ∧ (t.core g = (if s.inSvc g = true then { (s.core g).roused (s.clu (g / 64)) with waking := true }
            else (s.core g).roused (s.clu (g / 64)))
         ∧ ∀ h, h < 4096 → h ≠ g → t.core h = if h / 64 = g / 64 then (s.core h).roused (s.clu (g / 64)) else s.core h)
      ∧ Sparse.get 0 t.pwr.lock (g / 64) = lockAc (s.clu (g / 64))
      ∧ (s.clu (g / 64) = 3 → t.rn .FCNT (g / 64) 0 = 0) ∧ t.mem = s.mem := by
  have he : exec (.wakeEvent g) s = .next (if (s.wakeCluster (g / 64)).inSvc g = true
      then (s.wakeCluster (g / 64)).modCore g fun c => { c with waking := true } else s.wakeCluster (g / 64)) := by
    rw [exec, execWakeEvent, if_neg (by simp [hg, hp, hw]), if_neg hc, if_neg (by simp [hm])]
  rw [State.wakeCluster_inSvc] at he
  refine ⟨_, he, ?_⟩
  have hcore : (s.wakeCluster (g / 64)).core g = (s.core g).roused (s.clu (g / 64)) := by rw [State.wakeCluster_core _ _ hg, if_pos rfl]
  have hother (h : Nat) (hh : h < 4096) : (s.wakeCluster (g / 64)).core h
      = if h / 64 = g / 64 then (s.core h).roused (s.clu (g / 64)) else s.core h := s.wakeCluster_core _ hh
  by_cases hs : s.inSvc g = true
  · rw [if_pos hs, if_pos hs]
    have hclu := s.wakeCluster_clu (g / 64)
    have hlock := s.wakeCluster_lock (g / 64)
    have hfcnt := s.wakeCluster_fcnt (g / 64)
    have hmem := s.wakeCluster_mem (g / 64)
    generalize s.wakeCluster (g / 64) = u at *
    refine ⟨hclu, ⟨?_, fun h hh hne => ?_⟩, hlock, hfcnt, hmem⟩
    · rw [State.modCore, State.core_setCore_same, hcore]
    · rw [State.modCore, State.core_setCore_other _ _ hne, hother h hh]
  · rw [if_neg hs, if_neg hs]
    exact ⟨s.wakeCluster_clu _, ⟨hcore, fun h hh _ => hother h hh⟩, s.wakeCluster_lock _, s.wakeCluster_fcnt _,
      s.wakeCluster_mem _⟩

/-! ### The end of a wake -/

/-- A core that has woken runs: its lock is over, its hold bit clear. -/
def State.woken (s : State) (g : Nat) : State :=
  (State.modCore { s with pwr := { s.pwr with lock := Sparse.set 0 s.pwr.lock (g / 64) 0 } } g
    fun c => Core.endZero { c with power := 0, waking := false, marked := 0 }).wf .HOLD (g / 64) 0 (g % 64) (g % 64) 0

theorem wakeComplete_eq {g : Nat} {s : State} (hw : (s.core g).waking = true) (hs : s.inSvc g = true) :
    exec (.wakeComplete g) s = .next
      (let u := if bit (s.core g).marked 0 = 1 then (s.woken g).zeroPart g false else s.woken g
       if bit (s.core g).marked 1 = 1 then u.zeroPart g true else u) := by
  rw [exec, execWakeComplete, if_neg (by simp [hw]), if_neg (by simp [hs])]
  rfl

theorem State.woken_core (s : State) (g : Nat) :
    (s.woken g).core g = Core.endZero { s.core g with power := 0, waking := false, marked := 0 } :=
  State.core_setCore_same ..

theorem wakeComplete_unmarked {g : Nat} {s : State} (hw : (s.core g).waking = true) (hs : s.inSvc g = true)
    (hm : (s.core g).marked = 0) : ∃ t, exec (.wakeComplete g) s = .next t
      ∧ t.core g = Core.endZero { s.core g with power := 0, waking := false, marked := 0 } ∧ Sparse.get 0 t.pwr.lock (g / 64) = 0
      ∧ t.rf .HOLD (g / 64) 0 (g % 64) (g % 64) = 0 ∧ t.mem = s.mem ∧ ∀ h, h ≠ g → t.core h = s.core h := by
  have hl : Sparse.get 0 (Sparse.set 0 s.pwr.lock (g / 64) 0) (g / 64) = 0 := Sparse.get_set_same ..
  refine ⟨s.woken g, ?_, s.woken_core g, hl, ?_, rfl, fun h hh => State.core_setCore_other _ _ hh⟩
  · rw [wakeComplete_eq hw hs, hm]
    rfl
  · rw [State.woken, State.rf_wf_same _ _ _ _ _ le_rfl (Nat.mod_lt _ (by decide)), Nat.zero_mod]

theorem Core.endZero_wakes (c : Core) : c.endZero.power = c.power ∧ c.endZero.waking = c.waking := by
  unfold Core.endZero
  split <;> exact ⟨rfl, rfl⟩

/-- The zeroing of a core's part in its local store. -/
theorem State.zeroLs_byte (s : State) (g lo hi a : Nat) :
    (s.zeroLs g lo hi).byte a = if aper g + lo ≤ a ∧ a < aper g + hi then 0 else s.byte a := by
  refine (Sparse.get_filter_key 0 s.mem (fun k => decide (k < aper g + lo) || decide (aper g + hi ≤ k)) a).trans ?_
  by_cases h : aper g + lo ≤ a ∧ a < aper g + hi
  · rw [if_pos h, if_neg]
    simpa using h
  · rw [if_neg h, if_pos]
    · rfl
    · simp only [Bool.or_eq_true, decide_eq_true_eq]
      omega

theorem State.zeroPart_byte (s : State) (g : Nat) (guest : Bool) (a : Nat) :
    (s.zeroPart g guest).byte a
      = if aper g + (s.mapped g guest).1 ≤ a ∧ a < aper g + (s.mapped g guest).2 then 0 else s.byte a := by
  refine Eq.trans ?_ (s.zeroLs_byte g _ _ a)
  cases guest <;> rfl

theorem State.zeroPart_guest_core (s : State) (g h : Nat) : (s.zeroPart g true).core h = s.core h := rfl

theorem State.zeroPart_host_core (s : State) (g : Nat) : (s.zeroPart g false).core g = (s.core g).invalidate.startZero := by
  refine (State.core_setCore_same ..).trans (congrArg Core.startZero ?_)
  exact State.core_setCore_same ..

theorem wakeComplete_marked {g : Nat} {s : State} (hw : (s.core g).waking = true) (hs : s.inSvc g = true)
    (hm : bit (s.core g).marked 0 = 1) : ∃ t, exec (.wakeComplete g) s = .next t ∧ (t.core g).power = 0
      ∧ (t.core g).waking = false ∧ (t.core g).cc = [] ∧ ∀ o, o < s.hostLs g → t.byte (aper g + o) = 0 := by
  let u := (s.woken g).zeroPart g false
  have hc : u.core g = (Core.endZero { s.core g with power := 0, waking := false, marked := 0 }).invalidate.startZero := by
    rw [← State.woken_core]
    exact State.zeroPart_host_core ..
  have hp : (u.core g).power = 0 ∧ (u.core g).waking = false ∧ (u.core g).cc = [] := by
    obtain ⟨h1, h2⟩ := Core.endZero_wakes { s.core g with power := 0, waking := false, marked := 0 }
    rw [hc]
    exact ⟨h1, h2, rfl⟩
  have hl : (s.woken g).hostLs g = s.hostLs g := by
    have hr (i : Nat) : (s.woken g).rn .SPLIT i 0 = s.rn .SPLIT i 0 := State.rn_wf_other _ (by decide) ..
    simp only [State.hostLs, State.lsSize, State.gres, State.rf, hr]
  have hb (o : Nat) (ho : o < s.hostLs g) : u.byte (aper g + o) = 0 := by
    rw [State.zeroPart_byte, if_pos]
    simp only [State.mapped, Bool.false_eq_true, if_false, hl]
    omega
  refine ⟨_, wakeComplete_eq hw hs, ?_⟩
  rw [if_pos hm]
  dsimp only
  split
  · refine ⟨hp.1, hp.2.1, hp.2.2, fun o ho => ?_⟩
    rw [State.zeroPart_byte]
    split
    · rfl
    · exact hb o ho
  · exact ⟨hp.1, hp.2.1, hp.2.2, hb⟩

end Sys2Proof.Machine
end

section
/-! PROOF. Aborted jobs, failed links and lost PLL lock (R32, R414, R449, R484). -/

set_option Elab.async false

namespace Sys2Proof.Machine

/-! ### What the end of a job leaves alone -/

/-- The registers that the end of a job writes. -/
def jobRegs : List Reg := [.JACT, .VCFG, .SHADOW, .GSTAT, .RSEQ, .RDROP]

/-- From `s` to `t` jobs have ended: no job has begun, the hold of parameter reads may have ended on cores, and requests, responses,
memory, the channels and the links are as they were. -/
structure JobsEnd (s t : State) : Prop where
  regs : ∀ r i j, r ∉ jobRegs → t.rn r i j = s.rn r i j
  jobs : ∀ f, s.jobOk f = false → t.jobOk f = false
  cores : ∀ g, ∃ ph, t.core g = { s.core g with phold := ph }
  reqs : t.reqs = s.reqs
  resps : t.resps = s.resps
  mem : t.mem = s.mem
  down : t.down = s.down
  stby : t.stby = s.stby
  pat : t.pat = s.pat
  pins : t.pins = s.pins

section
variable {a s t : State}

theorem JobsEnd.refl (s : State) : JobsEnd s s :=
  ⟨fun _ _ _ _ => rfl, fun _ h => h, fun g => ⟨(s.core g).phold, rfl⟩, rfl, rfl, rfl, rfl, rfl, rfl, rfl⟩

theorem JobsEnd.upd {fab ladle runner vote notices records ldlog pba out} (h : JobsEnd a s) :
    JobsEnd a { s with fab := fab, ladle := ladle, runner := runner, vote := vote, notices := notices, records := records,
                       ldlog := ldlog, pba := pba, out := out } :=
  ⟨h.regs, h.jobs, h.cores, h.reqs, h.resps, h.mem, h.down, h.stby, h.pat, h.pins⟩

/-- A register of the ladles or the votes, or of the error ring, is written. -/
theorem JobsEnd.wn {r i j v} (h : JobsEnd a s) (hr : r ∈ jobRegs := by decide) (hj : r ≠ .JACT := by decide) : JobsEnd a
    (s.wn r i j v) := by
  refine ⟨fun r' i' j' h' => ?_, fun f hf => ?_, h.cores, h.reqs, h.resps, h.mem, h.down, h.stby, h.pat, h.pins⟩
  · rw [State.rn_wn_other s (ne_of_mem_of_not_mem hr h').symm]
    exact h.regs r' i' j' h'
  · rw [State.jobOk, State.rf, State.rn_wn_other s hj.symm]
    exact h.jobs f hf

theorem State.jobOk_end_same (s : State) (f : Nat) : (s.wf .JACT f 0 31 31 0).jobOk f = false := by
  rw [State.jobOk, State.rf_wf_same _ _ _ _ _ (by decide) (by decide)]
  rfl

theorem State.jobOk_end_other (s : State) {f f' : Nat} (h : f' ≠ f) : (s.wf .JACT f 0 31 31 0).jobOk f' = s.jobOk f' := by
  rw [State.jobOk, State.rf, State.rn_wf_elsewhere _ _ _ _ (by decide) (by decide) (by simpa using h), State.jobOk, State.rf]

theorem JobsEnd.jact {f} (h : JobsEnd a s) : JobsEnd a (s.wf .JACT f 0 31 31 0) := by
  refine ⟨fun r' i' j' h' => ?_, fun f' hf => ?_, h.cores, h.reqs, h.resps, h.mem, h.down, h.stby, h.pat, h.pins⟩
  · rw [State.rn_wf_other s (fun e => h' (by rw [e]; decide))]
    exact h.regs r' i' j' h'
  · by_cases hff : f' = f
    · rw [hff, State.jobOk_end_same]
    · rw [State.jobOk_end_other s hff]
      exact h.jobs f' hf

theorem JobsEnd.foldl {α : Type} {f : State → α → State} {l : List α} (h : JobsEnd a s)
    (hf : ∀ {s}, JobsEnd a s → ∀ x, JobsEnd a (f s x)) : JobsEnd a (l.foldl f s) :=
  foldl_keeps (P := JobsEnd a) (fun _ x h1 => hf h1 x) l h

theorem JobsEnd.clearGroup {g} (h : JobsEnd a s) : JobsEnd a (s.clearGroup g) := .wn (.wn h.upd)
theorem JobsEnd.clearFlight {f} (h : JobsEnd a s) : JobsEnd a (s.clearFlight f) := .upd (.foldl h fun h1 _ => h1.clearGroup)

theorem State.core_unhold (s : State) (f g : Nat) :
    (s.unhold f).core g = if (s.core g).hflask = f then { s.core g with phold := false } else s.core g :=
  Sparse.get_map Core.init (fun _ c => if c.hflask = f then { c with phold := false } else c) s.cores (by split <;> rfl)

theorem JobsEnd.unhold {f} (h : JobsEnd a s) : JobsEnd a (s.unhold f) := by
  have h1 : JobsEnd a (s.wf .SHADOW f 0 1 1 0) := h.wn
  refine ⟨h1.regs, h1.jobs, fun g => ?_, h.reqs, h.resps, h.mem, h.down, h.stby, h.pat, h.pins⟩
  obtain ⟨ph, hg⟩ := h.cores g
  rw [State.core_unhold]
  split
  · exact ⟨false, by rw [hg]⟩
  · exact ⟨ph, hg⟩

theorem JobsEnd.ite {c : Prop} [Decidable c] (hs : JobsEnd a s) (ht : JobsEnd a t) : JobsEnd a (if c then s else t) := by
  split
  · exact hs
  · exact ht

theorem JobsEnd.keep {r} (h : JobsEnd a s) : JobsEnd a (s.keep r) :=
  .ite h.upd (by
    split
    · exact h.upd
    · exact h.wn)

theorem JobsEnd.raiseVec {ld v} (h : JobsEnd a s) : JobsEnd a (s.raiseVec ld v) := .ite h.upd h.upd
theorem JobsEnd.logTo {f cls rseq} (h : JobsEnd a s) : JobsEnd a (s.logTo f cls rseq) := .ite (.raiseVec h.upd) h.upd

theorem JobsEnd.record {cls code src inst flask d0 d1 d2} (h : JobsEnd a s) : JobsEnd a (s.record cls code src inst flask d0 d1 d2) := by
  unfold State.record
  dsimp only
  split
  · exact .logTo (.wn (.keep (.ite h.upd h)))
  · exact .wn (.keep (.ite h.upd h))

theorem JobsEnd.ended {f step} (h : JobsEnd a (s.wf .JACT f 0 31 31 0)) : JobsEnd a (s.jobEndAt f step) := by
  unfold State.jobEndAt
  refine JobsEnd.record ?_
  split
  · exact .unhold (.wn h.clearFlight)
  · exact h.clearFlight

theorem JobsEnd.jobEnd {f} (h : JobsEnd a s) : JobsEnd a (s.jobEnd f) := .ended h.jact
theorem JobsEnd.jobAbort {f} (h : JobsEnd a s) : JobsEnd a (s.jobAbort f) := h.jobEnd.upd
theorem JobsEnd.abortAll (h : JobsEnd a s) : JobsEnd a s.abortAll := .foldl h fun h1 _ => h1.jobAbort

end

/-- After the end of its job a flask has none. -/
theorem State.jobEnd_jobOk (s : State) (f : Nat) : (s.jobEnd f).jobOk f = false :=
  (JobsEnd.ended (.refl _)).jobs f (s.jobOk_end_same f)

theorem State.jobAbort_jobOk (s : State) (f : Nat) : (s.jobAbort f).jobOk f = false := s.jobEnd_jobOk f

theorem State.abortAll_jobOk (s : State) {f : Nat} (hf : f < 16) : s.abortAll.jobOk f = false := by
  by_cases h : s.jobOk f = true
  · exact foldl_reaches (P := fun s => s.jobOk f = false) (x := f) (fun s => s.jobAbort_jobOk f)
      (fun s y h => (JobsEnd.jobAbort (.refl s)).jobs f h) (List.mem_filter.2 ⟨List.mem_range.2 hf, h⟩) s
  · exact (JobsEnd.abortAll (.refl s)).jobs f (by simpa using h)

/-! ### Failed links -/

theorem HomeOnly.trans {b : Bool} {s t u : State} (h : HomeOnly b s t) (h' : HomeOnly b t u) : HomeOnly b s u where
  regs r i j hr := (h'.regs r i j hr).trans (h.regs r i j hr)
  cores g := by
    obtain ⟨pf, hpf⟩ := h.cores g
    obtain ⟨pf', hpf'⟩ := h'.cores g
    exact ⟨pf', by rw [hpf', hpf]⟩
  still hb := (h'.still hb).trans (h.still hb)
  pat := h'.pat.trans h.pat
  down := h'.down.trans h.down
  queue := h'.queue.trans h.queue
  saved := h'.saved.trans h.saved
  stby := h'.stby.trans h.stby
  pins := h'.pins.trans h.pins
  pwr := h'.pwr.trans h.pwr
  cxlHeld := h'.cxlHeld.trans h.cxlHeld
  slot := h'.slot.trans h.slot
  selfref := h'.selfref.trans h.selfref
  reqs := List.Subset.trans h.reqs h'.reqs
  resps := List.Subset.trans h.resps h'.resps

theorem Req.orphan_updates {q : Req} (h : q.kind.updates = true) : q.orphan.kind.updates = true := by
  unfold Req.orphan
  cases hk : q.kind <;> simp_all [RKind.updates]

/-- A request that a failed link ends is served as an update at most. -/
theorem HomeOnly.linkLost {b : Bool} {a s : State} {q : Req} {mayApply : Bool} (h : HomeOnly b a s) :
    HomeOnly b a (s.linkLost q mayApply) := by
  have h1 : HomeOnly b a (if mayApply && q.kind.updates && bit q.addr 63 = 0 then
      (if s.freeB.1 = true then s.freeB.2.serve q.orphan else s.freeB.2) else s) := by
    split
    · rename_i hc
      simp only [Bool.and_eq_true] at hc
      exact .ite (h.freeB.serveUpdate (Req.orphan_updates hc.1.2)) h.freeB
    · exact h
  unfold State.linkLost
  dsimp only
  split
  · exact h1
  · exact h1.updResps

/-- A lost request that is not another node's comes back with zeros, poisoned, and the status of a failed link. -/
theorem State.linkLost_resp (s : State) {q : Req} (mayApply : Bool) (h : ∀ n k, q.src ≠ .node n k) : ∃ p ∈ (s.linkLost q mayApply).resps,
    p.req = q ∧ p.status = 5 ∧ p.data = List.replicate 128 0 ∧ p.pois = List.range 32 := by
  unfold State.linkLost
  dsimp only
  split
  · rename_i n k hk
    exact absurd hk (h n k)
  · exact ⟨_, List.mem_append_right _ (List.mem_singleton.2 rfl), rfl, rfl, rfl, rfl⟩

theorem linkFailed_healthy {c : Crossing} {x : Nat} {s : State} (hc : crossingNum c = some x) (h : s.rf .XPHASE 0 x 8 8 = 0) :
    exec (.linkFailed c) s = .next s := by
  simp only [exec, execLinkFailed, hc, h, if_true]

/-- The state in which a link has failed: its record is made, its jobs are aborted, and what used it is taken out. -/
def State.linkCut (s : State) (x : Nat) : State :=
  let hit (q : Req) : Bool := (s.uses q none).contains x
  let hitOut (o : Outst) : Bool := (s.uses o.req (some o.port)).contains x
  let mark (p : Resp) : Resp :=
    if hit p.req then { p with data := List.replicate 128 0, pois := List.range 32, olds := [], status := 5 } else p
  let s := State.abortAll (State.record { s with down := NSet.add x s.down } 4 0x0001 11 0 none x 0 0)
  { s with reqs := s.reqs.filter fun q => !(hit q), resps := s.resps.map mark,
           m := { s.m with miss := s.m.miss.map fun e => (e.1, e.2.filter fun q => !(hit q)) },
           fab := { s.fab with outs := s.fab.outs.filter fun o => !(hitOut o) } }

theorem State.linkCut_ends (s : State) (x : Nat) :
    JobsEnd { s with down := NSet.add x s.down }
      (State.abortAll (State.record { s with down := NSet.add x s.down } 4 0x0001 11 0 none x 0 0)) :=
  JobsEnd.abortAll (JobsEnd.record (.refl _))

theorem State.linkCut_reqs (s : State) (x : Nat) : (s.linkCut x).reqs = s.reqs.filter fun q => !((s.uses q none).contains x) :=
  congrArg (List.filter _) (s.linkCut_ends x).reqs

theorem linkFailed_fails {c : Crossing} {x : Nat} {s : State} (hc : crossingNum c = some x) (h : s.rf .XPHASE 0 x 8 8 = 1) :
    ∃ t, exec (.linkFailed c) s = .next t ∧ (∀ f, f < 16 → t.jobOk f = false)
      ∧ (∀ q ∈ s.reqs, (s.uses q none).contains x = false → q ∈ t.reqs)
      ∧ (∀ q ∈ s.reqs, (s.uses q none).contains x = true → (∀ n k, q.src ≠ .node n k) → ∃ p ∈ t.resps, p.req = q ∧ p.status = 5
          ∧ p.data = List.replicate 128 0 ∧ p.pois = List.range 32)
      ∧ NSet.has t.down x = true ∧ ∀ g, t.core g = { s.core g with phold := (t.core g).phold } := by
  let rs := s.reqs.filter fun q => (s.uses q none).contains x
  let ms := (s.m.miss.map fun e => e.2.filter fun q => (s.uses q none).contains x).flatten
  let os := s.fab.outs.filter fun o => (s.uses o.req (some o.port)).contains x
  let t1 := rs.foldl (fun s q => s.linkLost q true) (s.linkCut x)
  let t2 := ms.foldl (fun s q => s.linkLost q true) t1
  let t := os.foldl (fun s o => s.linkLost o.req false) t2
  have he : exec (.linkFailed c) s = .next t := by
    simp only [exec, execLinkFailed, hc, if_neg (show ¬s.rf .XPHASE 0 x 8 8 = 0 by omega)]
    rfl
  have h2 : HomeOnly false t1 t := .foldl (.foldl (.refl _) fun h1 _ => h1.linkLost) fun h1 _ => h1.linkLost
  have h1 : HomeOnly false (s.linkCut x) t := .trans (.foldl (.refl _) fun h1 _ => h1.linkLost) h2
  have h0 := s.linkCut_ends x
  refine ⟨t, he, fun f hf => ?_, fun q hq hx => ?_, fun q hq hx hn => ?_, ?_, fun g => ?_⟩
  · rw [State.jobOk, State.rf, h1.regs _ _ _ (by decide)]
    exact State.abortAll_jobOk _ hf
  · refine h1.reqs ?_
    rw [State.linkCut_reqs]
    exact List.mem_filter.2 ⟨hq, by rw [hx]; rfl⟩
  · obtain ⟨p, hp, hpq⟩ := foldl_reaches (f := fun s q => s.linkLost q true) (x := q) (l := rs)
      (P := fun u => ∃ p ∈ u.resps, p.req = q ∧ p.status = 5 ∧ p.data = List.replicate 128 0 ∧ p.pois = List.range 32)
      (fun s => s.linkLost_resp true hn) (fun s y ⟨p, hp, hpq⟩ => ⟨p, ((HomeOnly.refl (b := false) s).linkLost).resps hp, hpq⟩)
      (List.mem_filter.2 ⟨hq, hx⟩) (s.linkCut x)
    exact ⟨p, h2.resps hp, hpq⟩
  · rw [h1.down]
    exact (congrArg (NSet.has · x) h0.down).trans (by simp)
  · obtain ⟨ph, hg⟩ := h0.cores g
    have hg' : t.core g = { s.core g with phold := ph } := (State.core_of_cores (h1.still rfl) g).trans hg
    rw [hg']

/-! ### Lost PLL lock -/

/-- A loop over distinct places, of which the step for `x` alone changes what `p` reads. -/
theorem foldl_at {α β : Type} [DecidableEq α] {p : State → β} {F : β → β} {f : State → α → State} {x : α}
    (hx : ∀ s, p (f s x) = F (p s)) {l : List α} (ho : ∀ s, ∀ y ∈ l, y ≠ x → p (f s y) = p s) (hl : l.Nodup) (s : State) :
    p (l.foldl f s) = if x ∈ l then F (p s) else p s := by
  induction l generalizing s with
  | nil => rfl
  | cons y l ih =>
    obtain ⟨hy, hl⟩ := List.nodup_cons.1 hl
    rw [List.foldl_cons, ih (fun s z hz => ho s z (List.mem_cons_of_mem _ hz)) hl]
    by_cases h : y = x
    · subst h
      rw [if_neg hy, if_pos List.mem_cons_self, hx]
    · rw [ho s y List.mem_cons_self h]
      simp [Ne.symm h]

/-- A quarantined core: no stream issues. -/
def Core.quarantined (c : Core) : Core := { (c.stopAll false 4).stopAll true 4 with quar := true }

theorem Core.quarantined_eq (c : Core) : c.quarantined = { c with stop := [4, 4, 4, 4], quar := true } := by
  have h (n : Nat) : (if n = 4 then n else 4) = 4 := by split <;> simp_all
  simp [Core.quarantined, Core.stopAll, List.range_succ, h]

/-- Writes of queues change nothing else. -/
theorem foldl_setQ_only (F : State → Nat → QueueSt) (l : List Nat) (s : State) :
    ∃ q, l.foldl (fun s f => s.setQ f (F s f)) s = { s with queue := q } := by
  induction l generalizing s with
  | nil => exact ⟨s.queue, rfl⟩
  | cons f l ih =>
    obtain ⟨q, h⟩ := ih (s.setQ f (F s f))
    exact ⟨q, h⟩

theorem State.quarantine_only (s : State) (g : Nat) : ∃ q ns, s.quarantine g
    = { (s.modCore g Core.quarantined).wn .QMAP 0 (g / 64)
          (setFld (s.rn .QMAP 0 (g / 64)) (g % 64) (g % 64) 0) with queue := q, notices := ns } := by
  unfold State.quarantine
  extract_lets ns s1 s2 s3
  obtain ⟨q, h⟩ : ∃ q, s3 = { s2 with queue := q } := foldl_setQ_only _ _ s2
  exact ⟨q, s3.notices ++ ns, congrArg (fun u : State => { u with notices := s3.notices ++ ns }) h⟩

theorem State.quarantine_core (s : State) (g h : Nat) :
    (s.quarantine g).core h = if h = g then (s.core g).quarantined else s.core h := by
  obtain ⟨q, ns, e⟩ := s.quarantine_only g
  rw [e]
  by_cases hg : h = g
  · rw [if_pos hg, hg]
    exact State.core_setCore_same ..
  · rw [if_neg hg]
    exact State.core_setCore_other _ _ hg

theorem State.quarantine_rn (s : State) (g : Nat) (r : Reg) (i j : Nat) : (s.quarantine g).rn r i j
    = (s.wn .QMAP 0 (g / 64) (setFld (s.rn .QMAP 0 (g / 64)) (g % 64) (g % 64) 0)).rn r i j := by
  obtain ⟨q, ns, e⟩ := s.quarantine_only g
  rw [e]
  rfl

theorem State.quarantine_mem (s : State) (g : Nat) : (s.quarantine g).mem = s.mem := by
  obtain ⟨q, ns, e⟩ := s.quarantine_only g
  rw [e]
  rfl

theorem State.pllQuarantine_core (s : State) (g h : Nat) :
    (s.pllQuarantine g).core h = if h = g then (s.core g).quarantined else s.core h := by
  rw [State.pllQuarantine, State.core_of_cores (HomeOnly.still (b := false) (.record (.refl _)) rfl), State.quarantine_core]

theorem State.pllQuarantine_rn (s : State) (g : Nat) {r : Reg} (hr : r ∉ homeRegs) (i j : Nat) : (s.pllQuarantine g).rn r i j
    = (s.wn .QMAP 0 (g / 64) (setFld (s.rn .QMAP 0 (g / 64)) (g % 64) (g % 64) 0)).rn r i j := by
  rw [State.pllQuarantine, (HomeOnly.record (b := false) (.refl _)).regs _ _ _ hr, State.quarantine_rn]

theorem State.pllQuarantine_mem (s : State) (g : Nat) : (s.pllQuarantine g).mem = s.mem := by
  rw [State.pllQuarantine, (JobsEnd.record (.refl _)).mem, State.quarantine_mem]

theorem State.pllQuarantine_inSvc_same (s : State) (g : Nat) : (s.pllQuarantine g).inSvc g = false := by
  have hm := Nat.mod_lt g (show 0 < 64 by decide)
  rw [State.inSvc, State.pllQuarantine_rn _ _ (by decide), State.rn_wn_same, ← fld_bit, fld_mod _ _ _ _ hm, fld_setFld_same _ _ le_rfl,
    Nat.zero_mod]
  rfl

theorem State.pllQuarantine_inSvc_other (s : State) {g h : Nat} (hg : g < 4096) (hh : h < 4096) (hne : g ≠ h) :
    (s.pllQuarantine g).inSvc h = s.inSvc h := by
  have hm := Nat.mod_lt h (show 0 < 64 by decide)
  rw [State.inSvc, State.pllQuarantine_rn _ _ (by decide), State.inSvc]
  by_cases hk : h / 64 = g / 64
  · rw [hk, State.rn_wn_same, ← fld_bit, fld_mod _ _ _ _ hm, fld_setFld_other _ _ (Nat.le_succ _) (by omega), fld_bit]
  · rw [State.rn_wn_elsewhere _ _ (by omega) (by omega) (by simpa using hk)]

theorem clusterPll_lost {k : Nat} {s : State} (h : s.rf .XPHASE 0 0 8 8 = 1) (hk : k < 64) :
    ∃ t, exec (.pllLockLoss (.cluster k)) s = .next t ∧ t.rf .PSTATE k 0 2 2 = 1 ∧ t.mem = s.mem
      ∧ (∀ g, g < 4096 → g / 64 = k → s.inSvc g = true
          → t.inSvc g = false ∧ t.core g = { s.core g with stop := [4, 4, 4, 4], quar := true })
      ∧ ∀ g, g < 4096 → g / 64 ≠ k → t.inSvc g = s.inSvc g ∧ t.core g = s.core g := by
  let l := ((List.range 64).map (64 * k + ·)).filter s.inSvc
  let s1 := s.wf .PSTATE k 0 2 2 1
  have hl : l.Nodup := (List.Nodup.map (fun a b h => by simpa using h) List.nodup_range).filter _
  have hmem (g : Nat) : g ∈ l ↔ (g / 64 = k ∧ s.inSvc g = true) := by
    simp only [l, List.mem_filter, List.mem_map, List.mem_range]
    constructor
    · rintro ⟨⟨n, hn, rfl⟩, hs⟩
      exact ⟨by omega, hs⟩
    · rintro ⟨hg, hs⟩
      exact ⟨⟨g % 64, by omega, by omega⟩, hs⟩
  have hcore (g : Nat) : (l.foldl State.pllQuarantine s1).core g
      = if g ∈ l then (s.core g).quarantined else s.core g :=
    foldl_at (p := fun s => s.core g) (F := Core.quarantined)
      (fun s => (s.pllQuarantine_core g g).trans (if_pos rfl))
      (fun s y _ hy => (s.pllQuarantine_core y g).trans (if_neg (Ne.symm hy))) hl s1
  have hsvc1 (g : Nat) : s1.inSvc g = s.inSvc g := by rw [State.inSvc, State.rn_wf_other _ (by decide), State.inSvc]
  have hsvc (g : Nat) (hg : g < 4096) : (l.foldl State.pllQuarantine s1).inSvc g = if g ∈ l then false else s.inSvc g := by
    rw [← hsvc1]
    exact foldl_at (p := fun s => s.inSvc g) (F := fun _ => false) (fun s => s.pllQuarantine_inSvc_same g)
      (fun s y hy hne => s.pllQuarantine_inSvc_other (by have := ((hmem y).1 hy).1; omega) hg hne) hl s1
  refine ⟨l.foldl State.pllQuarantine s1, ?_, ?_, foldl_leaves (p := State.mem) State.pllQuarantine_mem l s1, fun g hg hgk hs => ?_,
    fun g hg hgk => ?_⟩
  · rw [exec, execPllLockLoss, if_neg (by omega)]
    simp only [if_neg (Nat.not_le.2 hk)]
    rfl
  · have hp : (l.foldl State.pllQuarantine s1).rn .PSTATE k 0 = s1.rn .PSTATE k 0 :=
      foldl_leaves (p := fun s => s.rn .PSTATE k 0) (fun s g => by
        rw [State.pllQuarantine_rn _ _ (by decide), State.rn_wn_other _ (by decide)]) l s1
    rw [State.rf, hp, ← State.rf, State.rf_wf_same _ _ _ _ _ (by decide) (by decide)]
    rfl
  · have hin : g ∈ l := (hmem g).2 ⟨hgk, hs⟩
    exact ⟨(hsvc g hg).trans (if_pos hin), (hcore g).trans ((if_pos hin).trans (s.core g).quarantined_eq)⟩
  · have hin : g ∉ l := fun hin => hgk ((hmem g).1 hin).1
    exact ⟨(hsvc g hg).trans (if_neg hin), (hcore g).trans (if_neg hin)⟩

theorem otherPll_lost {kind i : Nat} {s : State} (h : s.rf .XPHASE 0 0 8 8 = 1) (hk : kind ≠ 0) (hi : i < pllCount kind) :
    ∃ t, exec (.pllLockLoss (.other kind i)) s = .next t ∧ t.rf .CLKSTAT 0 0 0 0 = 0 ∧ (∀ f, f < 16 → t.jobOk f = false)
      ∧ (∀ g, t.core g = { s.core g with phold := (t.core g).phold }) ∧ t.mem = s.mem := by
  let s1 := s.wf .CLKSTAT 0 0 0 0 0
  have hj : JobsEnd s1 (s1.record 4 0x0003 11 0 none kind i 0).abortAll := .abortAll (.record (.refl s1))
  refine ⟨(s1.record 4 0x0003 11 0 none kind i 0).abortAll, ?_, ?_, fun f => State.abortAll_jobOk _, fun g => ?_, hj.mem⟩
  · rw [exec, execPllLockLoss, if_neg (by omega)]
    simp only [if_neg (show ¬(kind = 0 ∨ pllCount kind ≤ i) by omega)]
    rfl
  · rw [State.rf, hj.regs _ _ _ (by decide), ← State.rf, State.rf_wf_same _ _ _ _ _ (by decide) (by decide)]
    rfl
  · obtain ⟨ph, hg⟩ := hj.cores g
    have hg' : (s1.record 4 0x0003 11 0 none kind i 0).abortAll.core g = { s.core g with phold := ph } := hg
    rw [hg']

end Sys2Proof.Machine
end

section
/-! PROOF. Module standby, the thermal trip and the leak (R495, R499, R532). -/

set_option Elab.async false

namespace Sys2Proof.Machine

/-! ### What the loss of power and the cleaning of the caches leave alone -/

theorem State.modClusters_only (s : State) (k : Nat → Bool) (f : Core → Core) :
    s.modClusters k f = { s with cores := (s.modClusters k f).cores } := by
  unfold State.modClusters
  generalize List.range 4096 = l
  rfl

theorem State.unpower_only (s : State) (k : Nat → Bool) :
    s.unpower k = { s with regs := (s.unpower k).regs, mem := (s.unpower k).mem, pois := (s.unpower k).pois, m := (s.unpower k).m } := rfl

theorem foldl_coldMark_only (l : List Nat) (s : State) : ∃ r, l.foldl State.coldMark s = { s with regs := r } := by
  induction l generalizing s with
  | nil => exact ⟨s.regs, rfl⟩
  | cons k l ih =>
    obtain ⟨r, h⟩ := ih (s.coldMark k)
    exact ⟨r, h⟩

/-- Clusters that go cold change registers, memory, cores and what is kept of storage errors, and nothing else. -/
theorem State.toCold_only (s : State) (k : Nat → Bool) :
    ∃ r c a p m, s.toCold k = { s with regs := r, cores := c, mem := a, pois := p, m := m } := by
  rw [State.toCold_eq, State.modClusters_only]
  generalize (s.modClusters k fun _ => Core.cold).cores = c
  obtain ⟨r, h⟩ := foldl_coldMark_only ((List.range 64).filter k) (State.unpower { s with cores := c } k)
  exact ⟨r, c, _, _, _, h⟩

theorem State.listLine_mem (s : State) (line : Nat) : (s.listLine line).mem = s.mem := by
  unfold State.listLine
  dsimp only
  split
  · rfl
  · split
    · rfl
    · rw [State.record_only]; rfl

theorem State.backing_mem (s : State) (line : Nat) : (s.backing line).mem = s.mem := by
  unfold State.backing
  dsimp only
  split
  · rfl
  · split
    · rfl
    · split <;> rfl

/-- The codes of a line read out change no byte. -/
theorem State.sectorCheck_mem (s : State) (e : LLine) (ks : List Nat) (whole : Bool) : (s.sectorCheck e ks whole).mem = s.mem := by
  unfold State.sectorCheck
  extract_lets words two m s1 c
  have h1 : s1.mem = s.mem := by
    unfold s1
    split <;> rfl
  split
  · exact h1
  · split
    · rw [State.backing_mem, State.record_only, State.listLine_mem, h1]
    · exact h1

theorem State.cleanLlc_homeOnly (s : State) : HomeOnly false s s.cleanLlc :=
  .upd (.foldl (.refl s) fun h1 _ => h1.sectorCheck.bankPush)

theorem State.cleanLlc_mem (s : State) : s.cleanLlc.mem = s.mem :=
  foldl_leaves (f := fun s e => (s.sectorCheck e (List.range 4) false).bankPush e.line true) (p := State.mem)
    (fun s e => s.sectorCheck_mem e _ _) _ s

theorem State.cleanLlc_clean (s : State) : ∀ e ∈ s.cleanLlc.m.llc, e.dirty = false := by
  intro e he
  obtain ⟨e', -, rfl⟩ := List.mem_map.1 he
  rfl

/-! ### Standby -/

/-- Every cluster cold, the module in standby, the caches not yet written back. -/
def State.darkened (s : State) : State := State.toCold { s with stby := true } fun _ => true

theorem State.enterStandby_from (s : State) : HomeOnly false s.darkened s.enterStandby := State.cleanLlc_homeOnly _

theorem State.darkened_only (s : State) : ∃ r c a p m,
    s.darkened = { s with stby := true, regs := r, cores := c, mem := a, pois := p, m := m } :=
  State.toCold_only { s with stby := true } _

theorem State.enterStandby_core (s : State) {g : Nat} (hg : g < 4096) : s.enterStandby.core g = Core.cold := by
  rw [State.core_of_cores (s.enterStandby_from.still rfl), State.darkened, State.toCold_core _ _ hg]
  rfl

theorem State.enterStandby_clu (s : State) {k : Nat} (hk : k < 64) : s.enterStandby.clu k = 3 := by
  rw [State.clu, State.rf, s.enterStandby_from.regs _ _ _ (by decide)]
  exact State.toCold_clu_cold _ hk rfl

theorem State.enterStandby_stby (s : State) : s.enterStandby.stby = true := by
  obtain ⟨r, c, a, p, m, h⟩ := s.darkened_only
  rw [s.enterStandby_from.stby, h]

/-- Registers outside the blocks of cores and clusters, but for the counters of the homes, keep their values in standby. -/
theorem State.enterStandby_rn (s : State) {r : Reg} (hr : Reg.PSTATE.ctorIdx < r.ctorIdx) (hh : r ≠ .HOLD) (hc : r ∉ homeRegs) (i j : Nat) :
    s.enterStandby.rn r i j = s.rn r i j := by
  rw [s.enterStandby_from.regs _ _ _ hc, State.darkened, State.toCold_rn _ _ hr hh]
  rfl

theorem pwrCmdStandby_refused {s : State} {w : Nat} (h1 : s.stby = false) (h2 : s.booted = true) (hw : s.busyWhy = some w) :
    ∃ t, exec .pwrCmdStandby s = .next t ∧ t.stby = false ∧ t.cores = s.cores ∧ t.mem = s.mem
      ∧ t.rn .RSEQ 0 0 = (s.rn .RSEQ 0 0 + 1) % 2 ^ 32 := by
  refine ⟨s.refuseCmd pwrCmdOff w, ?_, ?_, ?_, ?_, (logged_refuseCmd s _ _).1⟩
  · rw [exec, execPwrCmdStandby, if_neg (by simp [h1, h2]), hw]
  all_goals rw [State.refuseCmd, State.record_only]
  exact h1

theorem pwrCmdStandby_enters {s : State} (h1 : s.stby = false) (h2 : s.booted = true) (hw : s.busyWhy = none) :
    ∃ t, exec .pwrCmdStandby s = .next t ∧ t.stby = true ∧ (∀ g, g < 4096 → t.core g = Core.cold) ∧ (∀ k, k < 64 → t.clu k = 3)
      ∧ (∀ e ∈ t.m.llc, e.dirty = false) ∧ (∀ o, o < dramEnd → t.byte o = s.byte o) ∧ t.queue = s.queue ∧ t.saved = s.saved := by
  obtain ⟨r, c, a, p, m, hd⟩ := s.darkened_only
  refine ⟨s.enterStandby, ?_, s.enterStandby_stby, fun g => s.enterStandby_core, fun k => s.enterStandby_clu, State.cleanLlc_clean _,
    fun o ho => ?_, ?_, ?_⟩
  · rw [exec, execPwrCmdStandby, if_neg (by simp [h1, h2]), hw]
  · rw [State.byte, State.enterStandby, State.cleanLlc_mem]
    exact State.toCold_dram { s with stby := true } _ ho
  · rw [s.enterStandby_from.queue, hd]
  · rw [s.enterStandby_from.saved, hd]

theorem rotaStop_stops {c : Nat} {s : State} (hc : c < 384) (h1 : s.stby = true) (h2 : s.pwr.leaving = false)
    (h3 : NSet.has s.m.selfref c = false) (h4 : Sparse.get 0 s.m.slot c = 0)
    (h5 : ∀ b, b < 32 → Sparse.get [] s.m.bank (32 * c + b) = []) :
    ∃ t, exec (.rotaStop c) s = .next t ∧ NSet.has t.m.selfref c = true
      ∧ (t.m.selfref.length = 384 → t.rf .PSTAT 0 0 16 16 = 1) ∧ (t.m.selfref.length ≠ 384 → t.regs = s.regs) ∧ t.mem = s.mem := by
  let u : State := { s with m := { s.m with selfref := NSet.add c s.m.selfref } }
  have hb : ((List.range 32).all fun b => (Sparse.get [] s.m.bank (32 * c + b)).isEmpty) = true := by
    simpa using fun b hb => h5 b hb
  have he : exec (.rotaStop c) s = .next (if (NSet.add c s.m.selfref).length = 384 then u.wf .PSTAT 0 0 16 16 1 else u) := by
    rw [exec, execRotaStop, if_neg (by simp [hc, h1, h2, h3, h4, hb])]
  have hself : NSet.has (NSet.add c s.m.selfref) c = true := by simp
  refine ⟨_, he, ?_⟩
  by_cases hl : (NSet.add c s.m.selfref).length = 384
  · rw [if_pos hl]
    refine ⟨hself, fun _ => ?_, fun h => absurd hl h, rfl⟩
    rw [State.rf_wf_same _ _ _ _ _ (by decide) (by decide)]
    rfl
  · rw [if_neg hl]
    exact ⟨hself, fun h => absurd h hl, fun _ => rfl, rfl⟩

theorem rotaStop_waits {c : Nat} {s : State} (h : Sparse.get 0 s.m.slot c ≠ 0 ∨ ∃ b, b < 32 ∧ Sparse.get [] s.m.bank (32 * c + b) ≠ []) :
    exec (.rotaStop c) s = .next s := by
  rw [exec, execRotaStop, if_pos]
  rcases h with h | ⟨b, hb, h⟩
  · simp [h]
  · have : ((List.range 32).all fun b => (Sparse.get [] s.m.bank (32 * c + b)).isEmpty) = false := by
      simpa using ⟨b, hb, h⟩
    simp [this]

/-! ### Trips -/

/-- From `s` to `t` no stopped flask has begun to run, and no job has begun; the pins are as they were. -/
structure Stopping (s t : State) : Prop where
  stopped : ∀ f, s.stopped f = true → t.stopped f = true
  jobs : ∀ f, s.jobOk f = false → t.jobOk f = false
  pins : t.pins = s.pins
  leak : t.rn .PINS 0 0 = s.rn .PINS 0 0

theorem Stopping.of_regs {s t : State} (h : t.regs = s.regs) (hp : t.pins = s.pins) : Stopping s t :=
  ⟨fun f hf => by rw [State.stopped, State.rf_of_regs h]; exact hf, fun f hf => by rw [State.jobOk, State.rf_of_regs h]; exact hf, hp,
    State.rn_of_regs h ..⟩

/-- A write of a register of another name. -/
theorem Stopping.wn (s : State) (r : Reg) (i j v : Nat) (hq : r ≠ .QSTAT) (hj : r ≠ .JACT) (hp : r ≠ .PINS) : Stopping s (s.wn r i j v) :=
  ⟨fun f hf => by rw [State.stopped, State.rf, State.rn_wn_other _ hq.symm]; exact hf,
    fun f hf => by rw [State.jobOk, State.rf, State.rn_wn_other _ hj.symm]; exact hf, rfl, State.rn_wn_other _ hp.symm ..⟩

theorem Stopping.trans {s t u : State} (h : Stopping s t) (h' : Stopping t u) : Stopping s u :=
  ⟨fun f hf => h'.stopped f (h.stopped f hf), fun f hf => h'.jobs f (h.jobs f hf), h'.pins.trans h.pins, h'.leak.trans h.leak⟩

theorem Stopping.jobEnd (s : State) (f : Nat) : Stopping s (s.jobEnd f) where
  stopped f' h := by
    rw [State.stopped, State.rf, (JobsEnd.jobEnd (.refl s)).regs _ _ _ (by decide)]
    exact h
  jobs := (JobsEnd.jobEnd (.refl s)).jobs
  pins := (JobsEnd.jobEnd (.refl s)).pins
  leak := (JobsEnd.jobEnd (.refl s)).regs _ _ _ (by decide)

theorem State.stopped_wf_same (s : State) (f : Nat) : (s.wf .QSTAT f 0 1 1 1).stopped f = true := by
  rw [State.stopped, decide_eq_true_eq]
  intro h
  have h1 : (s.wf .QSTAT f 0 1 1 1).rf .QSTAT f 0 1 1 = 1 := State.rf_wf_same _ _ _ _ _ (by decide) (by decide)
  simp only [State.rf, fld] at h h1
  omega

theorem Stopping.stopFlask (s : State) (f cause : Nat) : Stopping s (s.stopFlask f cause false) where
  stopped f' h := by
    rw [State.stopped, State.rf, State.stopFlask_qstat, ← State.rf]
    by_cases hf : f' = f
    · subst hf
      exact s.stopped_wf_same f'
    · rw [State.rf, State.rn_wf_elsewhere _ _ _ _ (by decide) (by decide) (by simpa using hf)]
      exact h
  jobs f' h := by
    rw [State.jobOk, State.rf, State.stopFlask_rn _ _ _ (by decide) (by decide) (by decide) (by decide)]
    exact h
  pins := s.stopFlask_pins f cause
  leak := State.stopFlask_rn _ _ _ (by decide) (by decide) (by decide) (by decide) _ _

theorem State.stopFlask_stopped (s : State) (f cause : Nat) : (s.stopFlask f cause false).stopped f = true := by
  rw [State.stopped, State.rf, State.stopFlask_qstat, ← State.rf]
  exact s.stopped_wf_same f

theorem State.slotFree_regs (s : State) (q : Req) : (s.slotFree q).regs = s.regs := by
  unfold State.slotFree
  split <;> rfl

theorem State.dmaOver_regs (s : State) (q : Req) : (s.dmaOver q).regs = s.regs := by
  unfold State.dmaOver
  split
  · split <;> rfl
  · rfl

theorem State.dropRemote_regs (s : State) (f : Nat) : (s.dropRemote f).regs = s.regs := by
  unfold State.dropRemote
  extract_lets mine os s1
  exact foldl_leaves (f := fun s (o : Outst) => (s.slotFree o.req).dmaOver o.req) (p := State.regs)
    (fun s o => (State.dmaOver_regs _ _).trans (s.slotFree_regs _)) os s

theorem State.slotFree_pins (s : State) (q : Req) : (s.slotFree q).pins = s.pins := by
  unfold State.slotFree
  split <;> rfl

theorem State.dmaOver_pins (s : State) (q : Req) : (s.dmaOver q).pins = s.pins := by
  unfold State.dmaOver
  split
  · split <;> rfl
  · rfl

theorem State.dropRemote_pins (s : State) (f : Nat) : (s.dropRemote f).pins = s.pins := by
  unfold State.dropRemote
  extract_lets mine os s1
  exact foldl_leaves (f := fun s (o : Outst) => (s.slotFree o.req).dmaOver o.req) (p := State.pins)
    (fun s o => (State.dmaOver_pins _ _).trans (s.slotFree_pins _)) os s

/-- One flask at a trip: its job is over, then it is stopped, then its requests are dropped. -/
theorem State.tripFlask_stops (s : State) (f : Nat) :
    Stopping s (s.tripFlask f) ∧ (s.tripFlask f).stopped f = true ∧ (s.tripFlask f).jobOk f = false := by
  unfold State.tripFlask
  extract_lets s1 s2
  have h1 : Stopping s s1 ∧ s1.jobOk f = false := by
    unfold s1
    split
    · exact ⟨.jobEnd s f, s.jobEnd_jobOk f⟩
    · rename_i h
      exact ⟨.of_regs rfl rfl, by simpa using h⟩
  have h2 : Stopping s1 s2 ∧ s2.stopped f = true := by
    unfold s2
    split
    · rename_i h
      exact ⟨.of_regs rfl rfl, by simpa [State.stopped] using h⟩
    · have hw : Stopping s1 ((s1.wn .FAULT0 f 0 (8 * 2 ^ 48)).wn .FAULT1 f 0 0) :=
        .trans (.wn _ _ _ _ _ (by decide) (by decide) (by decide)) (.wn _ _ _ _ _ (by decide) (by decide) (by decide))
      exact ⟨hw.trans (.stopFlask _ _ _), State.stopFlask_stopped _ _ _⟩
  have h3 : Stopping s2 ((s2.dropRemote f).dropRequests f false) := .of_regs (s2.dropRemote_regs f) (s2.dropRemote_pins f)
  exact ⟨(h1.1.trans h2.1).trans h3, h3.stopped f h2.2, h3.jobs f (h2.1.jobs f h1.2)⟩

theorem State.faultPin_only (s : State) : s.faultPin = { s with pins := { s.pins with faultLow := s.faultPin.pins.faultLow } } := by
  unfold State.faultPin
  split <;> rfl

/-- The flasks stop one after another. -/
theorem State.tripFlasks_stop (s : State) : ∀ f, f < s.nf →
    ((List.range s.nf).foldl State.tripFlask s).stopped f = true ∧ ((List.range s.nf).foldl State.tripFlask s).jobOk f = false :=
  fun f hf => foldl_reaches (f := State.tripFlask) (P := fun s => s.stopped f = true ∧ s.jobOk f = false) (x := f)
    (fun s => (s.tripFlask_stops f).2)
    (fun s y h => ⟨(s.tripFlask_stops y).1.stopped f h.1, (s.tripFlask_stops y).1.jobs f h.2⟩) (List.mem_range.2 hf) s

/-- The state of a trip before its pins are set and its record is made: the flasks stopped, standby entered, TRIP set. -/
def State.tripDark (s : State) : State := ((List.range s.nf).foldl State.tripFlask s).enterStandby.wf .PSTAT 0 0 18 18 1

theorem State.tripDark_rn (s : State) {r : Reg} (hr : Reg.PSTATE.ctorIdx < r.ctorIdx) (hh : r ≠ .HOLD) (hc : r ∉ homeRegs)
    (hp : r ≠ .PSTAT) (i j : Nat) : s.tripDark.rn r i j = ((List.range s.nf).foldl State.tripFlask s).rn r i j := by
  rw [State.tripDark, State.rn_wf_other _ hp, State.enterStandby_rn _ hr hh hc]

/-- What setting the pins of a trip changes. -/
theorem State.tripPins_only (s : State) (p : Pwr) :
    let u := State.faultPin { s with pwr := p, pins := { s.pins with thermtrip := true } }
    u.regs = s.regs ∧ u.cores = s.cores ∧ u.stby = s.stby ∧ u.pins.thermtrip = true ∧ u.pins.leakLow = s.pins.leakLow := by
  intro u
  have h := State.faultPin_only { s with pwr := p, pins := { s.pins with thermtrip := true } }
  change u = _ at h
  rw [h]
  exact ⟨rfl, rfl, rfl, rfl, rfl⟩

/-- The end of a trip: the pins are set, and the record is made. -/
theorem State.trip_end (s : State) (kind : Nat) :
    (∀ r i j, r ∉ homeRegs → (s.trip kind).rn r i j = s.tripDark.rn r i j) ∧ (s.trip kind).cores = s.tripDark.cores
      ∧ (s.trip kind).stby = s.tripDark.stby ∧ (s.trip kind).pins.thermtrip = true
      ∧ (s.trip kind).pins.leakLow = s.tripDark.pins.leakLow := by
  obtain ⟨hregs, hcores, hstby, htrip, hleak⟩ := s.tripDark.tripPins_only { s.tripDark.pwr with leaving := false }
  unfold State.trip
  rw [← State.tripDark]
  have h (u : State) (d : Nat) : HomeOnly false u (u.record 4 0x0006 10 0 none kind d 0) := .record (.refl _)
  exact ⟨fun r i j hr => ((h _ _).regs r i j hr).trans (State.rn_of_regs hregs r i j), ((h _ _).still rfl).trans hcores,
    (h _ _).stby.trans hstby, (congrArg Pins.thermtrip (h _ _).pins).trans htrip, (congrArg Pins.leakLow (h _ _).pins).trans hleak⟩

theorem State.trip_tripped (s : State) (kind : Nat) : Tripped s (s.trip kind) := by
  obtain ⟨hregs, hcores, hstby, htrip, -⟩ := s.trip_end kind
  refine ⟨?_, ?_, htrip, fun g hg => ?_, fun k hk => ?_, fun f hf => ?_⟩
  · exact hstby.trans (State.enterStandby_stby _)
  · rw [State.rf, hregs _ _ _ (by decide), ← State.rf, State.tripDark, State.rf_wf_same _ _ _ _ _ (by decide) (by decide)]
    rfl
  · rw [State.core_of_cores hcores, State.tripDark, State.core_of_cores (State.wf_cores ..)]
    exact State.enterStandby_core _ hg
  · rw [State.clu, State.rf, hregs _ _ _ (by decide), State.tripDark, State.rn_wf_other _ (by decide)]
    exact State.enterStandby_clu _ hk
  · obtain ⟨h1, h2⟩ := s.tripFlasks_stop f hf
    constructor
    · rw [State.stopped, State.rf, hregs _ _ _ (by decide), s.tripDark_rn (by decide) (by decide) (by decide) (by decide)]
      exact h1
    · rw [State.jobOk, State.rf, hregs _ _ _ (by decide), s.tripDark_rn (by decide) (by decide) (by decide) (by decide)]
      exact h2

theorem thermalTrip_gate {s : State} {dram : Bool} {temp : Nat} (h1 : s.booted = true) (h2 : s.rf .PSTAT 0 0 18 18 = 0)
    (h3 : s.pins.event = 0) (h4 : s.pins.cut = false) : exec (.thermalTrip dram temp) s
      = .next (if dram = true then if (s.m.hot.any fun e => 16 ≤ e.2) = true then s.trip 2 else s
          else if s.rf .THERM 0 0 15 8 ≤ temp then s.trip 1 else s) := by
  rw [exec, execThermalTrip, if_neg (by simp [h1, h2, h3, h4])]

theorem State.tripFlasks_pins (s : State) : Stopping s ((List.range s.nf).foldl State.tripFlask s) :=
  foldl_keeps (P := Stopping s) (fun u f h => h.trans (u.tripFlask_stops f).1) _ (.of_regs rfl rfl)

/-- A trip leaves the leak input and its register as they were. -/
theorem State.trip_leak (s : State) (kind : Nat) :
    (s.trip kind).pins.leakLow = s.pins.leakLow ∧ (s.trip kind).rn .PINS 0 0 = s.rn .PINS 0 0 := by
  obtain ⟨hregs, -, -, -, hleak⟩ := s.trip_end kind
  obtain ⟨r, c, a, p, m, hd⟩ := ((List.range s.nf).foldl State.tripFlask s).darkened_only
  constructor
  · rw [hleak, State.tripDark, State.wf_pins, (State.enterStandby_from _).pins, hd]
    exact congrArg Pins.leakLow s.tripFlasks_pins.pins
  · rw [hregs _ _ _ (by decide), s.tripDark_rn (by decide) (by decide) (by decide) (by decide), s.tripFlasks_pins.leak]

/-- The state after a leak is detected, before the trip. -/
def State.leaking (s : State) : State := State.wf { s with pins := { s.pins with leakLow := true } } .PINS 0 0 31 31 1

theorem leakDetected_trips {s : State} (h1 : s.pins.event = 0) (h2 : s.pins.por = false) (h3 : s.pins.cut = false) :
    ∃ t, exec .leakDetected s = .next t ∧ Tripped s t ∧ t.pins.leakLow = true ∧ t.rf .PINS 0 0 31 31 = 1 := by
  have he : exec .leakDetected s = .next (if s.leaking.pins.cut = true then s.leaking else s.leaking.trip 3) := by
    rw [exec, execLeakDetected, if_neg (by simp [h1, h2])]
    rfl
  have hc : ¬s.leaking.pins.cut = true := by
    rw [State.leaking, State.wf_pins]
    simp [h3]
  have hn : s.leaking.nf = s.nf := State.nf_of_pat (State.wf_pat ..)
  obtain ⟨hstby, htrip, hpin, hcores, hclu, hflasks⟩ := s.leaking.trip_tripped 3
  obtain ⟨hlow, hreg⟩ := s.leaking.trip_leak 3
  refine ⟨_, he.trans (by rw [if_neg hc]), ⟨hstby, htrip, hpin, hcores, hclu, hn ▸ hflasks⟩, ?_, ?_⟩
  · rw [hlow, State.leaking, State.wf_pins]
  · rw [State.rf, hreg, ← State.rf, State.leaking, State.rf_wf_same _ _ _ _ _ (by decide) (by decide)]
    rfl

end Sys2Proof.Machine
end

section
/-! PROOF. The end of standby: the rotas restart and the held host requests are served (R429, R496). -/

set_option Elab.async false

namespace Sys2Proof.Machine

/-! ### An engine's read of sound memory -/

/-- Memory is `b`, no storage error waits to be found in it, no miss is under way, and nothing is poisoned. -/
structure Serene (b : List Host.Cell) (s : State) : Prop where
  mem : s.mem = b
  derr : s.m.derr = []
  lerr : s.m.lerr = []
  serr : s.m.serr = []
  miss : s.m.miss = []
  dpois : s.m.dpois = []
  plist : s.m.plist = []
  pois : s.pois = []

theorem Sound.serene {s : State} (h : Sound s) : Serene s.mem s := by
  obtain ⟨⟨hderr, hlerr, hserr, hmiss⟩, hdpois, hplist, hpois⟩ := h
  exact ⟨rfl, hderr, hlerr, hserr, hmiss, hdpois, hplist, hpois⟩

section
variable {b : List Host.Cell} {s t : State}

theorem Serene.of (h : Serene b s) (hmem : t.mem = s.mem := by rfl) (hderr : t.m.derr = s.m.derr := by rfl)
    (hlerr : t.m.lerr = s.m.lerr := by rfl) (hserr : t.m.serr = s.m.serr := by rfl) (hmiss : t.m.miss = s.m.miss := by rfl)
    (hdpois : t.m.dpois = s.m.dpois := by rfl) (hplist : t.m.plist = s.m.plist := by rfl) (hpois : t.pois = s.pois := by rfl) :
    Serene b t :=
  ⟨hmem.trans h.mem, hderr.trans h.derr, hlerr.trans h.lerr, hserr.trans h.serr, hmiss.trans h.miss, hdpois.trans h.dpois,
    hplist.trans h.plist, hpois.trans h.pois⟩

theorem Serene.ite {c : Prop} [Decidable c] (hs : Serene b s) (ht : Serene b t) : Serene b (if c then s else t) := by
  split
  · exact hs
  · exact ht

theorem Serene.addSat {r i j w n} (h : Serene b s) : Serene b (s.addSat r i j w n) := h.of
theorem Serene.bankPush {line write} (h : Serene b s) : Serene b (s.bankPush line write) := h.of
theorem Serene.bankTake {line write} (h : Serene b s) : Serene b (s.bankTake line write) := h.of
theorem Serene.llcTouch {die set way} (h : Serene b s) : Serene b (s.llcTouch die set way) := h.of
theorem Serene.llcDirty {line} (h : Serene b s) : Serene b (s.llcDirty line) := h.of

theorem Serene.llcDrop {line} (h : Serene b s) : Serene b (s.llcDrop line) :=
  h.of (hserr := (congrArg (List.filter _) h.serr).trans h.serr.symm)

/-- Reading the codes of a line finds nothing. -/
theorem Serene.sectorCheck_eq {e ks whole} (h : Serene b s) : s.sectorCheck e ks whole = s := by
  simp [State.sectorCheck, h.serr]

theorem Serene.dramWrite {line} (h : Serene b s) : Serene b (s.dramWrite line) := by
  unfold State.dramWrite
  rw [if_neg (by rw [h.pois]; exact Bool.false_ne_true)]
  exact h.of (hderr := (congrArg (fun m => Sparse.set [] (Sparse.set [] m (2 * line) []) (2 * line + 1) []) h.derr).trans h.derr.symm)
    (hdpois := (congrArg (NSet.del · line) h.dpois).trans h.dpois.symm)
    (hplist := (congrArg (List.filter _) h.plist).trans h.plist.symm)

theorem Serene.bankWrite {line} (h : Serene b s) : Serene b (s.bankWrite line) := .ite h.dramWrite.of h.dramWrite
theorem Serene.flushBank {line} (h : Serene b s) : Serene b (s.flushBank line) := .ite h.bankTake.bankWrite h
theorem Serene.settleLine_eq {line} (h : Serene b s) : s.settleLine line = s := if_neg (by simp [h.miss])

/-- Both accesses of a line decode as good. -/
theorem Serene.decodeLine_eq {line} (h : Serene b s) : s.decodeLine line = (⟨false, false, false⟩, s) := by
  have hg (k : Nat) : rsDecode (s.accessErr line k) = .good := by
    have he : s.accessErr line k = [] := by
      rw [State.accessErr, h.dpois, h.derr]
      rfl
    rw [he]
    decide
  simp [State.decodeLine, hg, State.countAccess, h.plist]

theorem Serene.fetchLine {line flask skip} (h : Serene b s) : Serene b (s.fetchLine line flask skip false).2 := by
  have hl : s.leftover line skip = s := if_pos h.derr
  unfold State.fetchLine
  rw [h.decodeLine_eq]
  simp only [hl, Bool.false_eq_true, if_false, Bool.or_false]
  split
  · exact h
  · exact h.of (hpois := (congrArg (NSet.del · line) h.pois).trans h.pois.symm)

theorem Serene.evict {v} (h : Serene b s) : Serene b (s.evict v) :=
  .llcDrop (.ite (by rw [h.sectorCheck_eq]; exact h.bankPush) h)

theorem Serene.install {line dirty} (h : Serene b s) : Serene b (s.install line dirty) := by
  unfold State.install
  split
  · exact .ite h.llcTouch.llcDirty h.llcTouch
  · dsimp only
    refine .llcTouch ?_
    split
    · exact h.evict.of
    · exact h.of

theorem Serene.engLine {line flask off n} (h : Serene b s) : Serene b (s.engLine line flask off n false) := by
  unfold State.engLine
  extract_lets die whole settled checked hit miss
  have h1 : Serene b settled := by
    unfold settled
    rwa [h.settleLine_eq]
  have h2 : Serene b checked := by
    unfold checked
    split
    · rwa [h1.sectorCheck_eq]
    · exact h1
  split
  · have h3 : Serene b hit := h2.addSat
    exact h3.install
  · have h3 : Serene b ((miss.flushBank line).fetchLine line flask (fun _ => false) false).2 := h2.addSat.flushBank.fetchLine
    exact .ite h3 h3.install

theorem linePieces_half {off : Nat} (h : off % 64 = 0) : linePieces off 64 = [(off, 64)] := by
  have h1 : (off + 64 - 1) / 128 - off / 128 + 1 = 1 := by omega
  rw [linePieces, if_neg (by decide), h1]
  simp only [List.range_one, List.map_cons, List.map_nil, List.cons.injEq, Prod.mk.injEq, and_true]
  omega

/-- The view of an offset depends on the pattern image and the shadows alone. -/
theorem State.view_of {s t : State} (hp : t.pat = s.pat) (hr : ∀ f, t.rn .SHADOW f 0 = s.rn .SHADOW f 0) (off : Nat) :
    t.view off = s.view off := by
  unfold State.view
  dsimp only
  rw [State.region_of_pat hp, State.rf, hr, ← State.rf]

/-- The state in which an engine that reads half a line has it at its home. -/
def State.halfHome (s : State) (f off : Nat) : State :=
  if off < dramEnd then s.engLine (s.view off / 128) (some f) off 64 false else s

/-- An engine that reads half a line of sound memory reads its bytes, not poisoned. -/
theorem Serene.engRead_half {f off : Nat} (h : Serene b s) (ho : off % 64 = 0) :
    (s.engRead f off 64).1 = s.bytes (s.view off) 64 ∧ (s.engRead f off 64).2.1 = false := by
  have h1 : Serene b (s.halfHome f off) := .ite h.engLine h
  have h2 : HomeOnly true s (s.halfHome f off) := .ite (HomeOnly.refl s).engLine (.refl s)
  have hs : (s.halfHome f off).scrub ((s.halfHome f off).view off) 64 = s.halfHome f off := if_pos (.inl h1.lerr)
  have hv : (s.halfHome f off).view off = s.view off := State.view_of h2.pat (fun f => h2.regs _ _ _ (by decide)) off
  have hb : (s.halfHome f off).bytes (s.view off) 64 = s.bytes (s.view off) 64 := by
    simp only [State.bytes, State.byte, h1.mem, h.mem]
  have he : s.engRead f off 64 = ((s.halfHome f off).bytes (s.view off) 64, (s.halfHome f off).poisoned (s.view off) 64,
      s.halfHome f off) := by
    rw [State.engRead, linePieces_half ho]
    simp only [List.foldl_cons, List.foldl_nil, List.map_cons, List.map_nil, List.flatten_cons, List.flatten_nil, List.append_nil,
      List.any_cons, List.any_nil, Bool.or_false, if_neg (show ¬64 = 0 by decide)]
    rw [← State.halfHome, hs, hv]
  rw [he]
  exact ⟨hb, by simp [State.poisoned, h1.pois, NSet.has]⟩

end

/-! ### Held requests of a host -/

theorem HomeOnly.cxlLost {b : Bool} {a s : State} {ld} (h : HomeOnly b a s) : HomeOnly b a (s.cxlLost ld) := h.notify
theorem HomeOnly.cxlRead {a s : State} {ld dpa off} (h : HomeOnly true a s) : HomeOnly true a (s.cxlRead ld dpa off) :=
  .ite h.cxlLost.upd h.engRead.upd
theorem HomeOnly.cxlWrite {a s : State} {ld dpa off data mask poi} (h : HomeOnly true a s) :
    HomeOnly true a (s.cxlWrite ld dpa off data mask poi) := .ite h.cxlLost.upd h.engLine.pocWrite.upd
theorem HomeOnly.cxlClear {a s : State} {ld off d} (h : HomeOnly true a s) : HomeOnly true a (s.cxlClear ld off d) := h.engWrite.upd

/-- The service of a held request keeps what an access keeps. -/
theorem HomeOnly.serveHeld {a s : State} {e} (h : HomeOnly true a s) : HomeOnly true a (s.serveHeld e) := by
  unfold State.serveHeld
  split
  · split
    · exact h.cxlRead
    · exact h
  · split
    · exact h.cxlWrite
    · exact h
  · split
    · exact h.cxlClear
    · exact h

theorem State.hostWin_aligned (s : State) (f w : Nat) : 2 ^ 28 ∣ (s.hostWin f w).1 ∧ 2 ^ 28 ∣ (s.hostWin f w).2 :=
  ⟨Nat.dvd_mul_left _ _, Nat.dvd_mul_left _ _⟩

/-- The module offset of an aligned DPA is aligned. -/
theorem State.dpaGo_aligned {s : State} {f dpa n off k : Nat} (hd : 64 ∣ dpa) : ∀ {w db : Nat}, 64 ∣ db →
    s.dpaGo f dpa n k w db = some off → 64 ∣ off := by
  induction k with
  | zero => exact fun _ h => nomatch h
  | succ k ih =>
    intro w db hb h
    obtain ⟨h1, h2⟩ := s.hostWin_aligned f w
    rw [State.dpaGo] at h
    split at h
    · cases h
      exact (Nat.dvd_add_right (Nat.dvd_trans (by decide) h1)).2 (Nat.dvd_sub hd hb)
    · exact ih ((Nat.dvd_add_right hb).2 (Nat.dvd_trans (by decide) h2)) h

theorem State.memOff_aligned {s : State} {ld dpa off : Nat} {p : Perm} (h : s.memOff ld dpa p = some off) : off % 64 = 0 := by
  unfold State.memOff at h
  split at h
  · rename_i o ho
    split at h
    · cases h
      exact Nat.mod_eq_zero_of_dvd (State.dpaGo_aligned (Nat.dvd_mul_left _ _) (Nat.dvd_zero _) ho)
    · cases h
  · cases h

/-- Where an LD's access goes, and whether it may, depends on the pattern image and COR_SPLIT alone. -/
theorem State.memOff_of {s t : State} (hp : t.pat = s.pat) (hr : ∀ g, t.rn .SPLIT g 0 = s.rn .SPLIT g 0) (ld dpa : Nat) (p : Perm) :
    t.memOff ld dpa p = s.memOff ld dpa p := by
  have hw (f w : Nat) : t.hostWin f w = s.hostWin f w := by simp only [State.hostWin, State.flk_of_pat hp]
  have hgo (f dpa n k : Nat) : ∀ w db, t.dpaGo f dpa n k w db = s.dpaGo f dpa n k w db := by
    induction k with
    | zero => exact fun _ _ => rfl
    | succ k ih => intro w db; simp only [State.dpaGo, hw, ih]
  have hd (f dpa n : Nat) : t.dpaOff f dpa n = s.dpaOff f dpa n := by
    simp only [State.dpaOff, State.nhwin, State.flk_of_pat hp, hgo]
  have hz (g : Nat) : t.lsSize g = s.lsSize g := by simp only [State.lsSize, State.rf, hr]
  have hh (g : Nat) : t.hostLs g = s.hostLs g := by simp only [State.hostLs, hz, State.gres, State.rf, hr]
  have hl (g : Nat) (gst : Bool) (a n : Nat) : t.lsOk g gst a n = s.lsOk g gst a n := by
    rw [State.lsOk, State.mapped, hh, hz, ← State.mapped, ← State.lsOk]
  have ha (f : Nat) (p : Perm) (off n : Nat) : t.allowed f p off n = s.allowed f p off n := by
    simp only [State.allowed, State.nwin_of_pat hp, State.window_of_pat hp, State.isParam, State.shared, State.region_of_pat hp,
      State.mayRead, State.flk_of_pat hp, State.inMap_of_pat hp, State.isGuest_of_pat hp, hl]
  simp only [State.memOff, hd, ha]

/-- The crossings to the home of an offset depend on the pattern image, the shadows and the links. -/
theorem State.cxlCut_of {s t : State} (hp : t.pat = s.pat) (hd : t.down = s.down) (hr : ∀ f, t.rn .SHADOW f 0 = s.rn .SHADOW f 0)
    (off : Nat) : t.cxlCut off = s.cxlCut off := by
  simp only [State.cxlCut, State.cutBetween, State.home, State.chan, State.region_of_pat hp, State.view_of hp hr, hd]

/-! ### STANDBY_EXIT and ROTA_RESTART -/

/-- The rotas of channels `l` restart, standby being over. -/
def State.rotasNext (s : State) (l : List Nat) : State :=
  l.foldl State.rotaNext { s with stby := false, pwr := { s.pwr with leaving := false } }

/-- What the restart of rotas changes. -/
theorem State.rotasNext_only (s : State) (l : List Nat) : ∃ r sl, s.rotasNext l
    = { s with regs := r, m := { s.m with slot := sl }, stby := false, pwr := { s.pwr with leaving := false } } := by
  have h (s : State) : ∃ r sl, l.foldl State.rotaNext s = { s with regs := r, m := { s.m with slot := sl } } := by
    induction l generalizing s with
    | nil => exact ⟨s.regs, s.m.slot, rfl⟩
    | cons c l ih =>
      obtain ⟨r, sl, e⟩ := ih (s.rotaNext c)
      exact ⟨r, sl, e⟩
  exact h _

theorem State.rotasNext_rn (s : State) (l : List Nat) {r : Reg} (h : r ≠ .ROTA) (i j : Nat) : (s.rotasNext l).rn r i j = s.rn r i j :=
  foldl_leaves (f := State.rotaNext) (p := fun s => s.rn r i j) (fun _ _ => State.rn_wn_other _ h ..) l _

/-- A rota that restarts is at slot 0 of its next number. -/
theorem State.rotasNext_at (s : State) {l : List Nat} {c : Nat} (hl : l.Nodup) (hc : c ∈ l) :
    (s.rotasNext l).rn .ROTA c 0 = (fld (s.rn .ROTA c 0) 31 6 + 1) % 2 ^ 26 * 64 ∧ Sparse.get 0 (s.rotasNext l).m.slot c = 0 := by
  constructor
  · refine (foldl_at (f := State.rotaNext) (p := fun s => s.rn .ROTA c 0) (F := fun v => (fld v 31 6 + 1) % 2 ^ 26 * 64) (x := c)
      (fun s => ?_) (fun s y _ hy => ?_) hl _).trans (if_pos hc)
    · refine (State.rn_wn_same ..).trans (Nat.mod_eq_of_lt ?_)
      omega
    · exact State.rn_wn_elsewhere _ _ (by decide) (by decide) (by simpa using Ne.symm hy)
  · exact (foldl_at (f := State.rotaNext) (p := fun s => Sparse.get 0 s.m.slot c) (F := fun _ => 0) (x := c)
      (fun s => Sparse.get_set_same 0 s.m.slot c 0) (fun s y _ hy => Sparse.get_set_other 0 0 s.m.slot 0 (Ne.symm hy)) hl _).trans
        (if_pos hc)

/-- The state in which the rotas run again, before the held requests are served. -/
def State.restarted (s : State) : State :=
  { ((s.rotasNext (List.range 384)).wf .PSTAT 0 0 16 16 0).wf .PSTAT 0 0 18 18 0 with cxlHeld := [] }

/-- What the restart of all rotas changes. -/
theorem State.restarted_only (s : State) : ∃ r sl, s.restarted
    = { s with regs := r, m := { s.m with slot := sl }, stby := false, pwr := { s.pwr with leaving := false }, cxlHeld := [] } := by
  obtain ⟨r, sl, e⟩ := s.rotasNext_only (List.range 384)
  unfold State.restarted
  rw [e]
  exact ⟨_, sl, rfl⟩

theorem rotaRestart_eq {s : State} (h : s.pwr.leaving = true) :
    exec .rotaRestart s = .next (s.cxlHeld.foldl State.serveHeld s.restarted) := by
  have hc : (s.rotasNext (List.range 384)).cxlHeld = s.cxlHeld := by
    obtain ⟨r, sl, e⟩ := s.rotasNext_only (List.range 384)
    rw [e]
  rw [exec, execRotaRestart, if_neg (by simp [h])]
  dsimp only
  rw [← State.rotasNext, State.wf_cxlHeld, State.wf_cxlHeld, hc, ← State.restarted]

theorem State.restarted_rn (s : State) {r : Reg} (h : r ≠ .PSTAT) (i j : Nat) :
    s.restarted.rn r i j = (s.rotasNext (List.range 384)).rn r i j := by
  unfold State.restarted
  generalize s.rotasNext (List.range 384) = u
  exact (State.rn_wf_other (u.wf .PSTAT 0 0 16 16 0) h ..).trans (State.rn_wf_other _ h ..)

theorem State.restarted_rn_kept (s : State) {r : Reg} (h1 : r ≠ .ROTA) (h2 : r ≠ .PSTAT) (i j : Nat) :
    s.restarted.rn r i j = s.rn r i j := by
  rw [State.restarted_rn _ h2, State.rotasNext_rn _ _ h1]

theorem State.restarted_pstat (s : State) : s.restarted.rf .PSTAT 0 0 16 16 = 0 ∧ s.restarted.rf .PSTAT 0 0 18 18 = 0 := by
  unfold State.restarted
  generalize s.rotasNext (List.range 384) = u
  constructor
  · refine (State.rf_wf_apart (u.wf .PSTAT 0 0 16 16 0) _ _ _ _ (by decide) (by decide) (by decide)).trans ?_
    exact State.rf_wf_same u _ _ _ _ (by decide) (by decide)
  · exact State.rf_wf_same (u.wf .PSTAT 0 0 16 16 0) _ _ _ _ (by decide) (by decide)

theorem State.restarted_slot (s : State) : s.restarted.m.slot = (s.rotasNext (List.range 384)).m.slot := by
  unfold State.restarted
  generalize s.rotasNext (List.range 384) = u
  rfl

/-- Each rota restarts at slot 0 of its next number. -/
theorem State.restarted_rota (s : State) {c : Nat} (hc : c < 384) : s.restarted.rf .ROTA c 0 5 0 = 0
    ∧ Sparse.get 0 s.restarted.m.slot c = 0 ∧ s.restarted.rf .ROTA c 0 31 6 = (s.rf .ROTA c 0 31 6 + 1) % 2 ^ 26 := by
  obtain ⟨hr, hslot⟩ := s.rotasNext_at List.nodup_range (List.mem_range.2 hc)
  rw [← State.restarted_rn _ (by decide)] at hr
  refine ⟨?_, by rw [State.restarted_slot, hslot], ?_⟩
  · rw [State.rf, hr, fld]
    omega
  · rw [State.rf, hr, State.rf]
    generalize fld (s.rn .ROTA c 0) 31 6 = n
    rw [fld, Nat.shiftRight_eq_div_pow]
    omega

theorem rotaRestart_restarts {s : State} (h : s.pwr.leaving = true) : ∃ t, exec .rotaRestart s = .next t ∧ t.stby = false
    ∧ t.pwr.leaving = false ∧ t.rf .PSTAT 0 0 16 16 = 0 ∧ t.rf .PSTAT 0 0 18 18 = 0 ∧ t.cxlHeld = []
    ∧ (s.cxlHeld = [] → t.cores = s.cores ∧ t.mem = s.mem)
    ∧ (∀ c, c < 384 → t.rf .ROTA c 0 5 0 = 0 ∧ Sparse.get 0 t.m.slot c = 0
      ∧ t.rf .ROTA c 0 31 6 = (s.rf .ROTA c 0 31 6 + 1) % 2 ^ 26)
    ∧ ∀ e off, s.cxlHeld = [e] → e.kind = 0 → s.memOff e.ld e.dpa 0 = some off → s.cxlCut off = false → Sound s →
      Out.cxlData e.ld e.dpa (s.bytes (s.view off) 64) false ∈ t.out := by
  obtain ⟨r, sl, hu⟩ := s.restarted_only
  have ht : HomeOnly true s.restarted (s.cxlHeld.foldl State.serveHeld s.restarted) := .foldl (.refl _) fun h1 _ => h1.serveHeld
  obtain ⟨h16, h18⟩ := s.restarted_pstat
  refine ⟨_, rotaRestart_eq h, ?_, ?_, ?_, ?_, ?_, fun hh => ?_, fun c hc => ?_, fun e off he hk ho hcut hs => ?_⟩
  · rw [ht.stby, hu]
  · rw [ht.pwr, hu]
  · rw [State.rf_of_rn (ht.regs _ _ _ (by decide)), h16]
  · rw [State.rf_of_rn (ht.regs _ _ _ (by decide)), h18]
  · rw [ht.cxlHeld, hu]
  · rw [hh, List.foldl_nil, hu]
    exact ⟨rfl, rfl⟩
  · obtain ⟨h5, hslot, h31⟩ := s.restarted_rota hc
    rw [State.rf_of_rn (ht.regs _ _ _ (by decide)), State.rf_of_rn (ht.regs _ _ _ (by decide)), ht.slot]
    exact ⟨h5, hslot, h31⟩
  · have hp : s.restarted.pat = s.pat := by rw [hu]
    have hd : s.restarted.down = s.down := by rw [hu]
    have hm : s.restarted.mem = s.mem := by rw [hu]
    have hsh (f : Nat) : s.restarted.rn .SHADOW f 0 = s.rn .SHADOW f 0 := s.restarted_rn_kept (by decide) (by decide) ..
    have hsp (g : Nat) : s.restarted.rn .SPLIT g 0 = s.rn .SPLIT g 0 := s.restarted_rn_kept (by decide) (by decide) ..
    have hser : Serene s.mem s.restarted := by
      rw [hu]
      exact hs.serene.of
    obtain ⟨hdata, hpois⟩ := hser.engRead_half (f := e.ld) (State.memOff_aligned ho)
    have hb : s.restarted.bytes (s.restarted.view off) 64 = s.bytes (s.view off) 64 := by
      simp only [State.bytes, State.byte, hm, State.view_of hp hsh]
    have hserve : s.restarted.serveHeld e = s.restarted.cxlRead e.ld e.dpa off := by
      simp only [State.serveHeld, hk, State.memOff_of hp hsp, ho]
    have hread : ¬s.restarted.cxlCut off = true := by
      rw [State.cxlCut_of hp hd hsh, hcut]
      decide
    rw [he, List.foldl_cons, List.foldl_nil, hserve, State.cxlRead, if_neg hread]
    dsimp only
    rw [hdata, hpois, hb]
    exact List.mem_cons_self

theorem standbyExit_leaves {s : State} (h1 : s.stby = true) (h2 : s.pwr.leaving = false) (h3 : s.rf .PSTAT 0 0 18 18 = 0) :
    ∃ t, exec .standbyExit s = .next t ∧ t.pwr.leaving = true ∧ t.m.selfref = [] ∧ t.stby = true ∧ t.regs = s.regs ∧ t.mem = s.mem
      ∧ t.cores = s.cores := by
  refine ⟨s.leaveStandby, ?_, rfl, rfl, h1, rfl, rfl, rfl⟩
  rw [exec, execStandbyExit, State.standbyEnds, if_neg (by simp [h1, h2, h3])]

theorem standbyExit_stays {s : State} (h : s.stby = false ∨ s.rf .PSTAT 0 0 18 18 = 1) : exec .standbyExit s = .next s := by
  rw [exec, execStandbyExit, State.standbyEnds, if_pos]
  rcases h with h | h <;> simp [h]

/-! ### PWR_CMD_WAKE -/

theorem State.wakeCluster_clu_other (s : State) {k k' : Nat} (h : k' ≠ k) : (s.wakeCluster k').clu k = s.clu k := by
  unfold State.wakeCluster
  extract_lets cold p s1 s2
  have hs : s2.rn .PSTATE k 0 = s.rn .PSTATE k 0 := by
    unfold s2
    split
    · exact State.rn_wn_other s1 (by decide) ..
    · rfl
  rw [State.clu, State.rf, State.rn_wf_elsewhere _ _ _ _ (by decide) (by decide) (by simpa using h.symm),
    State.rn_of_regs (State.modClusters_regs ..), hs]
  rfl

theorem State.wakeCluster_leaving (s : State) (k : Nat) : (s.wakeCluster k).pwr.leaving = s.pwr.leaving := by
  unfold State.wakeCluster
  extract_lets cold p s1 s2
  have hs : s2.pwr = s1.pwr := by unfold s2; split <;> rfl
  rw [State.wf_pwr, State.modClusters_pwr, hs]

theorem pwrCmdWake_held {s : State}
    (h : s.rf .PSTAT 0 0 18 18 = 1 ∧ (s.rf .THERM 0 0 7 0 ≤ s.rf .PTEMP 0 0 7 0 ∨ s.rf .PINS 0 0 31 31 = 1)) :
    exec .pwrCmdWake s = .next s := by
  rw [exec, execPwrCmdWake, if_pos h]

theorem pwrCmdWake_wakes {s : State}
    (h : ¬(s.rf .PSTAT 0 0 18 18 = 1 ∧ (s.rf .THERM 0 0 7 0 ≤ s.rf .PTEMP 0 0 7 0 ∨ s.rf .PINS 0 0 31 31 = 1))) :
    ∃ t, exec .pwrCmdWake s = .next t ∧ (s.stby = true → t.pwr.leaving = true) ∧ t.mem = s.mem
      ∧ ∀ k, k < 64 → t.clu k = if s.coldBit k = false ∧ s.rf .PSTATE k 0 2 2 = 0 then 0 else s.clu k := by
  let u := if s.stby = true ∧ (!s.pwr.leaving) = true then s.leaveStandby else s
  let up (k : Nat) : Bool := !(u.coldBit k) && u.rf .PSTATE k 0 2 2 = 0 && u.clu k ≠ 0
  have he : exec .pwrCmdWake s = .next (((List.range 64).filter up).foldl State.wakeCluster u) := by
    rw [exec, execPwrCmdWake, if_neg h]
  have hregs : u.regs = s.regs ∧ u.mem = s.mem ∧ (s.stby = true → u.pwr.leaving = true) := by
    unfold u
    split
    · exact ⟨rfl, rfl, fun _ => rfl⟩
    · rename_i hn
      exact ⟨rfl, rfl, fun hs => by simpa [hs] using hn⟩
  obtain ⟨hr, hm, hl⟩ := hregs
  refine ⟨_, he, fun hs => ?_, ?_, fun k hk => ?_⟩
  · rw [foldl_leaves (p := fun s => s.pwr.leaving) State.wakeCluster_leaving]
    exact hl hs
  · rw [foldl_leaves (p := State.mem) State.wakeCluster_mem, hm]
  · have hf := foldl_at (f := State.wakeCluster) (p := fun s => s.clu k) (F := fun _ => 0) (x := k) (fun s => s.wakeCluster_clu k)
      (fun s y _ hy => s.wakeCluster_clu_other hy) (List.Nodup.filter up (List.nodup_range (n := 64))) u
    have hclu : u.clu k = s.clu k := State.rf_of_regs hr ..
    have hcold : u.coldBit k = s.coldBit k := by rw [State.coldBit, State.rn_of_regs hr, State.coldBit]
    have hup : k ∈ (List.range 64).filter up ↔ (s.coldBit k = false ∧ s.rf .PSTATE k 0 2 2 = 0) ∧ s.clu k ≠ 0 := by
      simp [up, hk, hclu, hcold, State.rf_of_regs hr, and_assoc]
    refine hf.trans ?_
    rw [hclu, if_congr hup rfl rfl]
    split <;> split <;> simp_all

end Sys2Proof.Machine
end

section
/-! PROOF. The end of a power window (R497, R498). -/

set_option Elab.async false

namespace Sys2Proof.Machine

/-! ### The hottest die -/

/-- The best of `b` and the values of `f` over `l`, the first of equal ones. -/
def bestOf (f : Nat → Nat) (l : List Nat) (b : Nat × Nat) : Nat × Nat := l.foldl (fun b i => if b.2 < f i then (i, f i) else b) b

theorem bestOf_spec (f : Nat → Nat) (l : List Nat) (b : Nat × Nat) : b.2 ≤ (bestOf f l b).2 ∧ (∀ i ∈ l, f i ≤ (bestOf f l b).2)
    ∧ ((bestOf f l b).2 = b.2 ∨ ∃ i ∈ l, (bestOf f l b).2 = f i) := by
  induction l generalizing b with
  | nil => exact ⟨le_rfl, fun _ h => absurd h List.not_mem_nil, .inl rfl⟩
  | cons i l ih =>
    obtain ⟨h1, h2, h3⟩ := ih (if b.2 < f i then (i, f i) else b)
    have hb : b.2 ≤ (if b.2 < f i then (i, f i) else b).2 ∧ f i ≤ (if b.2 < f i then (i, f i) else b).2 := by
      split
      · exact ⟨by omega, le_rfl⟩
      · exact ⟨le_rfl, by omega⟩
    refine ⟨hb.1.trans h1, fun j hj => ?_, ?_⟩
    · rcases List.mem_cons.1 hj with rfl | hj
      · exact hb.2.trans h1
      · exact h2 j hj
    · rcases h3 with h3 | ⟨j, hj, h3⟩
      · by_cases hc : b.2 < f i
        · exact .inr ⟨i, List.mem_cons_self, h3.trans (by rw [if_pos hc])⟩
        · exact .inl (h3.trans (by rw [if_neg hc]))
      · exact .inr ⟨j, List.mem_cons_of_mem _ hj, h3⟩

theorem getD_mem {l : List Nat} {i : Nat} (h : i < l.length) : l.getD i 0 ∈ l := by
  rw [List.getD_eq_getElem _ _ h]
  exact List.getElem_mem h

/-- No die is hotter than the hottest, which is one of them. -/
theorem hottest_spec {temps : List Nat} (h : temps.length ≠ 0) :
    (∀ x ∈ temps, x ≤ (hottest temps).2) ∧ (hottest temps).2 ∈ temps := by
  obtain ⟨-, h2, h3⟩ := bestOf_spec (temps.getD · 0) (List.range temps.length) (0, temps.getD 0 0)
  rw [show hottest temps = bestOf (temps.getD · 0) (List.range temps.length) (0, temps.getD 0 0) from rfl]
  refine ⟨fun x hx => ?_, ?_⟩
  · obtain ⟨i, hi, rfl⟩ := List.mem_iff_getElem.1 hx
    rw [← List.getD_eq_getElem _ 0 hi]
    exact h2 i (List.mem_range.2 hi)
  · rcases h3 with h3 | ⟨i, hi, h3⟩
    · rw [h3]
      exact getD_mem (by omega)
    · rw [h3]
      exact getD_mem (List.mem_range.1 hi)

/-! ### POWER_WINDOW_END -/

/-- The terms after a window whose die temperatures are `temps`. -/
def State.windowPwr (s : State) (watts : Nat) (temps : List Nat) : Pwr :=
  let lim := min 2700 (s.rf .LIMIT 0 0 11 0)
  let warn := s.rf .THERM 0 0 7 0
  let hot := (hottest temps).2
  { s.pwr with
    auto := if lim = 0 then 0 else if lim < watts then min 72 (s.pwr.auto + 8)
      else if 100 * watts < 95 * lim then s.pwr.auto - 2 else s.pwr.auto
    therm := if warn ≤ hot then min 72 (s.pwr.therm + 8) else if hot + 5 < warn then s.pwr.therm - 2 else s.pwr.therm
    dhot := if (List.range 384).any fun c => s.rf .TEMP c 0 8 8 = 1 then 16 else 0
    temps := temps }

/-- The state with the measurements of a window. -/
def State.measured (s : State) (watts volts : Nat) (temps : List Nat) : State :=
  (s.wn .MEAS 0 0 (watts % 2 ^ 12 + volts % 2 ^ 10 * 2 ^ 16)).wn .PTEMP 0 0 ((hottest temps).2 % 256 + (hottest temps).1 * 256)

/-- The state after a window, but for the record of a clock that is capped. -/
def State.windowed (s : State) (watts volts : Nat) (temps : List Nat) : State :=
  let p := (s.measured watts volts temps).windowPwr watts temps
  State.wf (State.setLevel { s.measured watts volts temps with pwr := p }) .PSTAT 0 0 17 17 (if 0 < p.dyn then 1 else 0)

theorem powerWindowEnd_eq {watts volts : Nat} {temps : List Nat} {s : State} (h1 : temps.length = 14) (h2 : s.booted = true) :
    exec (.powerWindowEnd watts volts temps) s = .next
      (let u := s.windowed watts volts temps
       if (s.measured watts volts temps).rf .PSTAT 0 0 17 17
           < (if 0 < ((s.measured watts volts temps).windowPwr watts temps).dyn then 1 else 0)
       then u.record 2 0x0021 10 0 none (u.rn .PSTAT 0 0) (u.rn .MEAS 0 0) 0 else u) := by
  rw [exec, execPowerWindowEnd, if_neg (by simp [h1, h2])]
  rfl

section
variable (s : State) (watts volts : Nat) (temps : List Nat)

theorem State.measured_rn {r : Reg} (h1 : r ≠ .MEAS) (h2 : r ≠ .PTEMP) (i j : Nat) :
    (s.measured watts volts temps).rn r i j = s.rn r i j :=
  (State.rn_wn_other _ h2 ..).trans (State.rn_wn_other _ h1 ..)

theorem State.measured_windowPwr : (s.measured watts volts temps).windowPwr watts temps = s.windowPwr watts temps := by
  have hp : (s.measured watts volts temps).pwr = s.pwr := rfl
  have hr (r : Reg) (i : Nat) (h1 : r ≠ .MEAS) (h2 : r ≠ .PTEMP) (hi lo : Nat) :
      (s.measured watts volts temps).rf r i 0 hi lo = s.rf r i 0 hi lo := State.rf_of_rn (s.measured_rn _ _ _ h1 h2 ..) hi lo
  simp only [State.windowPwr, hp, hr .LIMIT 0 (by decide) (by decide), hr .THERM 0 (by decide) (by decide),
    hr .TEMP _ (by decide) (by decide)]

/-- Only the measurements, PWR_STAT and the terms change. -/
theorem State.windowed_rn {r : Reg} (h : r ≠ .PSTAT) (i j : Nat) :
    (s.windowed watts volts temps).rn r i j = (s.measured watts volts temps).rn r i j :=
  (State.rn_wf_other _ h ..).trans (State.rn_wf_other _ h ..)

theorem State.windowed_pwr : (s.windowed watts volts temps).pwr = s.windowPwr watts temps := s.measured_windowPwr watts volts temps

theorem State.windowed_meas : (s.windowed watts volts temps).rf .MEAS 0 0 11 0 = watts % 2 ^ 12
    ∧ (s.windowed watts volts temps).rf .MEAS 0 0 25 16 = volts % 2 ^ 10
    ∧ (s.windowed watts volts temps).rf .PTEMP 0 0 7 0 = (hottest temps).2 % 256 := by
  have hm (hi lo : Nat) (h : hi < 64) : (s.windowed watts volts temps).rf .MEAS 0 0 hi lo
      = fld (watts % 2 ^ 12 + volts % 2 ^ 10 * 2 ^ 16) hi lo := by
    rw [State.rf_of_rn (s.windowed_rn _ _ _ (by decide) ..), State.measured, State.rf_of_rn (State.rn_wn_other _ (by decide) ..),
      State.rf_wn_same _ _ _ _ _ _ h]
  refine ⟨(hm _ _ (by decide)).trans ?_, (hm _ _ (by decide)).trans ?_, ?_⟩
  · rw [fld]
    omega
  · rw [fld, Nat.shiftRight_eq_div_pow]
    omega
  · rw [State.rf_of_rn (s.windowed_rn _ _ _ (by decide) ..), State.measured, State.rf_wn_same _ _ _ _ _ _ (by decide), fld]
    omega

theorem State.windowed_pstat :
    (s.windowed watts volts temps).rf .PSTAT 0 0 6 0 = min 72 (max (s.rf .CAP 0 0 6 0) (s.windowPwr watts temps).dyn)
    ∧ (s.windowed watts volts temps).rf .PSTAT 0 0 17 17 = (if 0 < (s.windowPwr watts temps).dyn then 1 else 0) := by
  have hc : (s.measured watts volts temps).rf .CAP 0 0 6 0 = s.rf .CAP 0 0 6 0 :=
    State.rf_of_rn (s.measured_rn _ _ _ (by decide) (by decide) ..) _ _
  unfold State.windowed
  rw [State.measured_windowPwr]
  constructor
  · rw [State.rf_wf_apart _ _ _ _ _ (by decide) (by decide) (by decide), State.setLevel,
      State.rf_wf_same _ _ _ _ _ (by decide) (by decide), ← hc]
    exact Nat.mod_eq_of_lt (lt_of_le_of_lt (Nat.min_le_left _ _) (by decide))
  · rw [State.rf_wf_same _ _ _ _ _ (by decide) (by decide)]
    split <;> rfl

/-- The clock becomes capped: CAPPED was clear and is set. -/
theorem State.capping_iff : (s.measured watts volts temps).rf .PSTAT 0 0 17 17
      < (if 0 < ((s.measured watts volts temps).windowPwr watts temps).dyn then 1 else 0)
    ↔ s.rf .PSTAT 0 0 17 17 = 0 ∧ 0 < (s.windowPwr watts temps).dyn := by
  rw [State.rf_of_rn (s.measured_rn _ _ _ (by decide) (by decide) ..), State.measured_windowPwr]
  split <;> omega

end

/-- What a window's end leaves, with the record of a clock that becomes capped. -/
theorem powerWindowEnd_ends {watts volts : Nat} {temps : List Nat} {s : State} (h1 : temps.length = 14) (h2 : s.booted = true) :
    ∃ t, exec (.powerWindowEnd watts volts temps) s = .next t ∧ t.cores = s.cores ∧ t.mem = s.mem ∧ t.pwr = s.windowPwr watts temps
      ∧ t.rf .PTEMP 0 0 7 0 = (hottest temps).2 % 256 ∧ t.rf .MEAS 0 0 11 0 = watts % 2 ^ 12 ∧ t.rf .MEAS 0 0 25 16 = volts % 2 ^ 10
      ∧ t.rf .PSTAT 0 0 6 0 = min 72 (max (s.rf .CAP 0 0 6 0) (s.windowPwr watts temps).dyn)
      ∧ t.rf .PSTAT 0 0 17 17 = (if 0 < (s.windowPwr watts temps).dyn then 1 else 0)
      ∧ t.rn .RSEQ 0 0 = (if s.rf .PSTAT 0 0 17 17 = 0 ∧ 0 < (s.windowPwr watts temps).dyn then (s.rn .RSEQ 0 0 + 1) % 2 ^ 32
          else s.rn .RSEQ 0 0) := by
  obtain ⟨hw, hv, ht⟩ := s.windowed_meas watts volts temps
  obtain ⟨hl, hon⟩ := s.windowed_pstat watts volts temps
  have hp := s.windowed_pwr watts volts temps
  have hcores : (s.windowed watts volts temps).cores = s.cores := rfl
  have hmem : (s.windowed watts volts temps).mem = s.mem := rfl
  have hseq : (s.windowed watts volts temps).rn .RSEQ 0 0 = s.rn .RSEQ 0 0 :=
    (s.windowed_rn _ _ _ (by decide) ..).trans (s.measured_rn _ _ _ (by decide) (by decide) ..)
  refine ⟨_, powerWindowEnd_eq h1 h2, ?_⟩
  dsimp only
  rw [if_congr (s.capping_iff watts volts temps) rfl rfl]
  generalize s.windowed watts volts temps = u at *
  by_cases hc : s.rf .PSTAT 0 0 17 17 = 0 ∧ 0 < (s.windowPwr watts temps).dyn
  · have hr (r : Reg) (hi lo : Nat) (h1 : r ≠ .RSEQ) (h2 : r ≠ .RDROP) (d0 d1 : Nat) :
        (u.record 2 0x0021 10 0 none d0 d1 0).rf r 0 0 hi lo = u.rf r 0 0 hi lo :=
      State.rf_of_rn (u.record_rn _ _ _ _ _ _ _ _ h1 h2 ..) hi lo
    rw [if_pos hc, if_pos hc, hr .PTEMP _ _ (by decide) (by decide), hr .MEAS 11 _ (by decide) (by decide),
      hr .MEAS 25 _ (by decide) (by decide), hr .PSTAT 6 _ (by decide) (by decide), hr .PSTAT 17 _ (by decide) (by decide),
      State.record_rseq, State.record_only, hseq]
    exact ⟨hcores, hmem, hp, ht, hw, hv, hl, hon, rfl⟩
  · rw [if_neg hc, if_neg hc]
    exact ⟨hcores, hmem, hp, ht, hw, hv, hl, hon, hseq⟩

/-- AUTO follows the limit. -/
theorem State.windowPwr_auto (s : State) (watts : Nat) (temps : List Nat) :
    let lim := min 2700 (s.rf .LIMIT 0 0 11 0)
    let auto := (s.windowPwr watts temps).auto
    (lim = 0 → auto = 0) ∧ (lim ≠ 0 → lim < watts → auto = min 72 (s.pwr.auto + 8))
      ∧ (lim ≠ 0 → watts ≤ lim → 100 * watts < 95 * lim → auto = s.pwr.auto - 2)
      ∧ (lim ≠ 0 → watts ≤ lim → 95 * lim ≤ 100 * watts → auto = s.pwr.auto) := by
  refine ⟨fun h => ?_, fun h0 h1 => ?_, fun h0 h1 h2 => ?_, fun h0 h1 h2 => ?_⟩
  · exact if_pos h
  · exact (if_neg h0).trans (if_pos h1)
  · exact (if_neg h0).trans ((if_neg (Nat.not_lt.2 h1)).trans (if_pos h2))
  · exact (if_neg h0).trans ((if_neg (Nat.not_lt.2 h1)).trans (if_neg (Nat.not_lt.2 h2)))

/-- THERM follows the hottest die. -/
theorem State.windowPwr_therm (s : State) (watts : Nat) (temps : List Nat) :
    let warn := s.rf .THERM 0 0 7 0
    let hot := (hottest temps).2
    let therm := (s.windowPwr watts temps).therm
    (warn ≤ hot → therm = min 72 (s.pwr.therm + 8)) ∧ (hot + 5 < warn → therm = s.pwr.therm - 2)
      ∧ (hot < warn → warn ≤ hot + 5 → therm = s.pwr.therm) := by
  refine ⟨fun h => ?_, fun h => ?_, fun h1 h2 => ?_⟩
  · exact if_pos h
  · exact (if_neg (Nat.not_le.2 (by omega))).trans (if_pos h)
  · exact (if_neg (Nat.not_le.2 h1)).trans (if_neg (Nat.not_lt.2 h2))

/-- DHOT follows the channels. -/
theorem State.windowPwr_dhot (s : State) (watts : Nat) (temps : List Nat) :
    ((∃ c, c < 384 ∧ s.rf .TEMP c 0 8 8 = 1) → (s.windowPwr watts temps).dhot = 16)
      ∧ ((∀ c, c < 384 → s.rf .TEMP c 0 8 8 = 0) → (s.windowPwr watts temps).dhot = 0) := by
  refine ⟨fun ⟨c, hc, h⟩ => ?_, fun h => ?_⟩
  · exact if_pos (List.any_eq_true.2 ⟨c, List.mem_range.2 hc, decide_eq_true h⟩)
  · refine if_neg fun ha => ?_
    obtain ⟨c, hc, hh⟩ := List.any_eq_true.1 ha
    rw [h c (List.mem_range.1 hc)] at hh
    exact absurd hh (by decide)

end Sys2Proof.Machine
end

section
/-! PROOF. O55: power states, standby, the power window, trips, failed links and PLLs (R32, R484, R488 to R499, R532). -/

set_option Elab.async false

namespace Sys2Proof.Machine

/-! ### Commands that change nothing -/

theorem wakeEvent_quarantined {g : Nat} {s : State} (hg : g < 4096) (hp : (s.core g).power ≠ 0) (hw : (s.core g).waking = false)
    (hc : s.clu (g / 64) = 0) (hs : s.inSvc g = false) : exec (.wakeEvent g) s = .next s := by
  rw [wakeEvent_running hg hp hw hc, if_neg (by simp [hs])]

theorem wakeEvent_serves {g : Nat} {s : State} (hg : g < 4096) (hp : (s.core g).power ≠ 0) (hw : (s.core g).waking = false)
    (hc : s.clu (g / 64) = 0) (hs : s.inSvc g = true) : ∃ t, exec (.wakeEvent g) s = .next t
      ∧ t.core g = { s.core g with waking := true } ∧ t.regs = s.regs ∧ ∀ h, h ≠ g → t.core h = s.core h :=
  ⟨s.modCore g fun c => { c with waking := true }, (wakeEvent_running hg hp hw hc).trans (by rw [if_pos hs]),
    State.core_setCore_same .., rfl,
    fun _ hh => State.core_setCore_other _ _ hh⟩

theorem wakeEvent_heldCold {g : Nat} {s : State} (hc : s.clu (g / 64) ≠ 0) (hm : s.mayWake (g / 64) = false) :
    exec (.wakeEvent g) s = .next s := by
  rw [exec, execWakeEvent, if_neg hc, if_pos (show (!s.mayWake (g / 64)) = true by simp [hm]), ite_self]

theorem wakeComplete_notWaking {g : Nat} {s : State} (h : (s.core g).waking = false) : exec (.wakeComplete g) s = .next s := by
  rw [exec, execWakeComplete, if_pos (by simp [h])]

theorem wakeComplete_quarantined {g : Nat} {s : State} (hw : (s.core g).waking = true) (hs : s.inSvc g = false) :
    exec (.wakeComplete g) s = .next (s.setCore g { s.core g with waking := false }) := by
  rw [exec, execWakeComplete, if_neg (by simp [hw]), if_pos (by simp [hs])]
  rfl

theorem pwrCmdStandby_stays {s : State} (h : s.stby = true ∨ s.booted = false) : exec .pwrCmdStandby s = .next s := by
  rw [exec, execPwrCmdStandby, if_pos]
  rcases h with h | h <;> simp [h]

theorem rotaRestart_stays {s : State} (h : s.pwr.leaving = false) : exec .rotaRestart s = .next s := by
  rw [exec, execRotaRestart, if_pos (by simp [h])]

theorem powerWindowEnd_stays {watts volts : Nat} {temps : List Nat} {s : State} (h : temps.length ≠ 14 ∨ s.booted = false) :
    exec (.powerWindowEnd watts volts temps) s = .next s := by
  rw [exec, execPowerWindowEnd, if_pos]
  rcases h with h | h <;> simp [h]

theorem leakDetected_stays {s : State} (h : s.pins.event ≠ 0 ∨ s.pins.por = true) : exec .leakDetected s = .next s := by
  rw [exec, execLeakDetected, if_pos h]

theorem pllLockLoss_stays {u : PllUnit} {s : State} (h : s.rf .XPHASE 0 0 8 8 = 0) : exec (.pllLockLoss u) s = .next s := by
  cases u <;> rw [exec, execPllLockLoss, if_pos h]

/-! ### Trips -/

theorem thermalTrip_clauses {temp : Nat} {s : State} (h1 : s.booted = true) (h2 : s.rf .PSTAT 0 0 18 18 = 0) (h3 : s.pins.event = 0)
    (h4 : s.pins.cut = false) :
    (s.rf .THERM 0 0 15 8 ≤ temp → ∃ t, exec (.thermalTrip false temp) s = .next t ∧ Tripped s t)
    ∧ (temp < s.rf .THERM 0 0 15 8 → exec (.thermalTrip false temp) s = .next s)
    ∧ ((∃ e ∈ s.m.hot, 16 ≤ e.2) → ∃ t, exec (.thermalTrip true temp) s = .next t ∧ Tripped s t)
    ∧ ((∀ e ∈ s.m.hot, e.2 < 16) → exec (.thermalTrip true temp) s = .next s) := by
  refine ⟨fun h => ⟨s.trip 1, ?_, s.trip_tripped 1⟩, fun h => ?_, fun ⟨e, he, h⟩ => ⟨s.trip 2, ?_, s.trip_tripped 2⟩, fun h => ?_⟩ <;>
    rw [thermalTrip_gate h1 h2 h3 h4]
  · rw [if_neg (by decide), if_pos h]
  · rw [if_neg (by decide), if_neg (Nat.not_le.2 h)]
  · rw [if_pos rfl, if_pos (List.any_eq_true.2 ⟨e, he, decide_eq_true h⟩)]
  · rw [if_pos rfl, if_neg]
    intro ha
    obtain ⟨e, he, hh⟩ := List.any_eq_true.1 ha
    exact absurd (of_decide_eq_true hh) (Nat.not_le.2 (h e he))

/-! ### The clause of a power window -/

theorem powerWindowEnd_clause {watts volts : Nat} {temps : List Nat} {s : State} (h14 : temps.length = 14) (hb : s.booted = true) :
    let hot := (hottest temps).2
    let lim := min 2700 (s.rf .LIMIT 0 0 11 0)
    let warn := s.rf .THERM 0 0 7 0
    (∀ x ∈ temps, x ≤ hot) ∧ hot ∈ temps ∧ ∃ t, exec (.powerWindowEnd watts volts temps) s = .next t ∧ t.cores = s.cores ∧ t.mem = s.mem
      ∧ t.rf .PTEMP 0 0 7 0 = hot % 256 ∧ t.rf .MEAS 0 0 11 0 = watts % 2 ^ 12 ∧ t.rf .MEAS 0 0 25 16 = volts % 2 ^ 10
      ∧ (lim = 0 → t.pwr.auto = 0) ∧ (lim ≠ 0 → lim < watts → t.pwr.auto = min 72 (s.pwr.auto + 8))
      ∧ (lim ≠ 0 → watts ≤ lim → 100 * watts < 95 * lim → t.pwr.auto = s.pwr.auto - 2)
      ∧ (lim ≠ 0 → watts ≤ lim → 95 * lim ≤ 100 * watts → t.pwr.auto = s.pwr.auto)
      ∧ (warn ≤ hot → t.pwr.therm = min 72 (s.pwr.therm + 8)) ∧ (hot + 5 < warn → t.pwr.therm = s.pwr.therm - 2)
      ∧ (hot < warn → warn ≤ hot + 5 → t.pwr.therm = s.pwr.therm)
      ∧ ((∃ c, c < 384 ∧ s.rf .TEMP c 0 8 8 = 1) → t.pwr.dhot = 16) ∧ ((∀ c, c < 384 → s.rf .TEMP c 0 8 8 = 0) → t.pwr.dhot = 0)
      ∧ t.rf .PSTAT 0 0 6 0 = min 72 (max (s.rf .CAP 0 0 6 0) (t.pwr.auto + t.pwr.therm + t.pwr.dhot))
      ∧ t.rf .PSTAT 0 0 17 17 = (if 0 < t.pwr.auto + t.pwr.therm + t.pwr.dhot then 1 else 0)
      ∧ t.rn .RSEQ 0 0 = (if s.rf .PSTAT 0 0 17 17 = 0 ∧ 0 < t.pwr.auto + t.pwr.therm + t.pwr.dhot then (s.rn .RSEQ 0 0 + 1) % 2 ^ 32
          else s.rn .RSEQ 0 0) := by
  intro hot lim warn
  obtain ⟨hmax, hmem⟩ := hottest_spec (temps := temps) (by omega)
  obtain ⟨t, he, hc, hm, hp, ht, hw, hv, hl, hon, hs⟩ := powerWindowEnd_ends (watts := watts) (volts := volts) h14 hb
  obtain ⟨ha0, ha1, ha2, ha3⟩ := s.windowPwr_auto watts temps
  obtain ⟨ht0, ht1, ht2⟩ := s.windowPwr_therm watts temps
  obtain ⟨hd0, hd1⟩ := s.windowPwr_dhot watts temps
  refine ⟨hmax, hmem, t, he, hc, hm, ht, hw, hv, ?_⟩
  rw [hp]
  exact ⟨ha0, ha1, ha2, ha3, ht0, ht1, ht2, hd0, hd1, hl, hon, hs⟩

/-- Settles O55: each clause by the lemma of its command; standby and trips by what the loss of power and a flask's stop keep. -/
theorem powerAndFailures : Obligations.PowerAndFailures := by
  unfold Obligations.PowerAndFailures
  refine ⟨fun g s hg => ⟨holdEntry_enters hg, holdEntry_stays⟩,
    fun k s hk => ⟨napEntry_enters hk, restEntry_enters hk, napRest_disabled, coldEntry_enters hk, coldEntry_stays⟩,
    fun g s hg hp hw => ⟨wakeEvent_serves hg hp hw, wakeEvent_quarantined hg hp hw, wakeEvent_heldCold, wakeEvent_cluster hg hp hw⟩,
    fun g s => ⟨wakeComplete_notWaking, wakeComplete_quarantined, wakeComplete_unmarked, wakeComplete_marked⟩,
    fun s => ⟨pwrCmdStandby_stays, fun w => pwrCmdStandby_refused, pwrCmdStandby_enters⟩,
    fun c s hc h1 h2 h3 => ⟨rotaStop_stops hc h1 h2 h3, rotaStop_waits⟩,
    fun s => ⟨standbyExit_leaves, standbyExit_stays, rotaRestart_stays, rotaRestart_restarts, pwrCmdWake_held, pwrCmdWake_wakes⟩,
    fun watts volts temps s => ⟨powerWindowEnd_stays, powerWindowEnd_clause⟩,
    fun temp s => thermalTrip_clauses,
    fun s => ⟨leakDetected_stays, leakDetected_trips⟩,
    fun c x s hc => ⟨linkFailed_healthy hc, linkFailed_fails hc⟩,
    fun k kind i s => ⟨pllLockLoss_stays, clusterPll_lost, otherPll_lost⟩⟩

end Sys2Proof.Machine
end

section
/-! PROOF. Casts to blocks (R45, R46, R57 to R61): the scale, mantissas and counts that a cast to BSm writes, O15 and O14. -/

set_option Elab.async false

namespace Sys2Proof.Machine

/-! ### Lengths of magnitudes -/

theorem blen_le_iff {n k : Nat} : blen n ≤ k ↔ n < 2 ^ k := by
  unfold blen
  split
  · next h => simp [h]
  · next h => rw [Nat.add_one_le_iff, Nat.log2_lt h]

theorem lt_blen_iff {n k : Nat} : k < blen n ↔ 2 ^ k ≤ n := by
  rw [← not_le, blen_le_iff, not_lt]

/-! ### Values of mantissas -/

theorem bsVal_finite {m scale : Nat} (h : scale ≤ 254) (q : Int) : bsVal m scale q = ofInt false q ((scale : Int) - 125 - m) :=
  if_neg (by omega)

@[simp] theorem finMag_ofInt (z : Bool) (n e : Int) : finMag (ofInt z n e) = (n.natAbs, e) := by
  unfold ofInt
  split
  · next h => simp [finMag, h]
  · rfl

@[simp] theorem vNonfin_ofInt (z : Bool) (n e : Int) : vNonfin (ofInt z n e) = false := by
  unfold ofInt
  split <;> rfl

@[simp] theorem vZero_ofInt (z : Bool) (n e : Int) : vZero (ofInt z n e) = decide (n = 0) := by
  unfold ofInt
  split <;> simp_all [vZero]

/-- A value that is a whole number of units rounds to that number (R66). -/
theorem roundMant_ofInt (noise : Nat) (n e : Int) : roundMant false noise e (ofInt false n e) = n := by
  have hfin (neg : Bool) (k : Nat) : roundMant false noise e (.fin neg k e) = if neg then -(k : Int) else k := by
    simp [roundMant, scaleTo, rneInt]
  unfold ofInt
  split
  · next h => simp [hfin, h]
  · rw [hfin]
    simp only [decide_eq_true_eq]
    split <;> omega

/-! ### Scale selection (R57) -/

/-- `floor (log2 |x|)` of a value other than zero. -/
def vLog (v : Val) : Int := (finMag v).2 + (blen (finMag v).1 : Nat) - 1

/-- The largest logarithm so far, and a value's. -/
def maxLogStep (acc : Option Int) (v : Val) : Option Int :=
  if (finMag v).1 = 0 then acc else some (acc.elim (vLog v) (max · (vLog v)))

theorem maxLog_eq_foldl (xs : List Val) : maxLog xs = xs.foldl maxLogStep none := by
  refine congrArg (fun f => xs.foldl f none) (funext fun acc => funext fun v => ?_)
  unfold maxLogStep
  cases acc <;> rfl

theorem foldl_maxLogStep {top : Int} (xs : List Val) (acc : Option Int) (hacc : ∀ a ∈ acc, a ≤ top)
    (hle : ∀ v ∈ xs, (finMag v).1 ≠ 0 → vLog v ≤ top)
    (htop : acc = some top ∨ ∃ v ∈ xs, (finMag v).1 ≠ 0 ∧ vLog v = top) : xs.foldl maxLogStep acc = some top := by
  induction xs generalizing acc with
  | nil => simpa using htop
  | cons v xs ih =>
    obtain ⟨hv, hxs⟩ := List.forall_mem_cons.1 hle
    rw [List.foldl_cons]
    by_cases h0 : (finMag v).1 = 0
    · rw [show maxLogStep acc v = acc from if_pos h0]
      exact ih acc hacc hxs (htop.imp_right fun ⟨u, hu, h⟩ =>
        ⟨u, (List.mem_cons.1 hu).resolve_left fun e => h.1 (e ▸ h0), h⟩)
    · rw [show maxLogStep acc v = some (acc.elim (vLog v) (max · (vLog v))) from if_neg h0]
      refine ih _ (fun a ha => ?_) hxs ?_
      · cases acc with
        | none => exact Option.mem_some.1 ha ▸ hv h0
        | some b => exact Option.mem_some.1 ha ▸ max_le (hacc b rfl) (hv h0)
      · rcases htop with rfl | ⟨u, hu, hu0, hlog⟩
        · exact .inl (congrArg some (max_eq_left (hv h0)))
        · rcases List.mem_cons.1 hu with rfl | hu
          · refine .inl ?_
            cases acc with
            | none => exact congrArg some hlog
            | some b => exact congrArg some ((max_eq_right (hlog ▸ hacc b rfl)).trans hlog)
          · exact .inr ⟨u, hu, hu0, hlog⟩

/-- The largest logarithm of some values, one of which attains it. -/
theorem maxLog_eq_some {xs : List Val} {top : Int} (hle : ∀ v ∈ xs, (finMag v).1 ≠ 0 → vLog v ≤ top)
    (htop : ∃ v ∈ xs, (finMag v).1 ≠ 0 ∧ vLog v = top) : maxLog xs = some top :=
  (maxLog_eq_foldl xs).trans (foldl_maxLogStep xs none (by simp) hle (.inr htop))

theorem ownScale_le (xs : List Val) : (ownScale xs).1 ≤ 254 := by
  unfold ownScale
  split
  · exact Nat.zero_le _
  · dsimp only
    omega

/-- The scale a cast chooses: the block's own, under the ceiling (R57). -/
def castScale (cfg : CastCfg) (vals : List Val) : Nat :=
  if cfg.2.2.1 then min (ownScale vals).1 cfg.2.2.2 else (ownScale vals).1

theorem castScale_le (cfg : CastCfg) (vals : List Val) : castScale cfg vals ≤ 254 := by
  have := ownScale_le vals
  unfold castScale
  split <;> omega

theorem castScale_le_ceil {cfg : CastCfg} (vals : List Val) (h : cfg.2.2.1 = true) : castScale cfg vals ≤ cfg.2.2.2 := by
  rw [castScale, if_pos h]
  exact min_le_right _ _

/-! ### The cases of a cast -/

/-- The elements of a cast of finite values: mantissa, overflow, flush. -/
def castElems (m : Nat) (cfg : CastCfg) (key : CastKey) (j0 : Nat) (vals : List Val) : List (Int × Bool × Bool) :=
  (vals.zip (List.range vals.length)).map fun p =>
    castElem m cfg (castScale cfg vals) (ownScale vals).1 (ownScale vals).2 p.1 (castNoise key (j0 + p.2))

/-- The overflows of a cast of finite values. -/
def castOvf (m : Nat) (cfg : CastCfg) (key : CastKey) (j0 : Nat) (vals : List Val) : Nat :=
  ((castElems m cfg key j0 vals).filter fun t => t.2.1).length

/-- Its flushes. -/
def castFlush (m : Nat) (cfg : CastCfg) (key : CastKey) (j0 : Nat) (vals : List Val) : Nat :=
  ((castElems m cfg key j0 vals).filter fun t => t.2.2).length

section
variable (m : Nat) {cfg : CastCfg} {key : CastKey} {j0 : Nat} {xs : List (Val × Bool)}

/-- A cast of a value that is not finite marks the block (R46). -/
theorem castToBs_nonfin (h : (xs.any fun x => vNonfin x.1) = true) : castToBs m cfg key j0 xs
    = (0xFF, List.replicate 32 0, xs.any Prod.snd, if xs.any Prod.snd then noCount else (0, 0, 1, [])) :=
  if_pos (by rw [List.any_map]; exact h)

/-- An overflow in propagate mode marks the block (R59). -/
theorem castToBs_overflow (h : (xs.any fun x => vNonfin x.1) = false)
    (ho : castOvf m cfg key j0 (xs.map Prod.fst) > 0 ∧ cfg.2.1 = true) : castToBs m cfg key j0 xs
    = (0xFF, List.replicate 32 0, xs.any Prod.snd, if xs.any Prod.snd then noCount else
        (castOvf m cfg key j0 (xs.map Prod.fst), castFlush m cfg key j0 (xs.map Prod.fst), 1, [])) :=
  (if_neg (by rw [List.any_map]; exact ne_true_of_eq_false h)).trans (if_pos ho)

/-- Every other cast writes its elements under the scale chosen (R57, R58). -/
theorem castToBs_finite (h : (xs.any fun x => vNonfin x.1) = false)
    (ho : ¬(castOvf m cfg key j0 (xs.map Prod.fst) > 0 ∧ cfg.2.1 = true)) : castToBs m cfg key j0 xs
    = (castScale cfg (xs.map Prod.fst), (castElems m cfg key j0 (xs.map Prod.fst)).map (·.1), xs.any Prod.snd,
        if xs.any Prod.snd then noCount else (castOvf m cfg key j0 (xs.map Prod.fst), castFlush m cfg key j0 (xs.map Prod.fst), 0,
          [((ownScale (xs.map Prod.fst)).1, castScale cfg (xs.map Prod.fst))])) :=
  (if_neg (by rw [List.any_map]; exact ne_true_of_eq_false h)).trans (if_neg ho)

end

/-! ### O14 -/

/-- A mantissa is written within its width, by saturation where its rounding exceeds it (R45, R59). -/
theorem castElem_range (m : Nat) (cfg : CastCfg) (e own : Nat) (hi : Bool) (x : Val) (noise : Nat) :
    -(2 : Int) ^ (m - 1) ≤ (castElem m cfg e own hi x noise).1 ∧ (castElem m cfg e own hi x noise).1 ≤ 2 ^ (m - 1) - 1 := by
  have hpos : (0 : Int) < 2 ^ (m - 1) := by positivity
  unfold castElem
  dsimp only
  push_cast
  split
  · dsimp only
    omega
  · split
    · dsimp only
      omega
    · dsimp only
      omega

theorem castElems_range {m : Nat} {cfg : CastCfg} {key : CastKey} {j0 : Nat} {vals : List Val} {q : Int}
    (h : q ∈ (castElems m cfg key j0 vals).map (·.1)) : -(2 : Int) ^ (m - 1) ≤ q ∧ q ≤ 2 ^ (m - 1) - 1 := by
  rw [castElems, List.map_map] at h
  obtain ⟨p, -, rfl⟩ := List.mem_map.1 h
  exact castElem_range ..

theorem castElems_length (m : Nat) (cfg : CastCfg) (key : CastKey) (j0 : Nat) (vals : List Val) :
    (castElems m cfg key j0 vals).length = vals.length := by
  simp [castElems]

/-- A cast marks its block and writes zeros, for a value that is not finite or an overflow in propagate mode (R46, R59); or
all values are finite and it writes their elements under the scale chosen. -/
theorem castToBs_cases (m : Nat) (cfg : CastCfg) (key : CastKey) (j0 : Nat) (xs : List (Val × Bool)) :
    ((castToBs m cfg key j0 xs).1 = 0xFF ∧ (castToBs m cfg key j0 xs).2.1 = List.replicate 32 0
      ∧ ((xs.any fun x => vNonfin x.1) = true ∨ cfg.2.1 = true))
    ∨ ((xs.any fun x => vNonfin x.1) = false ∧ (castToBs m cfg key j0 xs).1 = castScale cfg (xs.map Prod.fst)
      ∧ (castToBs m cfg key j0 xs).2.1 = (castElems m cfg key j0 (xs.map Prod.fst)).map (·.1)) := by
  cases h : xs.any fun x => vNonfin x.1 with
  | true =>
    rw [castToBs_nonfin m h]
    exact .inl ⟨rfl, rfl, .inl rfl⟩
  | false =>
    by_cases ho : castOvf m cfg key j0 (xs.map Prod.fst) > 0 ∧ cfg.2.1 = true
    · rw [castToBs_overflow m h ho]
      exact .inl ⟨rfl, rfl, .inr ho.2⟩
    · rw [castToBs_finite m h ho]
      exact .inr ⟨rfl, rfl, rfl⟩

theorem castToBs_length (m : Nat) (cfg : CastCfg) (key : CastKey) (j0 : Nat) {xs : List (Val × Bool)} (h : xs.length = 32) :
    (castToBs m cfg key j0 xs).2.1.length = 32 := by
  rcases castToBs_cases m cfg key j0 xs with ⟨-, hmants, -⟩ | ⟨-, -, hmants⟩
  · simp [hmants]
  · simp [hmants, castElems_length, h]

/-- A scale is one byte. -/
theorem castToBs_scale_lt (m : Nat) (cfg : CastCfg) (key : CastKey) (j0 : Nat) (xs : List (Val × Bool)) :
    (castToBs m cfg key j0 xs).1 < 256 := by
  have hle := castScale_le cfg (xs.map Prod.fst)
  rcases castToBs_cases m cfg key j0 xs with ⟨hscale, -, -⟩ | ⟨-, hscale, -⟩ <;> omega

/-- A poisoned input poisons the block, and the cast counts nothing (R54). -/
theorem castToBs_poisoned (m : Nat) (cfg : CastCfg) (key : CastKey) (j0 : Nat) {xs : List (Val × Bool)}
    (hp : xs.any Prod.snd = true) : (castToBs m cfg key j0 xs).2.2 = (true, noCount) := by
  cases h : xs.any fun x => vNonfin x.1 with
  | true => rw [castToBs_nonfin m h, if_pos hp, hp]
  | false =>
    by_cases ho : castOvf m cfg key j0 (xs.map Prod.fst) > 0 ∧ cfg.2.1 = true
    · rw [castToBs_overflow m h ho, if_pos hp, hp]
    · rw [castToBs_finite m h ho, if_pos hp, hp]

/-- Settles O14: each clause in the two cases of a cast, a marked block and a block of elements. -/
theorem castBlockRange : Obligations.CastBlockRange := by
  unfold Obligations.CastBlockRange
  intro m sr prop en ceil key j0 xs hm _ hceil hlen
  have hpois (hp : xs.any Prod.snd = true) := castToBs_poisoned m (sr, prop, en, ceil) key j0 hp
  have hlen32 := castToBs_length m (sr, prop, en, ceil) key j0 hlen
  have hpow : (1 : Int) ≤ 2 ^ (m - 1) := one_le_pow₀ (by norm_num)
  rcases castToBs_cases m (sr, prop, en, ceil) key j0 xs with ⟨hscale, hmants, hwhy⟩ | ⟨hfin, hscale, hmants⟩
  · refine ⟨hlen32, fun q hq => ?_, fun _ q hq => ?_, fun h => absurd hscale h, fun _ => hscale, fun hf hprop => ?_,
      fun hp => by simp [hpois hp, noCount]⟩
    · rw [hmants] at hq
      have := List.eq_of_mem_replicate hq
      omega
    · rw [hmants] at hq
      exact List.eq_of_mem_replicate hq
    · rcases hwhy with h | h
      · exact absurd h (ne_true_of_eq_false hf)
      · exact absurd h (ne_true_of_eq_false hprop)
  · have hle := castScale_le (sr, prop, en, ceil) (xs.map Prod.fst)
    have hne : (castToBs m (sr, prop, en, ceil) key j0 xs).1 ≠ 0xFF := by omega
    refine ⟨hlen32, fun q hq => castElems_range (hmants ▸ hq), fun h => absurd h hne,
      fun _ => ⟨hscale ▸ hle, fun hen => hscale ▸ castScale_le_ceil (cfg := (sr, prop, en, ceil)) _ hen⟩,
      fun h => absurd h (ne_true_of_eq_false hfin), fun _ _ => hne, fun hp => by simp [hpois hp, noCount]⟩

/-! ### O15 -/

/-- The logarithm of a mantissa's value (R45, R57). -/
theorem vLog_ofInt (z : Bool) (q e : Int) : vLog (ofInt z q e) = e + (blen q.natAbs : Nat) - 1 := by
  rw [vLog, finMag_ofInt]

/-- A mantissa of the width, under the scale of its own block, is written as it is. -/
theorem castElem_bsVal {m scale : Nat} {q : Int} (prop : Bool) (ceil noise : Nat) (hs : scale ≤ 254)
    (hq : q.natAbs < 2 ^ (m - 1)) :
    castElem m (false, prop, false, ceil) scale scale false (bsVal m scale q) noise = (q, false, false) := by
  have hlt : |q| < 2 ^ (m - 1) := by zify at hq; exact hq
  obtain ⟨hlo, hhi⟩ := abs_lt.1 hlt
  rw [bsVal_finite hs]
  unfold castElem
  dsimp only
  push_cast
  rw [roundMant_ofInt, if_neg (by omega), if_neg (by omega), vZero_ofInt]
  simp

section
variable {m scale : Nat} {ms : List Int} (hm : 2 ≤ m) (hs : scale ≤ 254) (hrange : ∀ q ∈ ms, q.natAbs < 2 ^ (m - 1))
  (hlead : ∃ q ∈ ms, 2 ^ (m - 2) ≤ q.natAbs)
include hm hs hrange hlead

/-- A block with a mantissa that has its leading bit has its own scale (R57). -/
theorem ownScale_bsVals : ownScale (ms.map (bsVal m scale)) = (scale, false) := by
  have htop : maxLog (ms.map (bsVal m scale)) = some ((scale : Int) - 127) := by
    refine maxLog_eq_some (fun v hv _ => ?_) ?_
    · obtain ⟨q, hq, rfl⟩ := List.mem_map.1 hv
      have := blen_le_iff.2 (hrange q hq)
      rw [bsVal_finite hs, vLog_ofInt]
      omega
    · obtain ⟨q, hq, hq2⟩ := hlead
      have h1 := blen_le_iff.2 (hrange q hq)
      have h2 := lt_blen_iff.2 hq2
      have h0 : q.natAbs ≠ 0 := (Nat.lt_of_lt_of_le (Nat.two_pow_pos _) hq2).ne'
      refine ⟨_, List.mem_map_of_mem hq, ?_, ?_⟩
      · rwa [bsVal_finite hs, finMag_ofInt]
      · rw [bsVal_finite hs, vLog_ofInt]
        omega
  rw [ownScale, htop]
  exact Prod.ext (by dsimp only; omega) (decide_eq_false (by omega))

/-- The elements cast from such a block are its mantissas, without overflow or flush. -/
theorem castElems_bsVals (prop : Bool) (ceil : Nat) (key : CastKey) (j0 : Nat) :
    castElems m (false, prop, false, ceil) key j0 (ms.map (bsVal m scale)) = ms.map fun q => (q, false, false) := by
  rw [castElems, castScale, ownScale_bsVals hm hs hrange hlead, if_neg (by simp), List.zip_map_left, List.map_map]
  calc _ = (ms.zip (List.range _)).map ((fun q => (q, false, false)) ∘ Prod.fst) := List.map_congr_left fun p hp =>
        castElem_bsVal prop ceil _ hs (hrange p.1 (List.of_mem_zip hp).1)
    _ = _ := by rw [← List.map_map, List.map_fst_zip (by simp)]

end

/-- Settles O15: the block's own scale is the scale it had, so each mantissa is a whole number of units and rounds to itself. -/
theorem castRoundTrip : Obligations.CastRoundTrip := by
  unfold Obligations.CastRoundTrip
  intro m scale ms prop ceil key j0 hm _ hs _ hms hlead
  have hrange : ∀ q ∈ ms, q.natAbs < 2 ^ (m - 1) := fun q hq => by
    obtain ⟨h1, h2⟩ := hms q hq
    zify
    exact abs_lt.2 ⟨by omega, by omega⟩
  have hlead' : ∃ q ∈ ms, 2 ^ (m - 2) ≤ q.natAbs := hlead.imp fun q hq => ⟨hq.1, by zify; exact hq.2⟩
  have hvals : (ms.map fun q => (bsVal m scale q, false)).map Prod.fst = ms.map (bsVal m scale) := by simp
  have hfin : ((ms.map fun q => (bsVal m scale q, false)).any fun x => vNonfin x.1) = false := by
    simp [bsVal_finite hs]
  have helems := castElems_bsVals hm hs hrange hlead' prop ceil key j0
  have hovf : castOvf m (false, prop, false, ceil) key j0 (ms.map (bsVal m scale)) = 0 := by simp [castOvf, helems]
  have hflush : castFlush m (false, prop, false, ceil) key j0 (ms.map (bsVal m scale)) = 0 := by simp [castFlush, helems]
  rw [castToBs_finite m hfin (by simp [hvals, hovf]), hvals, hovf, hflush, helems, castScale,
    ownScale_bsVals hm hs hrange hlead']
  simp [Function.comp_def]

end Sys2Proof.Machine
end

section
/-! PROOF. Instructions that write registers of their core (R132, R135, R160): what they leave alone, and what reading the word leaves
of the registers. -/

set_option Elab.async false

namespace Sys2Proof.Machine

/-! ### Writes of registers -/

/-- From `s` to `t` only registers whose keys `mine` names have changed. -/
structure WroteRegs (mine : Nat → Prop) (s t : State) : Prop where
  only : t = { s with regs := t.regs }
  frame : ∀ d k, ¬mine k → Sparse.get d t.regs k = Sparse.get d s.regs k

/-- The keys of the registers of some names. -/
def keysOf (rs : List Reg) (k : Nat) : Prop := ∃ r ∈ rs, ∃ i j, k = Reg.key r i j

theorem not_keysOf {rs : List Reg} {r : Reg} (h : r ∉ rs) (i j : Nat) : ¬keysOf rs (r.key i j) := by
  rintro ⟨r', hr', i', j', hk⟩
  exact Reg.key_ne (fun e : r = r' => h (e ▸ hr')) i' j' i j hk

section
variable {mine : Nat → Prop} {s t : State}

theorem WroteRegs.refl (s : State) : WroteRegs mine s s := ⟨rfl, fun _ _ _ => rfl⟩

theorem WroteRegs.trans {u : State} (h : WroteRegs mine s t) (h' : WroteRegs mine t u) : WroteRegs mine s u :=
  ⟨h'.only.trans (congrArg (fun v : State => { v with regs := u.regs }) h.only),
    fun d k hk => (h'.frame d k hk).trans (h.frame d k hk)⟩

theorem WroteRegs.wn {r : Reg} {i j v : Nat} (h : WroteRegs mine s t) (hk : mine (r.key i j)) : WroteRegs mine s (t.wn r i j v) :=
  h.trans ⟨rfl, fun _ _ hk' => Sparse.get_set_other _ _ _ _ fun e => hk' (e ▸ hk)⟩

theorem WroteRegs.foldl {α : Type} {f : State → α → State} {l : List α} (h : WroteRegs mine s t)
    (hf : ∀ u, ∀ a ∈ l, WroteRegs mine u (f u a)) : WroteRegs mine s (l.foldl f t) := by
  induction l generalizing t with
  | nil => exact h
  | cons a l ih => exact ih (h.trans (hf t a List.mem_cons_self)) fun u b hb => hf u b (List.mem_cons_of_mem a hb)

theorem WroteRegs.rn (h : WroteRegs mine s t) {r : Reg} {i j : Nat} (hk : ¬mine (r.key i j)) : t.rn r i j = s.rn r i j :=
  congrArg BitVec.toNat (h.frame _ _ hk)

theorem WroteRegs.rd (h : WroteRegs mine s t) {r : Reg} {i j : Nat} (hk : ¬mine (r.key i j)) : t.rd r i j = s.rd r i j :=
  h.frame _ _ hk

theorem WroteRegs.cores (h : WroteRegs mine s t) : t.cores = s.cores := by rw [h.only]
theorem WroteRegs.mem (h : WroteRegs mine s t) : t.mem = s.mem := by rw [h.only]
theorem WroteRegs.pat (h : WroteRegs mine s t) : t.pat = s.pat := by rw [h.only]
theorem WroteRegs.m (h : WroteRegs mine s t) : t.m = s.m := by rw [h.only]

/-- The notice of a poisoned value does not depend on the registers. -/
theorem WroteRegs.poisEvent (h : WroteRegs mine s t) (f : Nat) (p : Bool) : WroteRegs mine (s.poisEvent f p) (t.poisEvent f p) := by
  obtain ⟨ho, hf⟩ := h
  generalize t.regs = r at ho hf
  subst ho
  cases p <;> exact ⟨rfl, hf⟩

theorem WroteRegs.modCore (h : WroteRegs mine s t) (g : Nat) (f : Core → Core) : WroteRegs mine (s.modCore g f) (t.modCore g f) := by
  obtain ⟨ho, hf⟩ := h
  generalize t.regs = r at ho hf
  subst ho
  exact ⟨rfl, hf⟩

theorem WroteRegs.flaskOf (h : WroteRegs mine s t) (x : Who) : t.flaskOf x = s.flaskOf x := by
  rw [State.flaskOf, State.flaskOf, State.core_of_cores h.cores, State.guestOf_of_pat h.pat]

/-- Nor does a change of a group. -/
theorem WroteRegs.regEff (h : WroteRegs mine s t) (x : Who) (f : Group → Group) (p : Bool) :
    WroteRegs mine (s.regEff x f p) (t.regEff x f p) := by
  rw [State.regEff, State.regEff, h.flaskOf]
  exact WroteRegs.poisEvent (h.modCore _ _) _ p

end

/-! ### Reading the word -/

theorem State.fetched_home (s : State) (x : Who) (pc : Nat) : HomeOnly false s (s.fetched x pc) :=
  .ite (HomeOnly.refl s).scrub.stepEvent (HomeOnly.refl s).scrub

/-- Reading the word writes only what an error of the local store is counted and recorded in (R195). -/
theorem State.fetched_rd (s : State) (x : Who) (pc : Nat) {r : Reg} (h : r ∉ homeRegs) (i j : Nat) :
    (s.fetched x pc).rd r i j = s.rd r i j :=
  BitVec.eq_of_toNat_eq ((s.fetched_home x pc).regs r i j h)

theorem State.fetched_group (s : State) (x y : Who) (pc : Nat) : (s.fetched x pc).group y = s.group y :=
  State.group_of_cores (s.fetched_cores x pc) y

/-! ### Issue -/

@[simp] theorem State.poisEvent_regs (s : State) (f : Nat) (p : Bool) : (s.poisEvent f p).regs = s.regs := by cases p <;> rfl
@[simp] theorem State.poisEvent_cores (s : State) (f : Nat) (p : Bool) : (s.poisEvent f p).cores = s.cores := by cases p <;> rfl
@[simp] theorem State.poisEvent_mem (s : State) (f : Nat) (p : Bool) : (s.poisEvent f p).mem = s.mem := by cases p <;> rfl

theorem need_of {b : Bool} (h : b = true) : need b = none := if_pos h

theorem State.retire_only (b : State) (x : Who) : b.retire x = { b with regs := (b.retire x).regs, cores := (b.retire x).cores } := by
  rw [State.retire, State.countIssue_only]
  rfl

/-- The issue of an instruction that changes no register of its group (R138), with the notice of a poisoned value it read. -/
theorem retired_poisEvent {x : Who} {gr : Group} {b : State} (p : Bool) (hg : b.group x = some gr) :
    Retired x gr.advance p b ((b.retire x).poisEvent ((b.retire x).flaskOf x) p) := by
  have h := retired_regEff id p (fun _ _ => rfl) hg
  have hcore (g : Nat) : ((b.retire x).poisEvent ((b.retire x).flaskOf x) p).core g = ((b.retire x).regEff x id p).core g := by
    rw [State.regEff, State.core_of_cores (State.poisEvent_cores ..), State.core_of_cores (State.poisEvent_cores ..), State.modGroup]
    by_cases hx : g = x.core
    · subst hx
      simp
    · rw [State.core_modCore_other _ _ hx]
  have hgroup (y : Who) : ((b.retire x).poisEvent ((b.retire x).flaskOf x) p).group y = ((b.retire x).regEff x id p).group y := by
    rw [State.group, State.group, hcore]
  have hregs : ((b.retire x).poisEvent ((b.retire x).flaskOf x) p).regs = ((b.retire x).regEff x id p).regs := by
    rw [State.regEff, State.poisEvent_regs, State.poisEvent_regs]
    rfl
  refine ⟨?_, ?_, fun d k h1 h2 => ?_, (hgroup x).trans h.group, fun y hy => (hgroup y).trans (h.peers y hy),
    fun g hg => (hcore g).trans (h.others g hg), ?_, ?_⟩
  · rw [State.poisEvent_only, State.retire_only]
  · rw [State.rd_of_regs hregs]
    exact h.count
  · rw [hregs]
    exact h.regs d k h1 h2
  · rw [hcore]
    exact h.core
  · refine Eq.trans ?_ h.notes
    rw [State.regEff, State.poisEvent_notices, State.poisEvent_notices]
    rfl

theorem retired_retire {x : Who} {gr : Group} {b : State} (hg : b.group x = some gr) : Retired x gr.advance false b (b.retire x) :=
  retired_poisEvent false hg

theorem Retired.rd {x : Who} {gr' : Group} {p : Bool} {s t : State} (h : Retired x gr' p s t) {r : Reg} (h1 : r ≠ .ISSUE)
    (h2 : r ≠ .GSTARVE) (i j : Nat) : t.rd r i j = s.rd r i j :=
  h.regs _ _ (Reg.key_ne h1 _ _ _ _) (Reg.key_ne h2 _ _ _ _)

/-- An instruction that also writes registers of the core. -/
theorem Retired.wroteRegs {x : Who} {gr' : Group} {p : Bool} {mine : Nat → Prop} {b s t : State} (h : Retired x gr' p b s)
    (hw : WroteRegs mine s t) (hi : ¬mine (Reg.key .ISSUE x.core (streamNum x.strm))) : RetiredReg x gr' p mine b t := by
  have hcore (g : Nat) : t.core g = s.core g := State.core_of_cores hw.cores g
  have hgroup (y : Who) : t.group y = s.group y := State.group_of_cores hw.cores y
  refine ⟨?_, (hw.rd hi).trans h.count, fun d k hk h1 h2 => (hw.frame d k hk).trans (h.regs d k h1 h2), (hgroup x).trans h.group,
    fun y hy => (hgroup y).trans (h.peers y hy), fun g hg => (hcore g).trans (h.others g hg), ?_, ?_⟩
  · rw [hw.only, h.only]
  · rw [hcore]
    exact h.core
  · rw [hw.only]
    exact h.notes

theorem RetiredReg.mem {x : Who} {gr' : Group} {p : Bool} {mine : Nat → Prop} {s t : State} (h : RetiredReg x gr' p mine s t) :
    t.mem = s.mem := by
  rw [h.only]

end Sys2Proof.Machine
end

section
/-! PROOF. Range-counter slots (R70, R77, R78, R187): O18. -/

set_option Elab.async false

namespace Sys2Proof.Machine

/-! ### Fields within fields -/

/-- A field within one that is zero is zero. -/
theorem fld_within {v hi lo hi' lo' : Nat} (h : fld v hi lo = 0) (hlo : lo ≤ lo') (hhi : hi' ≤ hi) : fld v hi' lo' = 0 := by
  refine Nat.eq_of_testBit_eq fun k => ?_
  have hk := congrArg (Nat.testBit · (lo' + k - lo)) h
  simp only [testBit_fld, Nat.zero_testBit, Nat.add_sub_cancel' (Nat.le_trans hlo (Nat.le_add_right lo' k))] at hk ⊢
  by_cases h1 : k < hi' + 1 - lo'
  · have h2 : lo' + k - lo < hi + 1 - lo := by omega
    simpa [h1, h2] using hk
  · simp [h1]

/-- A field whose upper bits are zero is below its lower bits' range. -/
theorem fld_lt_of_upper {v hi mid lo : Nat} (h : fld v hi mid = 0) (hm : lo ≤ mid) : fld v hi lo < 2 ^ (mid - lo) := by
  refine Nat.lt_pow_two_of_testBit _ fun k hk => ?_
  have hb := congrArg (Nat.testBit · (lo + k - mid)) h
  simp only [testBit_fld, Nat.zero_testBit, show mid + (lo + k - mid) = lo + k by omega] at hb ⊢
  by_cases h1 : k < hi + 1 - lo
  · have h2 : lo + k - mid < hi + 1 - mid := by omega
    simpa [h1, h2] using hb
  · simp [h1]

/-! ### A slot's number -/

theorem slotOf_eq (st : Stream) (n : Nat) : slotOf st n = (if isG st then 56 else 0) + n := by
  unfold slotOf
  split <;> omega

theorem slotOk_iff {st : Stream} {n : Nat} : slotOk st n = true ↔ if isG st then n < 8 else n < 56 := by
  unfold slotOk
  split <;> simp

/-! ### Clearing a slot (R78) -/

/-- The registers that count for a slot (R77). -/
def rcRegs : List Reg := [.RCOVF, .RCFLU, .RCNF, .RCMAX, .RCHIST]

/-- No word read from local store and no issue counts in them. -/
theorem rcRegs_apart : ∀ r ∈ rcRegs, r ∉ homeRegs ∧ r ≠ .ISSUE ∧ r ≠ .GSTARVE := by decide

theorem Reg.key_ne_entry (r : Reg) (i : Nat) {j j' : Nat} (h : j ≠ j') : r.key i j ≠ r.key i j' := by
  unfold Reg.key
  omega

/-- A clear changes the counts and the histogram of its slot alone. -/
theorem State.clearSlot_wrote (s : State) (g sl : Nat) : WroteRegs (slotKeys g sl) s (s.clearSlot g sl) :=
  .foldl ((((WroteRegs.refl s).wn (.inl rfl)).wn (.inr (.inl rfl))).wn (.inr (.inr (.inl rfl))) |>.wn (.inr (.inr (.inr (.inl rfl)))))
    fun u b hb => (WroteRegs.refl u).wn (.inr (.inr (.inr (.inr ⟨b, List.mem_range.1 hb, rfl⟩))))

theorem State.rn_wn_zero (s : State) (r : Reg) (i j : Nat) : (s.wn r i j 0).rn r i j = 0 := by
  rw [State.rn_wn_same, Nat.zero_mod]

/-- The counts of a cleared slot are zero. -/
theorem State.clearSlot_rn (s : State) (g sl : Nat) {r : Reg} (h : r ∈ [.RCOVF, .RCFLU, .RCNF, .RCMAX]) :
    (s.clearSlot g sl).rn r g sl = 0 := by
  have hhist : r ≠ .RCHIST := by rintro rfl; exact absurd h (by decide)
  refine (foldl_leaves (p := (·.rn r g sl)) (fun u b => State.rn_wn_other u hhist ..) _ _).trans ?_
  simp only [List.mem_cons, List.not_mem_nil, or_false] at h
  rcases h with rfl | rfl | rfl | rfl
  all_goals simp [State.rn_wn_other]

/-- Its histogram is zero. -/
theorem State.clearSlot_hist (s : State) (g sl : Nat) {b : Nat} (h : b < 32) : (s.clearSlot g sl).rn .RCHIST g (32 * sl + b) = 0 := by
  rw [State.clearSlot, ← histIdx]
  refine foldl_reaches (P := fun u => u.rn .RCHIST g (histIdx sl b) = 0) (f := fun u v => u.wn .RCHIST g (histIdx sl v) 0) (x := b)
    (fun u => u.rn_wn_zero ..) (fun u y hu => ?_) (List.mem_range.2 h) _
  by_cases hy : y = b
  · subst hy
    exact State.rn_wn_same ..
  · exact (congrArg BitVec.toNat (State.rd_wr_other _ _ (Reg.key_ne_entry _ _ (by simp only [histIdx]; omega)))).trans hu

/-- A slot's keys are those of the five registers of its counts. -/
theorem keysOf_of_slotKeys {g sl k : Nat} (h : slotKeys g sl k) : keysOf rcRegs k := by
  rcases h with h | h | h | h | ⟨b, -, h⟩
  all_goals exact ⟨_, by decide, _, _, h⟩

theorem rcclrClear_clears (s : State) (g slot : Nat) : exec (.rcclrClear g slot) s = .next (s.clearSlot g slot) := rfl

/-! ### RCSET, RCGET, RCCLR (R187) -/

/-- The word that RCSET writes in COR_RCCFG: the modes of R74 in their fields. -/
def rccfgWord (v : Nat) : Nat := fld v 15 8 * 2 ^ 8 + fld v 2 0

theorem rccfgWord_lt (v : Nat) : rccfgWord v < 2 ^ 64 := by
  have h1 : fld v 15 8 < 256 := fld_lt v 15 8
  have h2 : fld v 2 0 < 8 := fld_lt v 2 0
  unfold rccfgWord
  omega

/-- Its reserved bits are zero. -/
theorem rccfgWord_fields (v : Nat) : fld (rccfgWord v) 2 0 = fld v 2 0 ∧ fld (rccfgWord v) 15 8 = fld v 15 8
    ∧ fld (rccfgWord v) 7 3 = 0 ∧ fld (rccfgWord v) 31 16 = 0 := by
  have h1 : fld v 15 8 < 256 := fld_lt v 15 8
  have h2 : fld v 2 0 < 8 := fld_lt v 2 0
  unfold rccfgWord
  generalize fld v 15 8 = a at *
  generalize fld v 2 0 = b at *
  simp only [fld, Nat.shiftRight_eq_div_pow]
  omega

/-- What RCSET writes, from the state its issue leaves. -/
def State.rcset (s : State) (g sl v : Nat) : State := (s.wn .RCCFG g sl (rccfgWord v)).wn .RCTID g sl (fld v 63 32)

theorem State.rcset_wrote (s : State) (g sl v : Nat) :
    WroteRegs (fun k => k = Reg.key .RCCFG g sl ∨ k = Reg.key .RCTID g sl) s (s.rcset g sl v) :=
  ((WroteRegs.refl s).wn (.inl rfl)).wn (.inr rfl)

theorem State.rcset_cfg (s : State) (g sl v : Nat) : (s.rcset g sl v).rn .RCCFG g sl = rccfgWord v := by
  rw [State.rcset, State.rn_wn_other _ (by decide), State.rn_wn_same, Nat.mod_eq_of_lt (rccfgWord_lt v)]

theorem State.rcset_tid (s : State) (g sl v : Nat) : (s.rcset g sl v).rn .RCTID g sl = fld v 63 32 := by
  rw [State.rcset, State.rn_wn_same]
  exact Nat.mod_eq_of_lt (Nat.lt_trans (fld_lt v 63 32) (by decide))

section
variable {x : Who} {w : BitVec 56} {s : State} {gr : Group}

theorem rcset_issues (hi : Issues s x gr false [256 + fld w.toNat 36 32]) (hs : slotOk x.strm (cSlot w.toNat) = true)
    (h1 : fld w.toNat 55 37 = 0) (h2 : fld w.toNat 31 22 = 0) (h3 : fld w.toNat 15 0 = 0) :
    exec (.rcset x w) s = .next ((((s.fetched x gr.pc).retire x).rcset x.core (slotOf x.strm (cSlot w.toNat))
      (gr.unif (fld w.toNat 36 32)).toNat).poisEvent (((s.fetched x gr.pc).retire x).flaskOf x) (gr.unifP (fld w.toNat 36 32))) := by
  have hmk : mkOf w.toNat = 0 := fld_within h1 (by decide) (by decide)
  have hvr : cVR w.toNat = 0 := fld_within h1 (by decide) (by decide)
  have hvs : cVS w.toNat = 0 := fld_within h1 (by decide) (by decide)
  exact congrArg Host.Outcome.next (presentReg_issues hi (need_of (by simp [hs, hmk, hvr, hvs, h2, h3])))

theorem rcget_issues (hi : Issues s x gr false [256 + fld w.toNat 52 45 % 32])
    (hb : (s.core x.core).slotBusy x.strm (slotOf x.strm (cSlot w.toNat)) = false) (hs : slotOk x.strm (cSlot w.toNat) = true)
    (h1 : fld w.toNat 55 50 = 0) (h2 : fld w.toNat 44 32 = 0) (h3 : fld w.toNat 15 0 = 0) (h4 : fld w.toNat 31 27 ≤ 4)
    (h5 : fld w.toNat 31 27 = 4 ∨ fld w.toNat 26 22 = 0) :
    exec (.rcget x w) s = .next (((s.fetched x gr.pc).retire x).regEff x (fun h => h.setUnif (fld w.toNat 52 45)
      (((s.fetched x gr.pc).retire x).rd (rcReg (cSF w.toNat) (slotOf x.strm (cSlot w.toNat)) (cDF w.toNat)).1 x.core
        (rcReg (cSF w.toNat) (slotOf x.strm (cSlot w.toNat)) (cDF w.toNat)).2) false) false) := by
  have hmk : mkOf w.toNat = 0 := fld_within h1 (by decide) (by decide)
  have hvr : cVR w.toNat < 32 := fld_lt_of_upper (hi := 52) (mid := 50) (fld_within h1 (by decide) (by decide)) (by decide)
  have hvs : cVS w.toNat = 0 := fld_within h2 (by decide) (by decide)
  have hub : cUB w.toNat = 0 := fld_within h2 (by decide) (by decide)
  have hsf : cSF w.toNat ≤ 4 := h4
  have hdf : cSF w.toNat = 4 ∨ cDF w.toNat = 0 := h5
  have hfree : gr.held false [256 + cVR w.toNat % 32] = false := hi.free
  exact congrArg Host.Outcome.next (present_issues hi.here hi.runs hi.fetch (by simp [hfree, hb])
    (need_of (by simp [hs, hmk, hvr, hvs, hub, hsf, hdf, h3])))

theorem rcclr_issues (hi : Issues s x gr false []) (hb : (s.core x.core).slotBusy x.strm (slotOf x.strm (cSlot w.toNat)) = false)
    (hs : slotOk x.strm (cSlot w.toNat) = true) (h1 : fld w.toNat 55 22 = 0) (h3 : fld w.toNat 15 0 = 0) :
    exec (.rcclr x w) s = .next (((s.fetched x gr.pc).retire x).clearSlot x.core (slotOf x.strm (cSlot w.toNat))) := by
  have hmk : mkOf w.toNat = 0 := fld_within h1 (by decide) (by decide)
  have hvr : cVR w.toNat = 0 := fld_within h1 (by decide) (by decide)
  have hvs : cVS w.toNat = 0 := fld_within h1 (by decide) (by decide)
  have hub : cUB w.toNat = 0 := fld_within h1 (by decide) (by decide)
  have h2 : fld w.toNat 31 22 = 0 := fld_within h1 (by decide) (by decide)
  exact congrArg Host.Outcome.next (present_issues hi.here hi.runs hi.fetch (by simp [hi.free, hb])
    (need_of (by simp [hs, hmk, hvr, hvs, hub, h2, h3])))

/-- What keeps an instruction from issuing leaves the state as it is. -/
theorem present_held {held : State → Group → Bool} {chk : Check} {eff : State → Group → State} {m : Bool} {regs : List Nat}
    (hi : Issues s x gr m regs) (hh : held s gr = true) : present x held chk eff s = s := by
  simp [present, hi.here, hi.runs, hi.fetch, hh]

/-- RCCLR and RCGET wait while a drain of the stream that names the slot has not been granted. -/
theorem rc_waits (hi : Issues s x gr false []) (hb : (s.core x.core).slotBusy x.strm (slotOf x.strm (cSlot w.toNat)) = true) :
    exec (.rcclr x w) s = .next s ∧ exec (.rcget x w) s = .next s :=
  ⟨congrArg Host.Outcome.next (present_held hi (by simp [hb])), congrArg Host.Outcome.next (present_held hi (by simp [hb]))⟩

/-- The counter RCGET names by SF, and by DF among the histogram (R187). -/
theorem rd_rcReg (s : State) (g : Nat) {sf : Nat} (sl df : Nat) : s.rd (rcReg sf sl df).1 g (rcReg sf sl df).2
    = if sf = 0 then s.rd .RCOVF g sl else if sf = 1 then s.rd .RCFLU g sl else if sf = 2 then s.rd .RCNF g sl
      else if sf = 3 then s.rd .RCMAX g sl else s.rd .RCHIST g (32 * sl + df) := by
  rcases sf with _ | _ | _ | _ | sf <;> simp [rcReg, histIdx]

theorem rcReg_mem (sf sl df : Nat) : (rcReg sf sl df).1 ∈ rcRegs := by
  rcases sf with _ | _ | _ | _ | sf <;> simp [rcReg, rcRegs]

/-- Issue leaves the caster's registers alone. -/
theorem State.issued_rd (hg : (s.fetched x gr.pc).group x = some gr) {r : Reg} (h1 : r ∉ homeRegs) (h2 : r ≠ .ISSUE)
    (h3 : r ≠ .GSTARVE) (i j : Nat) : ((s.fetched x gr.pc).retire x).rd r i j = s.rd r i j :=
  ((retired_retire hg).rd h2 h3 i j).trans (s.fetched_rd x gr.pc h1 i j)

/-- The uniform an instruction writes, of a group that advances. -/
theorem wroteUnif_advance (gr : Group) (d : Nat) (v : Word64) (p : Bool) : WroteUnif gr (gr.advance.setUnif d v p) d v p :=
  ⟨rfl, ⟨rfl, rfl, rfl, rfl⟩, Group.unif_setUnif_same .., Group.unifP_setUnif_same .., fun _ hi =>
    ⟨Group.unif_setUnif_other _ _ _ hi, Group.unifP_setUnif_other _ _ _ hi⟩⟩

end

/-- Settles O18: each instruction's issue, followed by the writes of its slot's registers. -/
theorem rangeCounters : Obligations.RangeCounters := by
  unfold Obligations.RangeCounters
  refine ⟨fun x w s gr => ?_, fun s g slot _ => ?_⟩
  · intro n sl v hslot gr'
    have hs : slotOk x.strm (cSlot n) = true := slotOk_iff.2 hslot
    have hsl : slotOf x.strm (cSlot n) = sl := slotOf_eq ..
    refine ⟨fun hi h1 h2 h3 => ?_, fun hi hb h1 h2 h3 h4 h5 => ?_, fun hi hb h1 h3 => ?_, fun hi hb => ?_⟩
    · have hg := (s.fetched_group x x gr.pc).trans hi.here
      obtain ⟨h20, h158, h73, h3116⟩ := rccfgWord_fields v
      have hcfg (hi lo : Nat) : ((((s.fetched x gr.pc).retire x).rcset x.core sl v).poisEvent
          (((s.fetched x gr.pc).retire x).flaskOf x) (gr.unifP (fld n 36 32))).rf .RCCFG x.core sl hi lo = fld (rccfgWord v) hi lo := by
        rw [State.rf_of_regs (State.poisEvent_regs ..), State.rf, State.rcset_cfg]
      refine ⟨_, hsl ▸ rcset_issues hi hs h1 h2 h3, (retired_poisEvent _ hg).wroteRegs (.poisEvent (State.rcset_wrote ..) _ _) ?_,
        (hcfg 2 0).trans h20, (hcfg 15 8).trans h158, (hcfg 7 3).trans h73, (hcfg 31 16).trans h3116, ?_⟩
      · rintro (hk | hk) <;> exact Reg.key_ne (by decide) _ _ _ _ hk
      · rw [State.rn_of_regs (State.poisEvent_regs ..)]
        exact State.rcset_tid ..
    · have hg := (s.fetched_group x x gr.pc).trans hi.here
      obtain ⟨hhome, hissue, hstarve⟩ := rcRegs_apart _ (rcReg_mem (cSF n) sl (cDF n))
      have hval := State.issued_rd hg hhome hissue hstarve x.core (rcReg (cSF n) sl (cDF n)).2
      refine ⟨_, _, rcget_issues hi (hsl ▸ hb) hs h1 h2 h3 h4 h5, retired_regEff _ false (fun _ _ => rfl) hg, ?_⟩
      rw [hsl, hval, rd_rcReg]
      exact wroteUnif_advance ..
    · have hg := (s.fetched_group x x gr.pc).trans hi.here
      refine ⟨_, hsl ▸ rcclr_issues hi (hsl ▸ hb) hs h1 h3, (retired_retire hg).wroteRegs (State.clearSlot_wrote ..)
        (fun hk => not_keysOf (by decide) _ _ (keysOf_of_slotKeys hk)), ?_, ?_, ?_, ?_, fun b hb => State.clearSlot_hist _ _ _ hb⟩
      all_goals exact State.clearSlot_rn _ _ _ (by decide)
    · exact rc_waits hi (hsl ▸ hb)
  · have hw := State.clearSlot_wrote s g slot
    refine ⟨_, rcclrClear_clears s g slot, ?_, ?_, ?_, ?_, fun b hb => State.clearSlot_hist _ _ _ hb, hw.only, hw.frame⟩
    all_goals exact State.clearSlot_rn _ _ _ (by decide)

end Sys2Proof.Machine
end

section
/-! PROOF. Casts to registers (R71, R184, R185): O16. -/

set_option Elab.async false

namespace Sys2Proof.Machine

/-! ### The counts of a cast (R71) -/

theorem State.countGroup_wrote (s : State) (g sl : Nat) (p : Nat × Nat) : WroteRegs (keysOf rcRegs) s (s.countGroup g sl p) :=
  ((WroteRegs.refl s).wn ⟨.RCMAX, by decide, _, _, rfl⟩).wn ⟨.RCHIST, by decide, _, _, rfl⟩

/-- A cast counts in the registers of its slot alone. -/
theorem State.countCast_wrote (s : State) (g sl : Nat) (c : CastCount) : WroteRegs (keysOf rcRegs) s (s.countCast g sl c) :=
  .foldl ((((WroteRegs.refl s).wn ⟨.RCOVF, by decide, _, _, rfl⟩).wn ⟨.RCFLU, by decide, _, _, rfl⟩).wn
    ⟨.RCNF, by decide, _, _, rfl⟩)
    fun u p _ => u.countGroup_wrote g sl p

theorem State.rn_addSat_same (s : State) (r : Reg) (i j n : Nat) :
    (s.addSat r i j 32 n).rn r i j = min (2 ^ 32 - 1) (s.rn r i j + n) := by
  rw [State.addSat, State.rn_wn_same, sat]
  omega

theorem State.rn_addSat_other (s : State) {r r' : Reg} (h : r' ≠ r) (i j w n i' j' : Nat) :
    (s.addSat r i j w n).rn r' i' j' = s.rn r' i' j' := State.rn_wn_other s h ..

theorem State.rn_countGroup (s : State) (g sl : Nat) (p : Nat × Nat) {r : Reg} (h1 : r ≠ .RCMAX) (h2 : r ≠ .RCHIST) (i j : Nat) :
    (s.countGroup g sl p).rn r i j = s.rn r i j := (State.rn_addSat_other _ h2 ..).trans (State.rn_wn_other _ h1 ..)

/-- The overflow, flush and non-finite counts rise by the cast's, saturating. -/
theorem State.countCast_counted (s : State) (g sl : Nat) (c : CastCount) : SlotCounted s (s.countCast g sl c) g sl c := by
  have hgroups (r : Reg) (h1 : r ≠ .RCMAX) (h2 : r ≠ .RCHIST) : (s.countCast g sl c).rn r g sl
      = (((s.addSat .RCOVF g sl 32 c.1).addSat .RCFLU g sl 32 c.2.1).addSat .RCNF g sl 32 c.2.2.1).rn r g sl :=
    foldl_leaves (p := (·.rn r g sl)) (fun u p => u.rn_countGroup g sl p h1 h2 g sl) _ _
  refine ⟨?_, ?_, ?_⟩
  · rw [hgroups _ (by decide) (by decide), State.rn_addSat_other _ (by decide), State.rn_addSat_other _ (by decide),
      State.rn_addSat_same]
  · rw [hgroups _ (by decide) (by decide), State.rn_addSat_other _ (by decide), State.rn_addSat_same,
      State.rn_addSat_other _ (by decide)]
  · rw [hgroups _ (by decide) (by decide), State.rn_addSat_same, State.rn_addSat_other _ (by decide),
      State.rn_addSat_other _ (by decide)]

/-! ### Elements written to lane registers (R184) -/

/-- Only the lane registers of a group and their poison have changed. -/
def LanesOnly (gr gr' : Group) : Prop := gr' = { gr with v := gr'.v, vp := gr'.vp }

theorem LanesOnly.refl (gr : Group) : LanesOnly gr gr := rfl

theorem LanesOnly.setLane {gr gr' : Group} (h : LanesOnly gr gr') (r l : Nat) (v : Word32) (p : Bool) :
    LanesOnly gr (gr'.setLane r l v p) := by
  unfold LanesOnly at h
  generalize gr'.v = a, gr'.vp = b at h
  subst h
  rfl

theorem LanesOnly.is {gr gr' : Group} (h : LanesOnly gr gr') (z : Who) : Group.is z gr' = Group.is z gr := by
  rw [h]
  rfl

theorem LanesOnly.putElem {gr gr' : Group} (h : LanesOnly gr gr') (df r l bits : Nat) (p : Bool) :
    LanesOnly gr (gr'.putElem df r l bits p) := by
  unfold Group.putElem
  split
  · exact (((h.setLane ..).setLane ..).setLane ..).setLane ..
  · exact h.setLane ..

/-- A lane register that is none of the element's, or of another lane. -/
theorem Group.lane_putElem_other (gr : Group) {df r l v l' : Nat} (bits : Nat) (p : Bool) (hl : l < 64) (hl' : l' < 64)
    (h : ¬(v ∈ elemSpan df r ∧ l' = l)) : (gr.putElem df r l bits p).lane v l' = gr.lane v l' := by
  unfold Group.putElem
  unfold elemSpan at h
  split
  · next hq =>
    simp only [hq, if_true, List.mem_cons, List.not_mem_nil, or_false] at h
    unfold Group.setQuad
    rw [Group.lane_setLane_other _ _ _ (by omega), Group.lane_setLane_other _ _ _ (by omega),
      Group.lane_setLane_other _ _ _ (by omega), Group.lane_setLane_other _ _ _ (by omega)]
  · next hq =>
    simp only [hq, if_false, List.mem_singleton] at h
    exact Group.lane_setLane_other _ _ _ (by omega)

/-- An element written is read back, cut to its registers' width. -/
theorem Group.elemBits_putElem_same (gr : Group) (df r l bits : Nat) (p : Bool) :
    (gr.putElem df r l bits p).elemBits df r l = bits % 2 ^ (if df = 0x14 then 80 else 32) := by
  unfold Group.putElem Group.elemBits
  split
  · unfold Group.setQuad Group.quad
    rw [Group.lane_setLane_other _ _ _ (by omega), Group.lane_setLane_same, Group.lane_setLane_other _ _ _ (by omega),
      Group.lane_setLane_other _ _ _ (by omega), Group.lane_setLane_same, Group.lane_setLane_other _ _ _ (by omega),
      Group.lane_setLane_other _ _ _ (by omega), Group.lane_setLane_other _ _ _ (by omega), Group.lane_setLane_same]
    simp only [BitVec.toNat_ofNat]
    omega
  · simp

theorem Group.elemBits_congr {gr gr' : Group} {df r l : Nat} (h : ∀ v ∈ elemSpan df r, gr'.lane v l = gr.lane v l) :
    gr'.elemBits df r l = gr.elemBits df r l := by
  unfold elemSpan at h
  unfold Group.elemBits
  split
  · next hq =>
    simp only [hq, if_true, List.mem_cons, List.not_mem_nil, or_false, forall_eq_or_imp, forall_eq] at h
    obtain ⟨h0, h1, h2, -⟩ := h
    rw [Group.quad, Group.quad, h0, h1, h2]
  · next hq => rw [h r (by simp [hq])]

/-- Elements written one after another: each a lane, an index, the element's bits and its poison. -/
def Group.putElems (gr : Group) (df r : Nat) (es : List (Nat × Nat × Nat × Bool)) : Group :=
  es.foldl (fun h e => h.putElem df r e.1 e.2.2.1 e.2.2.2) gr

theorem Group.putElems_lanesOnly (gr : Group) (df r : Nat) (es : List (Nat × Nat × Nat × Bool)) : LanesOnly gr (gr.putElems df r es) :=
  List.foldlRecOn es _ (LanesOnly.refl gr) fun _ h _ _ => h.putElem ..

theorem Group.lane_putElems_other (gr : Group) {df r v l : Nat} {es : List (Nat × Nat × Nat × Bool)} (hes : ∀ e ∈ es, e.1 < 64)
    (hl : l < 64) (h : ¬(v ∈ elemSpan df r ∧ ∃ e ∈ es, e.1 = l)) : (gr.putElems df r es).lane v l = gr.lane v l := by
  induction es generalizing gr with
  | nil => rfl
  | cons e es ih =>
    obtain ⟨he, hes⟩ := List.forall_mem_cons.1 hes
    refine (ih _ hes fun ⟨hv, e', he', hl'⟩ => h ⟨hv, e', List.mem_cons_of_mem _ he', hl'⟩).trans ?_
    exact gr.lane_putElem_other _ _ he hl fun ⟨hv, hl'⟩ => h ⟨hv, e, List.mem_cons_self, hl'.symm⟩

/-- Each of some elements for different lanes is read back. -/
theorem Group.elemBits_putElems (gr : Group) {df r : Nat} {es : List (Nat × Nat × Nat × Bool)} (hes : ∀ e ∈ es, e.1 < 64)
    (hnd : (es.map Prod.fst).Nodup) {e : Nat × Nat × Nat × Bool} (he : e ∈ es) :
    (gr.putElems df r es).elemBits df r e.1 = e.2.2.1 % 2 ^ (if df = 0x14 then 80 else 32) := by
  induction es generalizing gr with
  | nil => exact absurd he List.not_mem_nil
  | cons a es ih =>
    obtain ⟨ha, hes'⟩ := List.forall_mem_cons.1 hes
    obtain ⟨hnew, hnd'⟩ := List.nodup_cons.1 hnd
    rcases List.mem_cons.1 he with rfl | he
    · refine Eq.trans (Group.elemBits_congr fun v _ => ?_) (gr.elemBits_putElem_same df r e.1 e.2.2.1 e.2.2.2)
      exact Group.lane_putElems_other _ hes' ha fun ⟨_, e', he', hl⟩ => hnew (List.mem_map.2 ⟨e', he', hl⟩)
    · exact ih _ hes' hnd' he

/-! ### The effect of CVT and CASTL -/

theorem mem_onLanes {gr : Group} {k l : Nat} : l ∈ gr.onLanes k ↔ l < 64 ∧ gr.on k l = true := by
  simp [Group.onLanes, lanes]

theorem onLanes_nodup (gr : Group) (k : Nat) : (gr.onLanes k).Nodup := List.nodup_range.filter _

/-- From the state its issue leaves, a cast to a register writes the elements `r.1` to the lanes `on` and adds the counts `r.2`. -/
def State.castToReg (s : State) (x : Who) (df vr sl : Nat) (on : List Nat) (r : List (Nat × Nat × Bool) × CastCount) : State :=
  (s.countCast x.core sl r.2).regEff x (fun h => h.putElems df vr (on.zip r.1)) (r.1.any fun e => e.2.2)

theorem castScalars_length (df : Nat) (cfg : CastCfg) (key : CastKey) (xs : List (Nat × Val × Bool)) :
    (castScalars df cfg key xs).1.length = xs.length := by
  simp [castScalars]

section
variable {x : Who} {gr : Group} {b : State} {df vr sl k : Nat} {r : List (Nat × Nat × Bool) × CastCount}

theorem castToReg_retired (hg : b.group x = some gr) (on : List Nat) : RetiredReg x (gr.advance.putElems df vr (on.zip r.1))
    (r.1.any fun e => e.2.2) (keysOf rcRegs) b ((b.retire x).castToReg x df vr sl on r) := by
  have hr := retired_regEff (fun h => h.putElems df vr (on.zip r.1)) (r.1.any fun e => e.2.2)
    (fun h z => (Group.putElems_lanesOnly h df vr (on.zip r.1)).is z) hg
  have hw := (State.countCast_wrote (b.retire x) x.core sl r.2).regEff x (fun h => h.putElems df vr (on.zip r.1))
    (r.1.any fun e => e.2.2)
  exact hr.wroteRegs hw (not_keysOf (by decide) _ _)

theorem castToReg_counted (hg : b.group x = some gr) (on : List Nat) :
    SlotCounted b ((b.retire x).castToReg x df vr sl on r) x.core sl r.2 := by
  have hregs : ((b.retire x).castToReg x df vr sl on r).regs = ((b.retire x).countCast x.core sl r.2).regs := by
    rw [State.castToReg, State.regEff, State.poisEvent_regs]
    rfl
  have hb (q : Reg) (h1 : q ≠ .ISSUE) (h2 : q ≠ .GSTARVE) : (b.retire x).rn q x.core sl = b.rn q x.core sl :=
    congrArg BitVec.toNat ((retired_retire hg).rd h1 h2 ..)
  obtain ⟨ho, hf, hn⟩ := (b.retire x).countCast_counted x.core sl r.2
  refine ⟨?_, ?_, ?_⟩
  · rw [State.rn_of_regs hregs, ho, hb _ (by decide) (by decide)]
  · rw [State.rn_of_regs hregs, hf, hb _ (by decide) (by decide)]
  · rw [State.rn_of_regs hregs, hn, hb _ (by decide) (by decide)]

/-- The elements of the unmasked lanes are read back. -/
theorem castToReg_elems (gr' : Group) (hlen : r.1.length = (gr.onLanes k).length) {i : Nat} (hi : i < (gr.onLanes k).length) :
    (gr'.putElems df vr ((gr.onLanes k).zip r.1)).elemBits df vr ((gr.onLanes k).getD i 0)
      = (r.1.getD i (0, 0, false)).2.1 % 2 ^ (if df = 0x14 then 80 else 32) := by
  have hmem : ((gr.onLanes k).getD i 0, r.1.getD i (0, 0, false)) ∈ (gr.onLanes k).zip r.1 := by
    rw [List.getD_eq_getElem _ _ hi, List.getD_eq_getElem _ _ (hlen ▸ hi), List.mem_iff_getElem]
    exact ⟨i, by simp [hlen, hi], by simp⟩
  have hnd : (((gr.onLanes k).zip r.1).map Prod.fst).Nodup := by
    rw [List.map_fst_zip (by omega)]
    exact onLanes_nodup gr k
  exact (gr'.elemBits_putElems (fun _ he => (mem_onLanes.1 (List.of_mem_zip he).1).1) hnd hmem :)

/-- Every other lane register is as before. -/
theorem castToReg_others (gr' : Group) {v l : Nat} (hl : l < 64) (h : ¬(v ∈ elemSpan df vr ∧ gr.on k l = true)) :
    (gr'.putElems df vr ((gr.onLanes k).zip r.1)).lane v l = gr'.lane v l :=
  gr'.lane_putElems_other (fun _ he => (mem_onLanes.1 (List.of_mem_zip he).1).1) hl fun ⟨hv, _, he, hel⟩ =>
    h ⟨hv, hel ▸ (mem_onLanes.1 (List.of_mem_zip he).1).2⟩

end

/-! ### Reading the operands at issue -/

/-- Where no error is latent, the word is read with no effect but the notice of its poison. -/
theorem State.fetched_sound {s : State} (h : s.m.lerr = []) (x : Who) (pc : Nat) :
    s.fetched x pc = s.poisEvent (s.flaskOf x) (s.poisoned (lsAt x.core pc) 8) := by
  have hs : s.scrub (lsAt x.core pc) 8 = s := if_pos (.inl h)
  rw [State.fetched, hs]

theorem State.scrub_sound {s : State} (h : s.m.lerr = []) (a n : Nat) : s.scrub a n = s := if_pos (.inl h)

theorem State.elemScrub_sound {s : State} (h : s.m.lerr = []) (g c : Nat) (d : Word64) (on : List Nat) : s.elemScrub g c d on = s := by
  induction on with
  | nil => rfl
  | cons l on ih =>
    rw [State.elemScrub, List.foldl_cons, State.scrub_sound (by rw [State.scrub_sound h]; exact h), State.scrub_sound h]
    exact ih

/-- With no output on its way, an instruction reads the bytes of local store. -/
theorem State.lsBytes_calm {s : State} {g : Nat} (h : (s.core g).calm = true) (o n : Nat) :
    s.lsBytes g o n = (s.bytes (aper g + o) n, s) := if_pos h

/-- Scale and mantissa field of block `b` of a descriptor's pair (R184). -/
def State.blockAt (s : State) (g c : Nat) (d : Word64) (b : Nat) : Nat × Nat :=
  ((s.byte (lsAt g (descS d + b))).toNat, s.le (lsAt g (descM d + b * blockBytes c)) (blockBytes c))

/-- Element `l` of a descriptor's pair, of its 64, and its poison (R45, R54, R63). -/
def State.pairElem (s : State) (g c : Nat) (d : Word64) (l : Nat) : Val × Bool :=
  (blockVal c (s.blockAt g c d (l / 32)).1 (s.blockAt g c d (l / 32)).2 (l % 32), s.elemP g c d (l / 32) (l % 32))

theorem State.getDesc_calm {s : State} {g : Nat} (h : (s.core g).calm = true) (c : Nat) (d : Word64) (b : Nat) (on : List Nat) :
    s.getDesc g c d b on = (if on.all fun l => l / 32 ≠ b then (0, 0) else s.blockAt g c d b, s) := by
  unfold State.getDesc
  rw [State.lsBytes_calm h]
  dsimp only
  rw [State.lsBytes_calm h]
  split
  · rfl
  · simp [State.blockAt, State.bytes, leNat, State.le, lsAt]

/-- A block that an unmasked lane reads. -/
theorem State.getDesc_block {s : State} {g : Nat} (h : (s.core g).calm = true) (c : Nat) (d : Word64) {on : List Nat} {l : Nat}
    (hl : l ∈ on) : (s.getDesc g c d (l / 32) on).1 = s.blockAt g c d (l / 32) := by
  rw [State.getDesc_calm h]
  refine if_neg fun hall => ?_
  simpa using List.all_eq_true.1 hall l hl

/-- What the caster's instructions read of the state that their issue leaves is as it was. -/
structure CastReads (x : Who) (s u : State) : Prop where
  mem : u.mem = s.mem
  pois : u.pois = s.pois
  lerr : u.m.lerr = []
  calm : (u.core x.core).calm = (s.core x.core).calm
  rd : ∀ r i j, r ∉ homeRegs → r ≠ .ISSUE → r ≠ .GSTARVE → u.rd r i j = s.rd r i j

theorem castReads_issued {x : Who} {s : State} {gr : Group} (hg : s.group x = some gr) (h : s.m.lerr = []) :
    CastReads x s ((s.fetched x gr.pc).retire x) := by
  have hb : (s.fetched x gr.pc).group x = some gr := (s.fetched_group x x gr.pc).trans hg
  have hr := retired_retire hb
  have hf := State.fetched_sound h x gr.pc
  refine ⟨?_, ?_, ?_, ?_, fun r i j h1 h2 h3 => State.issued_rd hb h1 h2 h3 i j⟩
  · rw [hr.only, hf, State.poisEvent_only]
  · rw [hr.only, hf, State.poisEvent_only]
  · rw [hr.only, hf, State.poisEvent_only]
    exact h
  · rw [hr.core, State.core_of_cores (s.fetched_cores x gr.pc)]
    rfl

section
variable {x : Who} {s u : State} (h : CastReads x s u)
include h

theorem CastReads.key (gr : Group) (sl uk : Nat) : u.castKey gr x.core sl uk = s.castKey gr x.core sl uk := by
  rw [State.castKey, State.castKey, h.rd _ _ _ (by decide) (by decide) (by decide)]

theorem CastReads.modes (sl : Nat) : u.modes x.core sl = s.modes x.core sl := by
  rw [State.modes, State.modes, State.rn, State.rn, h.rd _ _ _ (by decide) (by decide) (by decide)]

theorem CastReads.byte (a : Nat) : u.byte a = s.byte a := by rw [State.byte, State.byte, h.mem]

theorem CastReads.blockAt (g c : Nat) (d : Word64) (b : Nat) : u.blockAt g c d b = s.blockAt g c d b := by
  rw [State.blockAt, State.blockAt, h.byte, State.le, State.le, State.bytes, State.bytes]
  simp only [h.byte]

theorem CastReads.elemP (g c : Nat) (d : Word64) (b i : Nat) : u.elemP g c d b i = s.elemP g c d b i := by
  simp only [State.elemP, State.poisoned, h.pois]

end

/-! ### O16 -/

/-- The cast of some lanes' elements under the modes and the key of a slot (R75, R185). -/
def State.castLanes (s : State) (gr : Group) (g sl uk df : Nat) (on : List Nat) (elem : Nat → Val × Bool) :
    List (Nat × Nat × Bool) × CastCount :=
  castScalars df (s.modes g sl) (s.castKey gr g sl uk) (on.map fun l => ((s.castKey gr g sl uk).2.2.2 + l, elem l))

theorem State.castLanes_congr (s : State) (gr : Group) (g sl uk df : Nat) {on : List Nat} {elem elem' : Nat → Val × Bool}
    (h : ∀ l ∈ on, elem l = elem' l) : s.castLanes gr g sl uk df on elem = s.castLanes gr g sl uk df on elem' :=
  congrArg (castScalars df _ _) (List.map_congr_left fun l hl => by rw [h l hl])

theorem CastReads.castLanes {x : Who} {s u : State} (h : CastReads x s u) (gr : Group) (sl uk df : Nat) (on : List Nat)
    (elem : Nat → Val × Bool) : u.castLanes gr x.core sl uk df on elem = s.castLanes gr x.core sl uk df on elem := by
  rw [State.castLanes, State.castLanes, h.modes, h.key]

section
variable {x : Who} {w : BitVec 56} {s : State} {gr : Group}

theorem cvt_issues
    (hi : Issues s x gr false (elemSpan (cDF w.toNat) (cVR w.toNat) ++ elemSpan (cSF w.toNat) (cVS w.toNat) ++ keyRegs w.toNat))
    (hlerr : s.m.lerr = []) (hok : convOk x.strm w.toNat false = true) (hub : cUB w.toNat = 0)
    (hpair : cvtPair (cSF w.toNat) (cDF w.toNat) = true) (hd : elemReg (s.rpl x) (cDF w.toNat) (cVR w.toNat) = true)
    (hs : elemReg (s.rpl x) (cSF w.toNat) (cVS w.toNat) = true) :
    exec (.cvt x w) s = .next (((s.fetched x gr.pc).retire x).castToReg x (cDF w.toNat) (cVR w.toNat) (slotOf x.strm (cSlot w.toNat))
      (gr.onLanes (mkOf w.toNat)) (s.castLanes gr x.core (slotOf x.strm (cSlot w.toNat)) (cUK w.toNat) (cDF w.toNat)
        (gr.onLanes (mkOf w.toNat)) fun l => ((gr.elemOf (cSF w.toNat) (cVS w.toNat) l).1,
          (gr.elemOf (cSF w.toNat) (cVS w.toNat) l).2 || (gr.keyP (cUK w.toNat) || gr.maskP (mkOf w.toNat))))) := by
  rw [← (castReads_issued hi.here hlerr).castLanes]
  exact congrArg Host.Outcome.next (presentReg_issues hi (need_of (by simp [hok, hub, hpair, hd, hs])))

theorem castl_issues (hi : Issues s x gr false (elemSpan (cDF w.toNat) (cVR w.toNat) ++ [256 + cUB w.toNat] ++ keyRegs w.toNat))
    (hlerr : s.m.lerr = []) (hok : convOk x.strm w.toNat false = true) (hvs : cVS w.toNat = 0)
    (hpair : castlPair (cSF w.toNat) (cDF w.toNat) = true) (hd : elemReg (s.rpl x) (cDF w.toNat) (cVR w.toNat) = true)
    (halign : descM (gr.unif (cUB w.toNat)) % 4 = 0)
    (hmap : s.elemsBad x (cSF w.toNat) (gr.unif (cUB w.toNat)) (gr.onLanes (mkOf w.toNat)) = none)
    (hcalm : (s.core x.core).calm = true) :
    exec (.castl x w) s = .next (((s.fetched x gr.pc).retire x).castToReg x (cDF w.toNat) (cVR w.toNat) (slotOf x.strm (cSlot w.toNat))
      (gr.onLanes (mkOf w.toNat)) (s.castLanes gr x.core (slotOf x.strm (cSlot w.toNat)) (cUK w.toNat) (cDF w.toNat)
        (gr.onLanes (mkOf w.toNat)) fun l =>
          ((s.pairElem x.core (cSF w.toNat) (gr.unif (cUB w.toNat)) l).1,
            (s.pairElem x.core (cSF w.toNat) (gr.unif (cUB w.toNat)) l).2
              || (gr.keyP (cUK w.toNat) || gr.maskP (mkOf w.toNat) || gr.unifP (cUB w.toNat))))) := by
  have hu := castReads_issued hi.here hlerr
  refine congrArg Host.Outcome.next ((presentReg_issues hi ?_).trans ?_)
  · simp [hok, hvs, hpair, hd, halign, hmap]
  · generalize (s.fetched x gr.pc).retire x = u at hu ⊢
    have hucalm := hu.calm.trans hcalm
    have hstate (c b : Nat) (d : Word64) (on : List Nat) : (u.getDesc x.core c d b on).2 = u := by rw [State.getDesc_calm hucalm]
    simp only [State.elemScrub_sound hu.lerr, hstate]
    rw [← hu.castLanes]
    refine congrArg (u.castToReg x _ _ _ _) (State.castLanes_congr u gr _ _ _ _ fun l hl => ?_)
    have hblock : (if l < 32 then (u.getDesc x.core (cSF w.toNat) (gr.unif (cUB w.toNat)) 0 (gr.onLanes (mkOf w.toNat))).1
        else (u.getDesc x.core (cSF w.toNat) (gr.unif (cUB w.toNat)) 1 (gr.onLanes (mkOf w.toNat))).1)
        = s.blockAt x.core (cSF w.toNat) (gr.unif (cUB w.toNat)) (l / 32) := by
      have hdesc := (State.getDesc_block hucalm (cSF w.toNat) (gr.unif (cUB w.toNat)) hl).trans (hu.blockAt ..)
      have hlt := (mem_onLanes.1 hl).1
      split
      · rwa [show l / 32 = 0 by omega] at hdesc ⊢
      · rwa [show l / 32 = 1 by omega] at hdesc ⊢
    rw [hblock, hu.elemP, State.pairElem]

/-- What a cast to a register leaves, in the words of O16. -/
theorem castToReg_writes (hg : s.group x = some gr) (hlerr : s.m.lerr = []) {df vr sl k : Nat}
    {r : List (Nat × Nat × Bool) × CastCount} (hlen : r.1.length = (gr.onLanes k).length) :
    let t := ((s.fetched x gr.pc).retire x).castToReg x df vr sl (gr.onLanes k) r
    ∃ gr', t.group x = some gr' ∧ Advanced gr gr' ∧ gr'.u = gr.u ∧ gr'.k = gr.k ∧ t.mem = s.mem
      ∧ (∀ y, y ≠ x → t.group y = s.group y)
      ∧ (∀ i, i < (gr.onLanes k).length → gr'.elemBits df vr ((gr.onLanes k).getD i 0)
            = (r.1.getD i (0, 0, false)).2.1 % 2 ^ (if df = 0x14 then 80 else 32))
      ∧ (∀ v l, l < 64 → ¬(v ∈ elemSpan df vr ∧ gr.on k l = true) → gr'.lane v l = gr.lane v l)
      ∧ SlotCounted s t x.core sl r.2 := by
  intro t
  have hb := (s.fetched_group x x gr.pc).trans hg
  have ht : RetiredReg x _ _ _ (s.fetched x gr.pc) t := castToReg_retired hb (gr.onLanes k)
  have hlanes := gr.advance.putElems_lanesOnly df vr ((gr.onLanes k).zip r.1)
  have hread (q : Reg) (h1 : q ∉ homeRegs) : (s.fetched x gr.pc).rn q x.core sl = s.rn q x.core sl :=
    congrArg BitVec.toNat (s.fetched_rd x gr.pc h1 ..)
  obtain ⟨ho, hf, hn⟩ : SlotCounted (s.fetched x gr.pc) t x.core sl r.2 := castToReg_counted hb (gr.onLanes k)
  refine ⟨_, ht.group, ?_, ?_, ?_, ?_, fun y hy => (ht.peers y hy).trans (s.fetched_group ..), fun i hi => castToReg_elems _ hlen hi,
    fun v l hl h => castToReg_others gr.advance hl h, ?_⟩
  · rw [hlanes]
    rfl
  · rw [hlanes]
    rfl
  · rw [hlanes]
    rfl
  · exact ht.mem.trans (by rw [State.fetched_sound hlerr, State.poisEvent_mem])
  · rw [hread .RCOVF (by decide)] at ho
    rw [hread .RCFLU (by decide)] at hf
    rw [hread .RCNF (by decide)] at hn
    exact ⟨ho, hf, hn⟩

end

/-- Settles O16: CVT and CASTL differ in where an element comes from, and write the cast of each in the same way. -/
theorem registerCasts : Obligations.RegisterCasts := by
  unfold Obligations.RegisterCasts
  intro x w s gr c elem regs n df vr sl d on hc hi hok hd hlerr key kp r
  have hsl : slotOf x.strm (cSlot n) = sl := slotOf_eq ..
  have hr : r = s.castLanes gr x.core sl (cUK n) df on fun l => ((elem l).1, (elem l).2 || kp) := rfl
  have hlen : r.1.length = on.length := (castScalars_length ..).trans (List.length_map ..)
  have hexec : exec (c x w) s = .next (((s.fetched x gr.pc).retire x).castToReg x df vr sl on r) := by
    rcases hc with ⟨rfl, hub, hpair, hs, rfl, rfl⟩ | ⟨rfl, hvs, hpair, halign, hmap, hcalm, rfl, rfl⟩
    · rw [← hsl] at hr ⊢
      exact hr ▸ cvt_issues hi hlerr hok hub hpair hd hs
    · refine (castl_issues hi hlerr hok hvs hpair hd halign hmap hcalm).trans ?_
      rw [hr, hsl]
      refine congrArg (fun e => Host.Outcome.next (((s.fetched x gr.pc).retire x).castToReg x df vr sl on e))
        (State.castLanes_congr s gr _ _ _ _ fun l _ => Prod.ext rfl ?_)
      simp only [kp, Bool.or_assoc, Bool.or_comm]
      rfl
  exact ⟨_, (castToReg_writes hi.here hlerr hlen).imp fun gr' h => ⟨hexec, h⟩⟩

end Sys2Proof.Machine
end

section
/-! PROOF. Casts to blocks in local store (R48, R184, R186): O17. -/

set_option Elab.async false

namespace Sys2Proof.Machine

/-! ### Numbers in bytes (R18, R48) -/

theorem leNat_leBytes (n v : Nat) : leNat (leBytes n v) = v % 256 ^ n := by
  induction n generalizing v with
  | zero => simp [leBytes, leNat, Nat.mod_one]
  | succ n ih =>
    have hbyte : (BitVec.ofNat 8 v).toNat = v % 256 := BitVec.toNat_ofNat ..
    rw [leBytes, leNat, ih, hbyte, pow_succ', Nat.mod_mul]

/-- A number whose bytes stand in memory is read back. -/
theorem State.le_of_bytes {s : State} {a n v : Nat} (h : ∀ i, i < n → s.byte (a + i) = (leBytes n v).getD i 0) (hv : v < 256 ^ n) :
    s.le a n = v := by
  have hb : s.bytes a n = leBytes n v := by
    refine List.ext_getElem (by simp [State.bytes]) fun i h1 h2 => ?_
    have hi : i < n := by simpa using h2
    simpa [State.bytes, List.getElem?_eq_getElem h2] using h i hi
  rw [State.le, hb, leNat_leBytes, Nat.mod_eq_of_lt hv]

theorem wrap_lt (w : Nat) (v : Int) : wrap w v < 2 ^ w := by
  have h1 : (0 : Int) < ((2 ^ w : Nat) : Int) := by positivity
  have h2 := Int.emod_lt_of_pos v h1
  have h3 := Int.emod_nonneg v h1.ne'
  unfold wrap
  omega

theorem packMants_lt (m : Nat) (ms : List Int) : packMants m ms < 2 ^ (m * ms.length) := by
  induction ms with
  | nil => simp [packMants]
  | cons q ms ih =>
    have hq := wrap_lt m q
    calc packMants m (q :: ms) = packMants m ms * 2 ^ m + wrap m q := rfl
      _ < (packMants m ms + 1) * 2 ^ m := by
        rw [Nat.add_one_mul]
        exact Nat.add_lt_add_left hq _
      _ ≤ 2 ^ (m * ms.length) * 2 ^ m := Nat.mul_le_mul_right _ ih
      _ = 2 ^ (m * (q :: ms).length) := by rw [← Nat.pow_add, List.length_cons, Nat.mul_succ]

/-- Thirty-two mantissas of `m` bits fill `4 m` bytes. -/
theorem packMants_lt_bytes (m : Nat) {ms : List Int} (h : ms.length = 32) : packMants m ms < 256 ^ (4 * m) := by
  have hp := packMants_lt m ms
  rwa [h, show m * 32 = 8 * (4 * m) by omega, Nat.pow_mul] at hp

/-! ### Writing a block -/

/-- From `s` to `t` only a slot's counts, bytes and their poison have changed. -/
structure BlockWrote (s t : State) : Prop where
  only : t = { s with regs := t.regs, mem := t.mem, pois := t.pois }
  frame : ∀ d k, ¬keysOf rcRegs k → Sparse.get d t.regs k = Sparse.get d s.regs k

section
variable {s t : State}

theorem BlockWrote.refl (s : State) : BlockWrote s s := ⟨rfl, fun _ _ _ => rfl⟩

theorem BlockWrote.trans {u : State} (h : BlockWrote s t) (h' : BlockWrote t u) : BlockWrote s u :=
  ⟨h'.only.trans (congrArg (fun v : State => { v with regs := u.regs, mem := u.mem, pois := u.pois }) h.only),
    fun d k hk => (h'.frame d k hk).trans (h.frame d k hk)⟩

theorem BlockWrote.lerr (h : BlockWrote s t) : t.m.lerr = s.m.lerr := by rw [h.only]
theorem BlockWrote.cores (h : BlockWrote s t) : t.cores = s.cores := by rw [h.only]

theorem BlockWrote.modes (h : BlockWrote s t) (g sl : Nat) : t.modes g sl = s.modes g sl :=
  congrArg (fun v : Word64 => castCfg v.toNat) (h.frame _ _ (not_keysOf (by decide) _ _))

theorem BlockWrote.of_wroteRegs (h : WroteRegs (keysOf rcRegs) s t) : BlockWrote s t := by
  refine ⟨h.only.trans ?_, h.frame⟩
  rw [h.only]

end

/-- Where no error is latent, a write to local store changes its bytes and their poison (R195). -/
theorem State.lsWrite_sound {s : State} (h : s.m.lerr = []) (a : Nat) (mask : List Bool) (bs : List Byte) (p : Bool) :
    s.lsWrite a mask bs p = { s.put a mask bs with pois := (s.lsWrite a mask bs p).pois } := by
  unfold State.lsWrite
  simp only [h, if_true]
  cases p <;> rfl

theorem State.lsWrite_byte {s : State} (h : s.m.lerr = []) (a : Nat) (bs : List Byte) (p : Bool) (o : Nat) :
    (s.lsWrite a [] bs p).byte o = if a ≤ o ∧ o < a + bs.length then bs.getD (o - a) 0 else s.byte o := by
  rw [State.lsWrite_sound h]
  exact (get_putBytes s.mem a [] bs o).trans (by simp [State.byte])

theorem State.lsWrite_wrote {s : State} (h : s.m.lerr = []) (a : Nat) (bs : List Byte) (p : Bool) :
    BlockWrote s (s.lsWrite a [] bs p) := by
  rw [State.lsWrite_sound h]
  exact ⟨rfl, fun _ _ _ => rfl⟩

section
variable {u : State} (h : u.m.lerr = []) (g m : Nat) (d : Word64) (b scale field : Nat) (p : Bool)
include h

theorem State.putDesc_wrote : BlockWrote u (u.putDesc g m d b scale field p) :=
  have h1 := State.lsWrite_wrote h (lsAt g (descM d + b * 4 * m)) (leBytes (4 * m) field) p
  h1.trans (State.lsWrite_wrote (h1.lerr.trans h) (lsAt g (descS d + b)) [BitVec.ofNat 8 scale] p)

/-- A block is written at its place: the scale byte, then (where it does not lie) the mantissa field. -/
theorem State.putDesc_byte (o : Nat) : (u.putDesc g m d b scale field p).byte o
    = if o = lsAt g (descS d + b) then BitVec.ofNat 8 scale
      else if lsAt g (descM d + b * 4 * m) ≤ o ∧ o < lsAt g (descM d + b * 4 * m) + 4 * m
        then (leBytes (4 * m) field).getD (o - lsAt g (descM d + b * 4 * m)) 0 else u.byte o := by
  have h1 := State.lsWrite_wrote h (lsAt g (descM d + b * 4 * m)) (leBytes (4 * m) field) p
  refine (State.lsWrite_byte (h1.lerr.trans h) (lsAt g (descS d + b)) [BitVec.ofNat 8 scale] p o).trans ?_
  by_cases ho : o = lsAt g (descS d + b)
  · simp [ho]
  · rw [if_neg ho, if_neg (by simp only [List.length_singleton]; omega), State.lsWrite_byte h, leBytes_length]

end

/-- A cast writes its block and counts in its slot. -/
theorem State.castBlock_wrote {u : State} (h : u.m.lerr = []) (g sl m : Nat) (key : CastKey) (d : Word64) (b : Nat)
    (xs : List (Val × Bool)) : BlockWrote u (u.castBlock g sl m key d b xs) :=
  have h1 := BlockWrote.of_wroteRegs (State.countCast_wrote u g sl _)
  h1.trans (State.putDesc_wrote (h1.lerr.trans h) ..)

/-! ### The blocks of a descriptor's pair -/

/-- The blocks of a pair, cast one after another. -/
def State.castBlocks (s : State) (g sl m : Nat) (key : CastKey) (d : Word64) (xs : Nat → List (Val × Bool)) (n : Nat) : State :=
  (List.range n).foldl (fun s b => s.castBlock g sl m key d b (xs b)) s

/-- What block `b` is cast to. -/
def State.blockOut (s : State) (g sl m : Nat) (key : CastKey) (xs : Nat → List (Val × Bool)) (b : Nat) : CastBlock :=
  castToBs m (s.modes g sl) key (key.2.2.2 + 32 * b) (xs b)

theorem State.castBlocks_succ (s : State) (g sl m : Nat) (key : CastKey) (d : Word64) (xs : Nat → List (Val × Bool)) (n : Nat) :
    s.castBlocks g sl m key d xs (n + 1) = (s.castBlocks g sl m key d xs n).castBlock g sl m key d n (xs n) := by
  rw [State.castBlocks, List.range_succ, List.foldl_append]
  rfl

section
variable {u : State} (h : u.m.lerr = []) (g sl m : Nat) (key : CastKey) (d : Word64) (xs : Nat → List (Val × Bool))
include h

theorem State.castBlocks_wrote (n : Nat) : BlockWrote u (u.castBlocks g sl m key d xs n) := by
  induction n with
  | zero => exact BlockWrote.refl u
  | succ n ih =>
    rw [State.castBlocks_succ]
    exact ih.trans (State.castBlock_wrote (ih.lerr.trans h) ..)

/-- A byte after one more block. -/
theorem State.castBlocks_byte (n o : Nat) : (u.castBlocks g sl m key d xs (n + 1)).byte o
    = if o = lsAt g (descS d + n) then BitVec.ofNat 8 (u.blockOut g sl m key xs n).1
      else if lsAt g (descM d + n * 4 * m) ≤ o ∧ o < lsAt g (descM d + n * 4 * m) + 4 * m
        then (leBytes (4 * m) (packMants m (u.blockOut g sl m key xs n).2.1)).getD (o - lsAt g (descM d + n * 4 * m)) 0
      else (u.castBlocks g sl m key d xs n).byte o := by
  have hw := State.castBlocks_wrote h g sl m key d xs n
  have hc := BlockWrote.of_wroteRegs
    (State.countCast_wrote (u.castBlocks g sl m key d xs n) g sl (u.blockOut g sl m key xs n).2.2.2)
  have hout : castToBs m ((u.castBlocks g sl m key d xs n).modes g sl) key (key.2.2.2 + 32 * n) (xs n)
      = u.blockOut g sl m key xs n := by rw [hw.modes, State.blockOut]
  rw [State.castBlocks_succ, State.castBlock, hout]
  refine (State.putDesc_byte (hc.lerr.trans (hw.lerr.trans h)) ..).trans ?_
  rw [State.byte, (State.countCast_wrote _ _ _ _).mem, ← State.byte]

/-- A byte of no block's place is as before. -/
theorem State.castBlocks_byte_other {n o : Nat}
    (hm : ∀ b, b < n → o < lsAt g (descM d + b * 4 * m) ∨ lsAt g (descM d + b * 4 * m) + 4 * m ≤ o)
    (hs : ∀ b, b < n → o ≠ lsAt g (descS d + b)) : (u.castBlocks g sl m key d xs n).byte o = u.byte o := by
  induction n with
  | zero => rfl
  | succ n ih =>
    have h1 := hm n (Nat.lt_succ_self n)
    rw [State.castBlocks_byte h, if_neg (hs n (Nat.lt_succ_self n)), if_neg (by omega)]
    exact ih (fun b hb => hm b (Nat.lt_succ_of_lt hb)) fun b hb => hs b (Nat.lt_succ_of_lt hb)

/-- Each block stands at its place once all are written, if no scale byte lies among the mantissa fields. -/
theorem State.castBlocks_at {k n : Nat} (hsep : ∀ i, i < k → descS d + i < descM d ∨ descM d + k * 4 * m ≤ descS d + i)
    (hn : n ≤ k) {b : Nat} (hb : b < n) :
    (u.castBlocks g sl m key d xs n).byte (lsAt g (descS d + b)) = BitVec.ofNat 8 (u.blockOut g sl m key xs b).1
    ∧ ∀ i, i < 4 * m → (u.castBlocks g sl m key d xs n).byte (lsAt g (descM d + b * 4 * m) + i)
        = (leBytes (4 * m) (packMants m (u.blockOut g sl m key xs b).2.1)).getD i 0 := by
  have hfield {c : Nat} (hc : c < k) : c * 4 * m + 4 * m ≤ k * 4 * m := by
    calc c * 4 * m + 4 * m = (c + 1) * 4 * m := by ring
      _ ≤ k * 4 * m := Nat.mul_le_mul_right _ (Nat.mul_le_mul_right _ hc)
  have hscale {c e i : Nat} (hc : c < k) (he : e < k) (hi : i < 4 * m) : lsAt g (descM d + c * 4 * m) + i ≠ lsAt g (descS d + e) := by
    have h1 := hfield hc
    have h2 := hsep e he
    unfold lsAt
    omega
  induction n with
  | zero => omega
  | succ n ih =>
    by_cases hbn : b = n
    · subst hbn
      refine ⟨by rw [State.castBlocks_byte h, if_pos rfl], fun i hi => ?_⟩
      rw [State.castBlocks_byte h, if_neg (hscale hn hn hi), if_pos (by omega), Nat.add_sub_cancel_left]
    · have hlt : b < n := by omega
      obtain ⟨ih1, ih2⟩ := ih (by omega) hlt
      have hfar : (b + 1) * 4 * m ≤ n * 4 * m := Nat.mul_le_mul_right _ (Nat.mul_le_mul_right _ hlt)
      have hnear : (b + 1) * 4 * m = b * 4 * m + 4 * m := by ring
      constructor
      · have h1 := hsep b (by omega)
        have h2 := hfield hn
        rw [State.castBlocks_byte h, if_neg (by unfold lsAt; omega), if_neg (by unfold lsAt; omega), ih1]
      · intro i hi
        rw [State.castBlocks_byte h, if_neg (hscale (by omega) hn hi), if_neg (by unfold lsAt; omega), ih2 i hi]

end

/-! ### The effect of CASTS and CASTM -/

/-- From the state its issue leaves, a cast to a block pair writes the blocks, marks them as on their way, and sends the notice of a
poisoned input. -/
def State.castToPair (s : State) (x : Who) (sl m : Nat) (key : CastKey) (d : Word64) (xs : Nat → List (Val × Bool)) (k f : Nat)
    (p : Bool) : State :=
  ((s.castBlocks x.core sl m key d xs k).freshen x.core m d k).poisEvent f p

theorem State.group_freshen (s : State) (g m : Nat) (d : Word64) (k : Nat) (y : Who) : (s.freshen g m d k).group y = s.group y := by
  unfold State.group State.freshen
  by_cases hy : y.core = g
  · subst hy
    rw [State.core_modCore_same]
    rfl
  · rw [State.core_modCore_other _ _ hy]

section
variable {x : Who} {s : State} {gr : Group}

/-- What a cast to a block pair leaves, in the words of O17. -/
theorem castToPair_writes (hg : s.group x = some gr) (hlerr : s.m.lerr = []) {sl m k f : Nat} {key : CastKey} {d : Word64}
    {xs : Nat → List (Val × Bool)} {p : Bool} (hxs : ∀ b, (xs b).length = 32)
    (hsep : ∀ i, i < k → descS d + i < descM d ∨ descM d + k * 4 * m ≤ descS d + i) :
    let t := ((s.fetched x gr.pc).retire x).castToPair x sl m key d xs k f p
    ∃ gr', t.group x = some gr' ∧ Advanced gr gr' ∧ gr'.u = gr.u ∧ gr'.k = gr.k ∧ gr'.v = gr.v
      ∧ (∀ b, b < k → t.le (lsAt x.core (descM d + b * 4 * m)) (4 * m) = packMants m (s.blockOut x.core sl m key xs b).2.1
          ∧ (t.byte (lsAt x.core (descS d + b))).toNat = (s.blockOut x.core sl m key xs b).1)
      ∧ (∀ o, (o < lsAt x.core (descM d) ∨ lsAt x.core (descM d) + k * 4 * m ≤ o) →
          (∀ b, b < k → o ≠ lsAt x.core (descS d + b)) → t.byte o = s.byte o)
      ∧ (t.core x.core).fresh = (s.core x.core).fresh ++ [(descM d, k * 4 * m), (descS d, k)]
      ∧ (∀ y, y ≠ x → t.group y = s.group y) ∧ ∀ h, h ≠ x.core → t.core h = s.core h := by
  intro t
  have hu := castReads_issued hg hlerr
  have hr := retired_retire ((s.fetched_group x x gr.pc).trans hg)
  have hw := State.castBlocks_wrote hu.lerr x.core sl m key d xs k
  have hmem : t.mem = (((s.fetched x gr.pc).retire x).castBlocks x.core sl m key d xs k).mem := State.poisEvent_mem ..
  have hbyte (o : Nat) : t.byte o = (((s.fetched x gr.pc).retire x).castBlocks x.core sl m key d xs k).byte o :=
    congrArg (Sparse.get 0 · o) hmem
  have hcore (h : Nat) : t.core h
      = ((((s.fetched x gr.pc).retire x).castBlocks x.core sl m key d xs k).freshen x.core m d k).core h :=
    State.core_of_cores (State.poisEvent_cores ..) h
  have hgroup (y : Who) : t.group y = ((s.fetched x gr.pc).retire x).group y :=
    (State.group_of_cores (State.poisEvent_cores ..) y).trans ((State.group_freshen ..).trans (State.group_of_cores hw.cores y))
  have hout (b : Nat) : ((s.fetched x gr.pc).retire x).blockOut x.core sl m key xs b = s.blockOut x.core sl m key xs b := by
    rw [State.blockOut, State.blockOut, hu.modes]
  refine ⟨gr.advance, (hgroup x).trans hr.group, rfl, rfl, rfl, rfl, fun b hb => ?_, fun o ho hos => ?_, ?_,
    fun y hy => (hgroup y).trans ((hr.peers y hy).trans (s.fetched_group ..)), fun h hh => ?_⟩
  · obtain ⟨hscale, hfield⟩ := State.castBlocks_at hu.lerr x.core sl m key d xs hsep le_rfl hb
    rw [hout] at hscale hfield
    constructor
    · exact State.le_of_bytes (fun i hi => (hbyte _).trans (hfield i hi))
        (packMants_lt_bytes m (castToBs_length _ _ _ _ (hxs b)))
    · rw [hbyte, hscale, BitVec.toNat_ofNat]
      exact Nat.mod_eq_of_lt (castToBs_scale_lt ..)
  · rw [hbyte, State.castBlocks_byte_other hu.lerr x.core sl m key d xs (fun b hb => ?_) hos, hu.byte]
    have h1 : (b + 1) * 4 * m ≤ k * 4 * m := Nat.mul_le_mul_right _ (Nat.mul_le_mul_right _ hb)
    have h2 : (b + 1) * 4 * m = b * 4 * m + 4 * m := by ring
    unfold lsAt at ho ⊢
    omega
  · rw [hcore, State.freshen, State.core_modCore_same, State.core_of_cores hw.cores, hr.core, State.core_of_cores (s.fetched_cores ..)]
  · rw [hcore, State.freshen, State.core_modCore_other _ _ hh, State.core_of_cores hw.cores, hr.others h hh,
      State.core_of_cores (s.fetched_cores ..)]

end

/-! ### Sources of a block cast -/

/-- What a lane enters a block cast as: its element, or +0 where the mask is off (R132); `kp` is the poison of the key, the mask and
the descriptors. -/
def maskedIn (gr : Group) (k : Nat) (elem : Nat → Val × Bool) (kp : Bool) (l : Nat) : Val × Bool :=
  if gr.on k l then ((elem l).1, (elem l).2 || kp) else (.fin false 0 0, kp)

/-- The inputs of block `b`, of which `elem` gives each lane's. -/
def blockIn (elem : Nat → Val × Bool) (b : Nat) : List (Val × Bool) := (List.range 32).map fun i => elem (32 * b + i)

theorem castBlocks_congr (s : State) (g sl m : Nat) (key : CastKey) (d : Word64) {xs xs' : Nat → List (Val × Bool)} {k : Nat}
    (h : ∀ b, b < k → xs b = xs' b) : s.castBlocks g sl m key d xs k = s.castBlocks g sl m key d xs' k :=
  List.foldl_ext _ _ _ fun _ b hb => by rw [h b (List.mem_range.1 hb)]

theorem castToPair_congr (s : State) (x : Who) (sl m : Nat) (key : CastKey) (d : Word64) {xs xs' : Nat → List (Val × Bool)}
    {k : Nat} (f : Nat) (p : Bool) (h : ∀ b, b < k → xs b = xs' b) :
    s.castToPair x sl m key d xs k f p = s.castToPair x sl m key d xs' k f p := by
  rw [State.castToPair, State.castToPair, castBlocks_congr _ _ _ _ _ _ h]

/-- The blocks of a descriptor's pair, read one after another with no output on its way. -/
theorem getDescs_calm {u : State} {g : Nat} (h : (u.core g).calm = true) (c : Nat) (a : Word64) (on : List Nat) (bs : List Nat)
    (acc : List (Nat × Nat)) :
    bs.foldl (fun (p : List (Nat × Nat) × State) b => (p.1 ++ [(p.2.getDesc g c a b on).1], (p.2.getDesc g c a b on).2)) (acc, u)
      = (acc ++ bs.map fun b => (u.getDesc g c a b on).1, u) := by
  induction bs generalizing acc with
  | nil => simp
  | cons b bs ih =>
    have hstate : (u.getDesc g c a b on).2 = u := by rw [State.getDesc_calm h]
    rw [List.foldl_cons, hstate, ih]
    simp

/-- What CASTM casts in a lane is the element of its source pair, where the lanes `on` are those it reads. -/
theorem castm_input {x : Who} {s u : State} (hu : CastReads x s u) (hcalm : (s.core x.core).calm = true) (gr : Group) (c mk : Nat)
    (a : Word64) (kp : Bool) {k b i : Nat} (hk : k ≤ 2) (hb : b < k) (hi : i < 32) :
    (if gr.on mk (32 * b + i) = true then
        (blockVal c (u.getDesc x.core c a b ((gr.onLanes mk).filter (· < 32 * k))).1.1
            (u.getDesc x.core c a b ((gr.onLanes mk).filter (· < 32 * k))).1.2 i,
          (gr.on mk (32 * b + i) && u.elemP x.core c a b i) || kp)
      else (.fin false 0 0, kp))
      = maskedIn gr mk (s.pairElem x.core c a) kp (32 * b + i) := by
  unfold maskedIn
  split
  · next hon =>
    have hl : 32 * b + i ∈ (gr.onLanes mk).filter (· < 32 * k) := by
      simp only [List.mem_filter, mem_onLanes, decide_eq_true_eq]
      exact ⟨⟨by omega, hon⟩, by omega⟩
    have hdiv : (32 * b + i) / 32 = b := by omega
    have hmod : (32 * b + i) % 32 = i := by omega
    have hdesc := State.getDesc_block (hu.calm.trans hcalm) c a hl
    rw [hdiv, hu.blockAt] at hdesc
    rw [hdesc, hon, hu.elemP, State.pairElem, hdiv, hmod, Bool.true_and]
  · rfl

/-! ### O17 -/

section
variable {x : Who} {w : BitVec 56} {s : State} {gr : Group} (hlerr : s.m.lerr = []) (hok : convOk x.strm w.toNat true = true)
  (hvs : cVS w.toNat = 0) (halign : descM (gr.unif (cUB w.toNat)) % 4 = 0) {k : Nat} (hk : k = if bit w.toNat 10 = 1 then 1 else 2)
  (hmap : s.blocksOk x (cDF w.toNat) (gr.unif (cUB w.toNat)) k = true)
include hlerr hok hvs halign hk hmap

theorem casts_issues (hi : Issues s x gr false (elemSpan (cSF w.toNat) (cVR w.toNat) ++ [256 + cUB w.toNat] ++ keyRegs w.toNat))
    (hpair : castsPair (cSF w.toNat) (cDF w.toNat) = true) (hreg : elemReg (s.rpl x) (cSF w.toNat) (cVR w.toNat) = true) :
    ∃ f p, exec (.casts x w) s = .next (((s.fetched x gr.pc).retire x).castToPair x (slotOf x.strm (cSlot w.toNat)) (cDF w.toNat)
      (s.castKey gr x.core (slotOf x.strm (cSlot w.toNat)) (cUK w.toNat)) (gr.unif (cUB w.toNat))
      (blockIn (maskedIn gr (mkOf w.toNat) (gr.elemOf (cSF w.toNat) (cVR w.toNat))
        (gr.keyP (cUK w.toNat) || gr.maskP (mkOf w.toNat) || gr.unifP (cUB w.toNat)))) k f p) := by
  subst hk
  have hexec : exec (.casts x w) s = _ := congrArg Host.Outcome.next (presentReg_issues hi (by simp [hok, hvs, hpair, hreg, halign, hmap]))
  rw [← (castReads_issued hi.here hlerr).key]
  refine ⟨_, _, hexec.trans (congrArg Host.Outcome.next (castToPair_congr _ _ _ _ _ _ _ _ fun b _ =>
    List.map_congr_left fun i _ => ?_))⟩
  dsimp only [maskedIn]
  split <;> rfl

theorem castm_issues (hi : Issues s x gr false ([256 + cVR w.toNat % 32, 256 + cUB w.toNat] ++ keyRegs w.toNat))
    (hvr : cVR w.toNat < 32) (hpair : castmPair (cSF w.toNat) (cDF w.toNat) = true) (hdf : ¬cDF w.toNat = 0x15)
    (hsf : ¬(cSF w.toNat = 0x15 ∧ cDF w.toNat = 8)) (hsrc : descM (gr.unif (cVR w.toNat % 32)) % 4 = 0)
    (hread : s.elemsBad x (cSF w.toNat) (gr.unif (cVR w.toNat % 32)) ((gr.onLanes (mkOf w.toNat)).filter (· < 32 * k)) = none)
    (hcalm : (s.core x.core).calm = true) :
    ∃ f p, exec (.castm x w) s = .next (((s.fetched x gr.pc).retire x).castToPair x (slotOf x.strm (cSlot w.toNat)) (cDF w.toNat)
      (s.castKey gr x.core (slotOf x.strm (cSlot w.toNat)) (cUK w.toNat)) (gr.unif (cUB w.toNat))
      (blockIn (maskedIn gr (mkOf w.toNat) (s.pairElem x.core (cSF w.toNat) (gr.unif (cVR w.toNat % 32)))
        (gr.keyP (cUK w.toNat) || gr.maskP (mkOf w.toNat) || gr.unifP (cUB w.toNat) || gr.unifP (cVR w.toNat % 32)))) k f p) := by
  have hk2 : k ≤ 2 := by rw [hk]; split <;> decide
  have hcopy : (decide (cSF w.toNat = 0x15) && decide (cDF w.toNat = 8) || decide (cSF w.toNat = 8) && decide (cDF w.toNat = 0x15))
      = false := by
    simpa [hdf] using hsf
  have hexec : exec (.castm x w) s = _ := congrArg Host.Outcome.next (presentReg_issues hi (by
    refine (if_neg (by simp [hok, hvs, hvr, hpair, hsrc, halign])).trans ?_
    rw [← hk, hread]
    exact if_pos hmap))
  have hu := castReads_issued hi.here hlerr
  rw [← hu.key]
  generalize (s.fetched x gr.pc).retire x = u at hu hexec ⊢
  simp only [← hk, State.elemScrub_sound hu.lerr, getDescs_calm (hu.calm.trans hcalm), hcopy, List.nil_append] at hexec
  refine ⟨_, _, hexec.trans (congrArg Host.Outcome.next (castToPair_congr _ _ _ _ _ _ _ _ fun b hb =>
    List.map_congr_left fun i hi => ?_))⟩
  refine Eq.trans ?_ (castm_input hu hcalm gr (cSF w.toNat) (mkOf w.toNat) _ _ hk2 hb (List.mem_range.1 hi))
  simp [hb]

end

/-- Settles O17: CASTS and CASTM differ in where a lane's input comes from, and write the cast blocks in the same way. -/
theorem blockCasts : Obligations.BlockCasts := by
  unfold Obligations.BlockCasts
  intro x w s gr c elem regs n m sf vr sl d a k on kp hc hi hok hvs halign hmap hlerr hsep key blk
  have hsl : slotOf x.strm (cSlot n) = sl := slotOf_eq ..
  have hk : k = if bit n 10 = 1 then 1 else 2 := rfl
  have hexec : ∃ f p, exec (c x w) s
      = .next (((s.fetched x gr.pc).retire x).castToPair x sl m (s.castKey gr x.core sl (cUK n)) d (blockIn elem) k f p) := by
    rw [← hsl]
    rcases hc with ⟨rfl, hpair, hreg, rfl, rfl⟩ | ⟨rfl, hvr, hpair, hdf, hsf, hsrc, hread, hcalm, rfl, rfl⟩
    · exact casts_issues hlerr hok hvs halign hk hmap hi hpair hreg
    · exact castm_issues hlerr hok hvs halign hk hmap hi hvr hpair hdf hsf hsrc hread hcalm
  obtain ⟨f, p, hexec⟩ := hexec
  exact ⟨_, (castToPair_writes hi.here hlerr (fun b => by simp [blockIn]) hsep).imp fun gr' h => ⟨hexec, h⟩⟩

end Sys2Proof.Machine
end

section
/-! PROOF. Issue of the matrix instructions (R82, R86, R136, R188, R189, R193): O19. -/

set_option Elab.async false

namespace Sys2Proof.Machine

/-! ### Faults of the issuing group (R133) -/

/-- The streams that work for the same flask share their place among the four. -/
theorem streamNum_eq_three (st : Stream) : decide (streamNum st = 3) = isG st := by cases st <;> rfl

/-- A stream that ran is stopped with the streams of its flask. -/
theorem Core.runs_stopAll {c : Core} {st : Stream} {guest : Bool} (hst : isG st = guest) (hr : c.runs st = true) :
    (c.stopAll guest 3).runs st = false := by
  have h0 : c.stop.getD (streamNum st) 0 = 0 := by
    simp only [Core.runs, Bool.and_eq_true, decide_eq_true_eq] at hr
    exact hr.1.1.1
  have hg : (decide (streamNum st = 3)) = guest := (streamNum_eq_three st).trans hst
  have hlt : streamNum st < (List.range 4).length := by cases st <;> decide
  have h3 : (c.stopAll guest 3).stop.getD (streamNum st) 0 = 3 := by
    rw [Core.stopAll, List.getD_eq_getElem _ _ (by simpa using hlt), List.getElem_map, List.getElem_range, h0]
    exact if_pos ⟨by decide, (streamNum_eq_three st).trans hst⟩
  rw [Core.runs, h3]
  rfl

/-- An issue that raises a fault does what R133 says, from the state that reading its word leaves. -/
theorem faulted_raise (b : State) (x : Who) (cause pc addr : Nat) :
    Faulted x cause pc (if cause = 2 then fld addr 43 0 else 0) b ((b.countIssue x).raise x cause pc addr) := by
  have hcore (g : Nat) : (b.countIssue x).core g = b.core g := by
    rw [State.countIssue_only]
    rfl
  have hsame : ((b.countIssue x).raise x cause pc addr).core x.core = (b.core x.core).stopAll (isG x.strm) 3 :=
    (State.core_modCore_same (b.countIssue x) x.core (·.stopAll (isG x.strm) 3)).trans (congrArg (·.stopAll (isG x.strm) 3) (hcore _))
  have hother {g : Nat} (hg : g ≠ x.core) : ((b.countIssue x).raise x cause pc addr).core g = b.core g :=
    (State.core_modCore_other (b.countIssue x) (·.stopAll (isG x.strm) 3) hg).trans (hcore g)
  refine ⟨?_, b.countIssue_count x, fun d k h1 h2 => b.countIssue_other x h1 h2, fun y => ?_, fun g hg => hother hg, ?_,
    fun st hst hr => ?_, ?_⟩
  · rw [State.raise, State.countIssue_only]
    rfl
  · by_cases hy : y.core = x.core
    · rw [State.group, State.group, hy, hsame]
      rfl
    · rw [State.group, State.group, hother hy]
  · rw [hsame]
    rfl
  · rw [hsame]
    exact Core.runs_stopAll hst hr
  · have hf : (b.countIssue x).flaskOf x = b.flaskOf x := by
      rw [State.flaskOf, State.flaskOf, hcore, State.guestOf_of_pat (s := b) (by rw [State.countIssue_only])]
    rw [State.raise, hf, State.countIssue_only]
    rfl

/-! ### Matrix instructions -/

theorem Core.room_iff (c : Core) (st : Stream) (port : Nat) :
    c.room st port = true ↔ (c.mq.filter fun m => m.who.strm = st && m.op.port = port).length < 4 := by
  simp [Core.room]

/-- The operands' cells depend on memory alone. -/
theorem State.operandCells_of_mem {s t : State} (h : t.mem = s.mem) (g : Nat) (o : MOp) : t.operandCells g o = s.operandCells g o := by
  rw [State.operandCells, State.operandCells, h]

/-- The queue of core `g` with one more operation. -/
def State.enqueue (s : State) (g : Nat) (q : MQ) : State := s.modCore g fun c => { c with mq := c.mq ++ [q] }

theorem State.group_enqueue (s : State) (g : Nat) (q : MQ) (y : Who) : (s.enqueue g q).group y = s.group y := by
  unfold State.group State.enqueue
  by_cases hy : y.core = g
  · subst hy
    rw [State.core_modCore_same]
    rfl
  · rw [State.core_modCore_other _ _ hy]

theorem State.enqueue_mem (s : State) (g : Nat) (q : MQ) : (s.enqueue g q).mem = s.mem := rfl

theorem State.core_enqueue (s : State) (g : Nat) (q : MQ) : (s.enqueue g q).core g = { s.core g with mq := (s.core g).mq ++ [q] } :=
  State.core_modCore_same ..

section
variable {x : Who} {s : State} {gr : Group} {ok : Nat → Bool} {port : Nat} {regs : List Nat} {dec : State → Group → MOp}
  {p : Group → Bool} {n : Nat} (hi : Issues s x gr false regs)
include hi

theorem matrix_guest (hg : isG x.strm = true) : Faulted x 1 gr.pc 0 (s.fetched x gr.pc) (matrix x ok port regs dec p n s) := by
  rw [matrix, present_faults (e := (illegal, 0)) hi.here hi.runs hi.fetch (by simp [hi.free, hg]) (by simp [hg])]
  exact faulted_raise ..

theorem matrix_full (hg : isG x.strm = false) (hroom : (s.core x.core).room x.strm port = false) :
    matrix x ok port regs dec p n s = s :=
  present_held hi (by simp [hg, hroom])

theorem matrix_enqueues (hg : isG x.strm = false) (hroom : (s.core x.core).room x.strm port = true) (hok : ok n = true)
    (hlegal : (dec s gr).legal (s.edgeWindow x.core x.strm) = true)
    (hmap : ∀ r ∈ (dec s gr).ranges, s.lsOk x.core false r.1 r.2 = true) :
    let u := (s.fetched x gr.pc).retire x
    ∃ f, matrix x ok port regs dec p n s
      = (u.enqueue x.core { who := x, pc := gr.pc, op := dec u gr, old := u.operandCells x.core (dec u gr) }).poisEvent f (p gr) := by
  have hfind : ((dec s gr).ranges.find? fun r => !(s.lsOk x.core false r.1 r.2)) = none :=
    List.find?_eq_none.2 fun r hr => by simp [hmap r hr]
  exact ⟨_, present_issues hi.here hi.runs hi.fetch (by simp [hi.free, hroom]) (by simp [hg, hok, hlegal, hfind])⟩

end

/-- The issue of an instruction leaves what the array holds in its core as it was. -/
theorem State.core_issued {x : Who} {s : State} {gr : Group} (hg : s.group x = some gr) :
    ∃ gs lq, ((s.fetched x gr.pc).retire x).core x.core = { s.core x.core with groups := gs, lastq := lq } := by
  have hc := (retired_retire ((s.fetched_group x x gr.pc).trans hg)).core
  rw [State.core_of_cores (s.fetched_cores x gr.pc)] at hc
  exact ⟨_, _, hc⟩

theorem State.mem_issued {x : Who} {s : State} {gr : Group} (hg : s.group x = some gr) :
    ((s.fetched x gr.pc).retire x).mem = s.mem := by
  rw [(retired_retire ((s.fetched_group x x gr.pc).trans hg)).only, State.fetched_only]

/-- What queueing an operation at its issue leaves: the group advanced, the queue longer, planes, edge file and memory as before. -/
theorem enqueue_issued {x : Who} {s : State} {gr : Group} (hg : s.group x = some gr) (q : MQ) (f : Nat) (p : Bool) :
    let t := (((s.fetched x gr.pc).retire x).enqueue x.core q).poisEvent f p
    t.group x = some gr.advance ∧ (t.core x.core).mq = (s.core x.core).mq ++ [q] ∧ (t.core x.core).planes = (s.core x.core).planes
      ∧ (t.core x.core).edge = (s.core x.core).edge ∧ t.mem = s.mem ∧ ∀ y, y ≠ x → t.group y = s.group y := by
  intro t
  have hr := retired_retire ((s.fetched_group x x gr.pc).trans hg)
  have hcores : t.cores = (((s.fetched x gr.pc).retire x).enqueue x.core q).cores := State.poisEvent_cores ..
  have hgroup (y : Who) : t.group y = ((s.fetched x gr.pc).retire x).group y :=
    (State.group_of_cores hcores y).trans (State.group_enqueue ..)
  obtain ⟨gs, lq, hc⟩ := State.core_issued hg
  have hcore : t.core x.core = { s.core x.core with groups := gs, lastq := lq, mq := (s.core x.core).mq ++ [q] } := by
    rw [State.core_of_cores hcores, State.core_enqueue, hc]
  exact ⟨(hgroup x).trans hr.group, by rw [hcore], by rw [hcore], by rw [hcore],
    (State.poisEvent_mem ..).trans ((State.enqueue_mem ..).trans (State.mem_issued hg)), fun y hy =>
      (hgroup y).trans ((hr.peers y hy).trans (s.fetched_group ..))⟩

/-- Settles O19: each of the three is `matrix` with its own decoding, which reads the word, the descriptors and, for MDRAIN, the slot's
registers, none of which the issue changes. -/
theorem matrixIssue : Obligations.MatrixIssue := by
  unfold Obligations.MatrixIssue
  intro x w s gr c op regs port n a k da d1 hc hi
  have hgroup := (s.fetched_group x x gr.pc).trans hi.here
  obtain ⟨ok, dec, p, hexec, hok, hdec, hdec'⟩ : ∃ ok dec p, exec (c x w) s = .next (matrix x ok port regs dec p n s) ∧ ok n = true
      ∧ dec s gr = op ∧ dec ((s.fetched x gr.pc).retire x) gr = op := by
    rcases hc with ⟨rfl, h0, rfl, rfl, rfl⟩ | ⟨rfl, h0, rfl, rfl, rfl⟩ | ⟨rfl, h0, ha, hk, rfl, rfl, rfl⟩
    · exact ⟨_, _, _, rfl, by simp [h0], rfl, rfl⟩
    · have hdec : decodeStream gr n = .stream (bit n 45) (decide (bit n 44 = 1)) (fld n 43 39) (fld n 38 31 + 1) (fld n 30 23)
          (decide (bit n 22 = 1)) (fld n 21 17) (if bit n 22 = 1 then fld (gr.unif k).toNat 19 0 else 0) (decide (bit n 16 = 1))
          (fld da 19 0) (fld da 39 20) (fld da 51 40) := by
        simp only [decodeStream, decide_eq_true_eq]
        rfl
      exact ⟨_, _, _, rfl, by simp [h0], hdec, hdec⟩
    · have hcfg := State.issued_rd hgroup (r := .RCCFG) (by decide) (by decide) (by decide) x.core (fld n 12 7)
      have htid := State.issued_rd hgroup (r := .RCTID) (by decide) (by decide) (by decide) x.core (fld n 12 7)
      refine ⟨_, _, _, rfl, by simp [h0, show fld n 55 51 ≤ 29 from ha, show fld n 50 46 ≤ 29 from hk], rfl, ?_⟩
      rw [decodeDrain, hcfg, htid]
      rfl
  refine ⟨fun hg => ⟨_, hexec, matrix_guest hi hg⟩, fun hg hfull => ?_, fun hg hroom hlegal hmap => ?_⟩
  · rw [hexec, matrix_full hi hg (Bool.eq_false_iff.2 fun h => absurd ((Core.room_iff ..).1 h) (not_lt.2 hfull))]
  · subst hdec
    obtain ⟨f, hf⟩ := matrix_enqueues (p := p) hi hg ((Core.room_iff ..).2 hroom) hok hlegal hmap
    rw [hdec', State.operandCells_of_mem (State.mem_issued hi.here)] at hf
    obtain ⟨h1, h2, h3, h4, h5, h6⟩ := enqueue_issued hi.here
      { who := x, pc := gr.pc, op := dec s gr, old := s.operandCells x.core (dec s gr) } f (p gr)
    exact ⟨_, _, hexec.trans (congrArg _ hf), h1, rfl, rfl, rfl, rfl, h2, h3, h4, h5, h6⟩

end Sys2Proof.Machine
end

section
/-! PROOF. Grants of the array's ports, and the operands they read (R112, R113, R190). -/

set_option Elab.async false

namespace Sys2Proof.Machine

/-- The only operation in the queue is granted its port, if it qualifies. -/
theorem Core.pick_single {c : Core} {q : MQ} {ready : MOp → Bool} (hz : c.zero = false) (hq : c.mq = [q])
    (hs : isG q.who.strm = false) (hr : ready q.op = true) : c.pick q.op.port ready = some q := by
  cases h : q.who.strm <;> simp [h, isG] at hs <;> simp [Core.pick, blocked, hz, hq, h, hr]

theorem unqueue_single (q : MQ) : unqueue q [q] = [] := if_pos rfl

theorem State.core_poisEvent (s : State) (f : Nat) (p : Bool) (g : Nat) : (s.poisEvent f p).core g = s.core g :=
  State.core_of_cores (s.poisEvent_cores f p) g

theorem State.core_addSat (s : State) (r : Reg) (i j w n g : Nat) : (s.addSat r i j w n).core g = s.core g := rfl

theorem State.core_addWrap (s : State) (r : Reg) (i j n g : Nat) : (s.addWrap r i j n).core g = s.core g := rfl

theorem State.core_occupy (s : State) (g port : Nat) (st : Stream) (n : Nat) :
    (s.occupy g port st n).core g = { s.core g with ports := (s.core g).ports.set port (some (st, s.fcOf g + n)) } :=
  State.core_modCore_same ..

theorem State.core_occupy_other (s : State) {g h : Nat} (hh : h ≠ g) (port : Nat) (st : Stream) (n : Nat) :
    (s.occupy g port st n).core h = s.core h := State.core_modCore_other _ _ hh

/-- An operation leaves its queue for a port, which it takes for `n` fc (R112, R113). -/
def State.granted (s : State) (g port : Nat) (q : MQ) (n : Nat) : State :=
  (s.modCore g fun c => { c with mq := unqueue q c.mq }).occupy g port q.who.strm n

theorem State.core_granted {s : State} {g : Nat} {q : MQ} (hq : (s.core g).mq = [q]) (port n : Nat) :
    ∃ ps, (s.granted g port q n).core g = { s.core g with mq := [], ports := ps } := by
  rw [State.granted, State.core_occupy, State.core_modCore_same, hq, unqueue_single]
  exact ⟨_, rfl⟩

/-- Operands that nothing has written since the issue are read as they stand. -/
theorem State.operandMem_still {s : State} {g : Nat} {q : MQ} (h : q.old = s.operandCells g q.op) : s.operandMem g q = s := by
  simp [State.operandMem, cellsDiffer, h]

theorem Core.calm_single {c : Core} {q : MQ} (hf : c.fresh = []) (hq : c.mq = [q]) (hp : q.op.port ≠ 2) : c.calm = true := by
  simp [Core.calm, hf, hq, hp]

/-- A block in core `g`'s local store, of format `c`, with its mantissa field at offset `mb` and its scale at `sb`: scale, mantissa field
and poison (R48, R184, R195). -/
def State.block (s : State) (g c mb sb : Nat) : Nat × Nat × Bool :=
  ((s.byte (lsAt g sb)).toNat, s.le (lsAt g mb) (blockBytes c),
    s.poisoned (lsAt g mb) (blockBytes c) || s.poisoned (lsAt g sb) 1)

/-- A block depends on memory and its poison alone. -/
theorem State.block_of {s t : State} (hm : t.mem = s.mem) (hp : t.pois = s.pois) (g c mb sb : Nat) :
    t.block g c mb sb = s.block g c mb sb := by
  unfold State.block State.le State.bytes State.byte State.poisoned
  rw [hm, hp]

section
variable {s : State} {g : Nat} (hl : s.m.lerr = []) (hc : (s.core g).calm = true)
include hl hc

/-- With no error latent and no output on its way, a block is read with no effect. -/
theorem State.getBlock_calm (c mb sb : Nat) :
    s.getBlock g c mb sb = ((s.block g c mb sb).1, (s.block g c mb sb).2.1, (s.block g c mb sb).2.2, s) := by
  unfold State.getBlock
  simp only [State.scrub_sound hl, State.lsBytes_calm hc]
  simp [State.block, State.bytes, leNat, State.le, lsAt]

theorem State.readBlocks_calm (c mb sb : Nat) (ks : List Nat) :
    s.readBlocks g c mb sb ks = (ks.map fun k => s.block g c (mb + k * blockBytes c) (sb + k), s) := by
  have h (acc : List (Nat × Nat × Bool)) : ks.foldl (fun (p : List (Nat × Nat × Bool) × State) k =>
      let r := p.2.getBlock g c (mb + k * blockBytes c) (sb + k)
      (p.1 ++ [(r.1, r.2.1, r.2.2.1)], r.2.2.2)) (acc, s)
        = (acc ++ ks.map fun k => s.block g c (mb + k * blockBytes c) (sb + k), s) := by
    induction ks generalizing acc with
    | nil => simp
    | cons k ks ih =>
      rw [List.foldl_cons]
      simp only [State.getBlock_calm hl hc]
      rw [ih]
      simp
  exact h []

end

end Sys2Proof.Machine
end

section
/-! PROOF. MLOAD's grant and PLANE_READY (R87, R88, R91, R112): O20. -/

set_option Elab.async false

namespace Sys2Proof.Machine

/-! ### A tile in ROW mode -/

/-- A map written entry by entry, where the entries of one key agree. -/
theorem Sparse.get_foldl_set {α β : Type} [DecidableEq α] (d : α) (key : β → Nat) (val : β → α) {l : List β} {k : Nat} {v : α}
    (h : ∀ e ∈ l, key e = k → val e = v) (m : Sparse α) :
    Sparse.get d (l.foldl (fun m e => Sparse.set d m (key e) (val e)) m) k = if k ∈ l.map key then v else Sparse.get d m k := by
  induction l generalizing m with
  | nil => rfl
  | cons e l ih =>
    rw [List.foldl_cons, ih (fun e' he' => h e' (List.mem_cons_of_mem e he'))]
    by_cases hl : k ∈ l.map key
    · rw [if_pos hl, if_pos (by rw [List.map_cons]; exact List.mem_cons_of_mem _ hl)]
    · rw [if_neg hl]
      by_cases hk : key e = k
      · rw [if_pos (by simp [hk]), ← hk, Sparse.get_set_same]
        exact h e List.mem_cons_self hk
      · rw [if_neg (by simpa [Ne.symm hk] using hl), Sparse.get_set_other _ _ _ _ (Ne.symm hk)]

/-- Half `h` of column `c` is block `2c + h`. -/
theorem activeBlock_iff {nc kb col h : Nat} (hh : h < 2) : activeBlock nc kb (2 * col + h) = true ↔ col < nc ∧ h < kb := by
  have h1 : (2 * col + h) / 2 = col := by omega
  have h2 : (2 * col + h) % 2 = h := by omega
  simp [activeBlock, h1, h2]

/-- Where an element of a block is held, by block and place in it, and the element's mantissa scaled to 16 bits (R88, R91). -/
def rowElems (m nc kb : Nat) (blk : Nat → Nat × Nat × Bool) : List (Nat × Int × Bool) :=
  ((List.range 128).filter (activeBlock nc kb)).flatMap fun b => (List.range 32).map fun i =>
    (64 * (b / 2) + 32 * (b % 2) + i, sgn m (elemRaw m (blk b).2.1 i) * 2 ^ (16 - m), false)

theorem mem_rowElems {m nc kb : Nat} {blk : Nat → Nat × Nat × Bool} {e : Nat × Int × Bool} : e ∈ rowElems m nc kb blk
    ↔ ∃ b i, b < 128 ∧ activeBlock nc kb b = true ∧ i < 32
      ∧ (64 * (b / 2) + 32 * (b % 2) + i, sgn m (elemRaw m (blk b).2.1 i) * 2 ^ (16 - m), false) = e := by
  simp [rowElems, and_assoc]

section
variable (m nc kb : Nat) (blk : Nat → Nat × Nat × Bool) (st : Stream)

theorem loadPlane_mant : (loadPlane false m nc kb blk st).1.mant
    = (rowElems m nc kb blk).foldl (fun l e => Sparse.set 0 l e.1 e.2.1) [] := by
  simp only [loadPlane, Bool.false_eq_true, if_false, rowElems]

theorem loadPlane_scale : (loadPlane false m nc kb blk st).1.scale
    = (List.range 128).foldl (fun l b => Sparse.set 0 l b (if activeBlock nc kb b then (blk b).1 else 0)) [] := by
  simp only [loadPlane, Bool.false_eq_true, if_false]

/-- An element of the tile is held at its row and column; outside the tile zero is. -/
theorem loadPlane_held {col row : Nat} (hcol : col < 64) (hrow : row < 64) : (loadPlane false m nc kb blk st).1.held row col
    = if col < nc ∧ row / 32 < kb then sgn m (elemRaw m (blk (2 * col + row / 32)).2.1 (row % 32)) * 2 ^ (16 - m) else 0 := by
  have hplace {b i : Nat} (hb : b < 128) (hi : i < 32) (h : 64 * (b / 2) + 32 * (b % 2) + i = 64 * col + row) :
      b = 2 * col + row / 32 ∧ i = row % 32 := by omega
  have hval : ∀ e ∈ rowElems m nc kb blk, e.1 = 64 * col + row
      → e.2.1 = sgn m (elemRaw m (blk (2 * col + row / 32)).2.1 (row % 32)) * 2 ^ (16 - m) := by
    intro e he hk
    obtain ⟨b, i, hb, -, hi, rfl⟩ := mem_rowElems.1 he
    obtain ⟨rfl, rfl⟩ := hplace hb hi hk
    rfl
  have hmem : 64 * col + row ∈ (rowElems m nc kb blk).map (·.1) ↔ col < nc ∧ row / 32 < kb := by
    rw [← activeBlock_iff (show row / 32 < 2 by omega)]
    constructor
    · intro h
      obtain ⟨e, he, hk⟩ := List.mem_map.1 h
      obtain ⟨b, i, hb, ha, hi, rfl⟩ := mem_rowElems.1 he
      obtain ⟨rfl, rfl⟩ := hplace hb hi hk
      exact ha
    · intro ha
      refine List.mem_map.2 ⟨_, mem_rowElems.2 ⟨2 * col + row / 32, row % 32, by omega, ha, by omega, rfl⟩, ?_⟩
      dsimp only
      omega
  rw [Plane.held, loadPlane_mant]
  exact (Sparse.get_foldl_set 0 (fun e : Nat × Int × Bool => e.1) (fun e => e.2.1) hval []).trans (if_congr hmem rfl rfl)

/-- A block of the tile keeps its scale; one outside it has zero. -/
theorem loadPlane_scale_get {col h : Nat} (hcol : col < 64) (hh : h < 2) :
    Sparse.get 0 (loadPlane false m nc kb blk st).1.scale (2 * col + h) = if col < nc ∧ h < kb then (blk (2 * col + h)).1 else 0 := by
  have hval : ∀ b ∈ List.range 128, b = 2 * col + h → (if activeBlock nc kb b then (blk b).1 else 0)
      = if col < nc ∧ h < kb then (blk (2 * col + h)).1 else 0 := by
    rintro b - rfl
    exact if_congr (activeBlock_iff hh) rfl rfl
  rw [loadPlane_scale]
  exact (Sparse.get_foldl_set 0 (fun b => b) (fun b => if activeBlock nc kb b then (blk b).1 else 0) hval []).trans
    (if_pos (by simp; omega))

end

/-! ### The grant -/

/-- What MLOAD's grant leaves once the plane `p` is read: the queue without the operation, the plane in place, the row port taken, the
elements that QUAD alignment changed counted, and the notice of poison. -/
def State.planeWritten (s : State) (g pl : Nat) (q : MQ) (p : Plane × Nat) (n : Nat) : State :=
  let u := ((s.modCore g fun c => { c with mq := unqueue q c.mq, planes := c.planes.set pl p.1 }).addSat .MXALN g 0 32 p.2).occupy g 0
    q.who.strm n
  u.poisEvent (u.flaskOf q.who) (!p.1.pois.isEmpty)

/-- Block `b` of the 128 of a tensor that MLOAD's grant reads (R87). -/
def State.tileBlock (s : State) (g c mb sb b : Nat) : Nat × Nat × Bool :=
  ((List.range 128).map fun k => s.block g c (mb + k * blockBytes c) (sb + k)).getD b (0, 0, false)

theorem State.tileBlock_eq (s : State) (g c mb sb : Nat) {b : Nat} (hb : b < 128) :
    s.tileBlock g c mb sb b = s.block g c (mb + b * blockBytes c) (sb + b) := by
  rw [State.tileBlock, List.getD_eq_getElem _ _ (by simpa using hb), List.getElem_map, List.getElem_range]

theorem mloadGrant_eq {s : State} {g pl fmt nc kb mb sb : Nat} {quad : Bool} {q : MQ} (hz : (s.core g).zero = false)
    (hq : (s.core g).mq = [q]) (hop : q.op = .load pl quad fmt nc kb mb sb) (hs : isG q.who.strm = false) (hf : (s.core g).fresh = [])
    (hold : q.old = s.operandCells g q.op) (hl : s.m.lerr = []) :
    ∃ n, exec (.mloadGrant g) s
      = .next (s.planeWritten g pl q (loadPlane quad (elemBits fmt) nc kb (s.tileBlock g fmt mb sb) q.who.strm) n) := by
  have hport : q.op.port = 0 := by rw [hop]; rfl
  have hpick : (s.core g).pick 0 (fun _ => true) = some q := hport ▸ Core.pick_single hz hq hs rfl
  have hcalm := Core.calm_single hf hq (by rw [hport]; decide)
  refine ⟨64 + 4 * (if quad then 1 else 0), ?_⟩
  rw [exec, execMloadGrant]
  simp only [hpick, hop, State.operandMem_still hold, State.readBlocks_calm hl hcalm]
  rfl

theorem State.planeWritten_core (s : State) (g pl : Nat) (q : MQ) (p : Plane × Nat) (n : Nat) :
    ∃ ps, (s.planeWritten g pl q p n).core g
      = { s.core g with mq := unqueue q (s.core g).mq, planes := (s.core g).planes.set pl p.1, ports := ps } := by
  simp only [State.planeWritten, State.core_poisEvent, State.core_occupy, State.core_addSat, State.core_modCore_same]
  exact ⟨_, rfl⟩

theorem State.planeWritten_other (s : State) {g h : Nat} (hh : h ≠ g) (pl : Nat) (q : MQ) (p : Plane × Nat) (n : Nat) :
    (s.planeWritten g pl q p n).core h = s.core h := by
  simp only [State.planeWritten, State.core_poisEvent, State.core_occupy_other _ hh, State.core_addSat, State.core_modCore_other _ _ hh]

theorem State.planeWritten_mem (s : State) (g pl : Nat) (q : MQ) (p : Plane × Nat) (n : Nat) :
    (s.planeWritten g pl q p n).mem = s.mem := State.poisEvent_mem ..

/-! ### PLANE_READY -/

theorem modAt_eq_set {α : Type} (f : α → α) (d : α) (n : Nat) (l : List α) : modAt f n l = l.set n (f (l.getD n d)) := by
  induction l generalizing n with
  | nil => simp [modAt]
  | cons a l ih =>
    cases n with
    | zero => rfl
    | succ n => exact congrArg (a :: ·) (ih n)

theorem planeReady_eq {s : State} {g pl : Nat} (h : ((s.core g).plane pl).loading ≠ none) : exec (.planeReady g pl) s
    = .next (s.modCore g fun c => (c.modPlane pl fun p => { p with ready := true, loading := none }).release 0) :=
  congrArg Host.Outcome.next (if_pos (Option.isSome_iff_ne_none.2 h))

/-- A change of one core, by its result. -/
theorem onlyCore_modCore {s : State} {g : Nat} {f : Core → Core} {c : Core} (h : f (s.core g) = c) :
    OnlyCore g s (s.modCore g f) c ∧ s.modCore g f = { s with cores := (s.modCore g f).cores } :=
  ⟨⟨(State.core_modCore_same ..).trans h, fun _ hh => State.core_modCore_other _ _ hh⟩, rfl⟩

/-- Settles O20: the grant writes the plane that `loadPlane` makes of the blocks of the tensor, and PLANE_READY changes one core. -/
theorem planeLoad : Obligations.PlaneLoad := by
  unfold Obligations.PlaneLoad
  constructor
  · intro g s q pl fmt nc kb mb sb hz hq hop hs hf hold _ _ _ hl b
    obtain ⟨n, hexec⟩ := mloadGrant_eq hz hq hop hs hf hold hl
    obtain ⟨ps, hcore⟩ := s.planeWritten_core g pl q (loadPlane false (elemBits fmt) nc kb (s.tileBlock g fmt mb sb) q.who.strm) n
    refine ⟨_, _, hexec, by rw [hcore, hq]; exact unqueue_single q, by rw [hcore], rfl, rfl, rfl, rfl, rfl, fun col row hcol hrow => ?_,
      fun col h hcol hh => ?_, State.planeWritten_mem .., by rw [hcore], fun h hh => State.planeWritten_other s hh ..⟩
    · rw [loadPlane_held _ _ _ _ _ hcol hrow, State.tileBlock_eq _ _ _ _ _ (by omega)]
      rfl
    · rw [loadPlane_scale_get _ _ _ _ _ hcol hh, State.tileBlock_eq _ _ _ _ _ (by omega)]
      rfl
  · intro g pl s _ hload
    refine ⟨_, planeReady_eq hload, onlyCore_modCore ?_⟩
    rw [Core.modPlane, Core.release, modAt_eq_set _ (Plane.zeroTile false)]
    rfl

end Sys2Proof.Machine
end

section
/-! PROOF. MSTREAM's grant and the landings in the edge file (R92 to R96, R110, R121): O21. -/

set_option Elab.async false

namespace Sys2Proof.Machine

/-! ### Vectors on their way -/

/-- From `s` to `t` core `g` has sent the landings `ls` on their way, and counted them (R110, R121). -/
structure Sent (g : Nat) (s t : State) (ls : List Landing) : Prop where
  mem : t.mem = s.mem
  pois : t.pois = s.pois
  m : t.m = s.m
  core : t.core g = { s.core g with land := (s.core g).land ++ ls }
  count : t.rd .MXVEC g 0 = s.rd .MXVEC g 0 + BitVec.ofNat 64 ls.length

theorem Sent.refl (g : Nat) (s : State) : Sent g s s [] := ⟨rfl, rfl, rfl, by rw [List.append_nil], (BitVec.add_zero _).symm⟩

theorem Sent.trans {g : Nat} {s t u : State} {ls ls' : List Landing} (h : Sent g s t ls) (h' : Sent g t u ls') :
    Sent g s u (ls ++ ls') := by
  refine ⟨h'.mem.trans h.mem, h'.pois.trans h.pois, h'.m.trans h.m, ?_, ?_⟩
  · rw [h'.core, h.core, List.append_assoc]
  · rw [h'.count, h.count, BitVec.add_assoc, ← BitVec.ofNat_add, List.length_append]

/-- A vector is sent: its landing, the counters, and the notice of a poisoned half-sum. -/
def State.vectorSent (s : State) (g : Nat) (x : Who) (gated : Nat) (p : Bool) (l : Landing) : State :=
  let u := ((s.modCore g fun c => { c with land := c.land ++ [l] }).addWrap .MXVEC g 0 1).addWrap .MXGATE g 0 gated
  u.poisEvent (u.flaskOf x) p

theorem State.rd_addWrap_same (s : State) (r : Reg) (i j n : Nat) : (s.addWrap r i j n).rd r i j = s.rd r i j + BitVec.ofNat 64 n :=
  State.rd_wr_same ..

theorem State.rd_addWrap_other (s : State) {r r' : Reg} (h : r' ≠ r) (i j n i' j' : Nat) :
    (s.addWrap r i j n).rd r' i' j' = s.rd r' i' j' := State.rd_wr_other _ _ (Reg.key_ne h _ _ _ _)

theorem State.sent_vectorSent (s : State) (g : Nat) (x : Who) (gated : Nat) (p : Bool) (l : Landing) :
    Sent g s (s.vectorSent g x gated p l) [l] := by
  refine ⟨State.poisEvent_mem .., ?_, ?_, ?_, ?_⟩
  · rw [State.vectorSent, State.poisEvent_only]
    rfl
  · rw [State.vectorSent, State.poisEvent_only]
    rfl
  · simp only [State.vectorSent, State.core_poisEvent, State.core_addWrap, State.core_modCore_same]
  · rw [State.vectorSent, State.rd_of_regs (State.poisEvent_regs ..), State.rd_addWrap_other _ (by decide), State.rd_addWrap_same]
    rfl

/-- Vectors sent one after another, each of which reads nothing that the ones before it changed. -/
theorem sent_foldl {g : Nat} {b : State} {f : State → Nat → State} {l : Nat → Landing}
    (hf : ∀ u v ls, Sent g b u ls → Sent g u (f u v) [l v]) (n : Nat) :
    Sent g b ((List.range n).foldl f b) ((List.range n).map l) := by
  induction n with
  | zero => exact Sent.refl g b
  | succ n ih =>
    rw [List.range_succ, List.foldl_append, List.map_append]
    exact ih.trans (hf _ _ _ ih)

/-- The landing of vector `v` of a granted MSTREAM on plane `p` (R92 to R95). -/
def State.vectorLanding (s : State) (g : Nat) (st : Stream) (p : Plane) (tr : Bool) (fmt m eb : Nat) (pair : Bool) (lam tix : Nat)
    (start : Bool) (mb sb vs v : Nat) : Landing :=
  { strm := st, ent := eb + v, pair := pair, lam := lam, tix := tix, m := m, start := start,
    cols := (List.range 64).map fun o => (List.range (p.blocks tr)).map fun h =>
      p.halfSum tr (elemBits fmt) o h (s.block g fmt (mb + (v * vs + h) * blockBytes fmt) (sb + (v * vs + h))),
    last := v + 1 = m }

/-- The half-sums of the blocks read, by their place in the vector. -/
theorem halfSums_of_blocks (p : Plane) (tr : Bool) (w o a : Nat) (blk : Nat → Nat × Nat × Bool) (d : Nat × Nat × Bool) :
    ((List.range a).map fun h => p.halfSum tr w o h (((List.range a).map blk).getD h d))
      = (List.range a).map fun h => p.halfSum tr w o h (blk h) :=
  List.map_congr_left fun h hh => by
    rw [List.getD_eq_getElem _ _ (by simpa using hh), List.getElem_map, List.getElem_range]

/-- The vectors of a granted MSTREAM, from a core whose operands are as they were at issue. -/
theorem State.streamVectors_sent {s : State} {g : Nat} {q : MQ} (hold : q.old = s.operandCells g q.op) (hl : s.m.lerr = [])
    (hq : (s.core g).mq = [q]) (hf : (s.core g).fresh = []) (p : Plane) (tr : Bool) (fmt m eb : Nat) (pair : Bool)
    (lam tix : Nat) (start : Bool) (mb sb vs : Nat) :
    ∃ u, s.streamVectors g q p tr fmt m eb pair lam tix start mb sb vs = State.withMem s.mem u
      ∧ Sent g (s.granted g 1 q (m * elemBits fmt)) u
          ((List.range m).map (s.vectorLanding g q.who.strm p tr fmt m eb pair lam tix start mb sb vs)) := by
  let b := s.granted g 1 q (m * elemBits fmt)
  have hb : b.operandMem g q = b := State.operandMem_still (hold.trans (State.operandCells_of_mem rfl ..).symm)
  have hcalm : (b.core g).calm = true := by
    obtain ⟨ps, hcore⟩ := State.core_granted hq 1 (m * elemBits fmt)
    rw [hcore]
    simp [Core.calm, hf]
  refine ⟨_, congrArg (fun b' => State.withMem s.mem (List.foldl _ b' (List.range m))) hb, sent_foldl (fun u v ls hu => ?_) m⟩
  have hlu : u.m.lerr = [] := by rw [hu.m]; exact hl
  have hcu : (u.core g).calm = true := by rw [hu.core]; exact hcalm
  have hblk (mb sb : Nat) : u.block g fmt mb sb = s.block g fmt mb sb := State.block_of hu.mem hu.pois ..
  simp only [State.readBlocks_calm hlu hcu, hblk, List.map_map, halfSums_of_blocks]
  exact u.sent_vectorSent ..

/-- MSTREAM's grant, where the operation passes the check made then (R86, R112). -/
theorem mstreamGrant_eq {s : State} {g pl fmt m eb lam tix mb sb vs : Nat} {tr pair start : Bool} {q : MQ}
    (hz : (s.core g).zero = false) (hq : (s.core g).mq = [q]) (hs : isG q.who.strm = false)
    (hop : q.op = .stream pl tr fmt m eb pair lam tix start mb sb vs) (hr : ((s.core g).plane pl).ready = true)
    (htr : tr = true → ((s.core g).plane pl).quad = true) :
    exec (.mstreamGrant g) s = .next (s.streamVectors g q ((s.core g).plane pl) tr fmt m eb pair lam tix start mb sb vs) := by
  have hport : q.op.port = 1 := by rw [hop]; rfl
  have hpick {ready : MOp → Bool} (h : ready q.op = true) : (s.core g).pick 1 ready = some q := hport ▸ Core.pick_single hz hq hs h
  have hcheck : (tr && !((s.core g).plane pl).quad) = false := by
    cases tr
    · rfl
    · simp [htr rfl]
  rw [exec, execMstreamGrant, hq, List.length_singleton, streamGrant, hpick]
  · simp only [hop, hcheck, Bool.false_eq_true, if_false]
  · rw [hop]
    exact hr

/-! ### Landings -/

/-- From `s` to `t` only edge entries of core `g` and their poison have changed. -/
structure EdgeWrote (g : Nat) (s t : State) : Prop where
  only : t = { s with cores := t.cores }
  core : ∃ es ps, t.core g = { s.core g with edge := es, edgeP := ps }
  others : ∀ h, h ≠ g → t.core h = s.core h

theorem EdgeWrote.refl (g : Nat) (s : State) : EdgeWrote g s s := ⟨rfl, ⟨_, _, rfl⟩, fun _ _ => rfl⟩

theorem EdgeWrote.trans {g : Nat} {s t u : State} (h : EdgeWrote g s t) (h' : EdgeWrote g t u) : EdgeWrote g s u := by
  obtain ⟨es, ps, hc⟩ := h.core
  obtain ⟨es', ps', hc'⟩ := h'.core
  exact ⟨h'.only.trans (congrArg (fun v : State => { v with cores := u.cores }) h.only), ⟨es', ps', by rw [hc', hc]⟩,
    fun k hk => (h'.others k hk).trans (h.others k hk)⟩

theorem EdgeWrote.eerr {g : Nat} {s t : State} (h : EdgeWrote g s t) : t.m.eerr = s.m.eerr := by rw [h.only]

section
variable {s : State} (he : s.m.eerr = [])
include he

/-- With no error latent in the edge file, an entry is read with no effect (R107). -/
theorem State.readEdge_sound (g col ent : Nat) :
    s.readEdge g col ent = (s.edgeAt g col ent, NSet.has (s.core g).edgeP (256 * col + ent), s) := by
  unfold State.readEdge
  rw [he]
  rfl

theorem State.writeEdge_sound (g col ent : Nat) (v : Wide) (p : Bool) :
    s.writeEdge g col ent v p = s.modCore g fun c => { c with
      edge := Sparse.set 0 c.edge (256 * col + ent) v,
      edgeP := if p then NSet.add (256 * col + ent) c.edgeP else NSet.del c.edgeP (256 * col + ent) } := by
  have h : Sparse.set 0 s.m.eerr (g * 2 ^ 14 + (256 * col + ent)) 0 = s.m.eerr := by rw [he]; rfl
  unfold State.writeEdge
  simp only [h]

theorem State.writeEdge_wrote (g col ent : Nat) (v : Wide) (p : Bool) : EdgeWrote g s (s.writeEdge g col ent v p) := by
  rw [State.writeEdge_sound he]
  exact ⟨rfl, ⟨_, _, State.core_modCore_same ..⟩, fun _ hh => State.core_modCore_other _ _ hh⟩

theorem State.writeEdge_edgeAt (g col ent : Nat) (v : Wide) (p : Bool) (c e : Nat) : (s.writeEdge g col ent v p).edgeAt g c e
    = if 256 * c + e = 256 * col + ent then v else s.edgeAt g c e := by
  rw [State.writeEdge_sound he, State.edgeAt, State.core_modCore_same]
  by_cases h : 256 * c + e = 256 * col + ent
  · rw [if_pos h, h]
    exact Sparse.get_set_same ..
  · rw [if_neg h]
    exact Sparse.get_set_other _ _ _ _ h

end

/-- What a landing under UNSP makes of the entry `w` of column `c` (R96): one rounding of the exact sum. -/
def Landing.sum (d : Landing) (c : Nat) (w : Wide) : Wide :=
  toW ((d.cols.getD c []).foldl (fun a b => vAdd a (wVal b.1)) (if d.start then .fin false 0 0 else wVal w))

theorem State.landCol_unsplit {s : State} (he : s.m.eerr = []) {d : Landing} (hp : d.pair = false) (g c : Nat) :
    ∃ p, s.landCol g c d = s.writeEdge g c d.ent (d.sum c (s.edgeAt g c d.ent)) p := by
  unfold State.landCol
  rw [hp, State.readEdge_sound he]
  cases hstart : d.start with
  | true => exact ⟨_, by simp only [Bool.false_eq_true, if_false, if_true, Landing.sum, hstart]; rfl⟩
  | false => exact ⟨_, by simp only [Bool.false_eq_true, if_false, Landing.sum, hstart]; rfl⟩

/-- A landing in some columns, one after another: each column's entry is updated, and nothing else. -/
theorem State.landCols_unsplit {g : Nat} {d : Landing} (hp : d.pair = false) (hent : d.ent < 256) {l : List Nat} (hl : l.Nodup)
    {s : State} (he : s.m.eerr = []) :
    let t := l.foldl (fun s c => s.landCol g c d) s
    EdgeWrote g s t
      ∧ ∀ c e, e < 256 → t.edgeAt g c e = if c ∈ l ∧ e = d.ent then d.sum c (s.edgeAt g c d.ent) else s.edgeAt g c e := by
  induction l generalizing s with
  | nil => exact ⟨EdgeWrote.refl g s, fun c e _ => by simp⟩
  | cons a l ih =>
    obtain ⟨ha, hl⟩ := List.nodup_cons.1 hl
    obtain ⟨p, hw⟩ := State.landCol_unsplit he hp g a
    have h1 : EdgeWrote g s (s.landCol g a d) := hw ▸ State.writeEdge_wrote he ..
    have hat (c e : Nat) (hlt : e < 256) : (s.landCol g a d).edgeAt g c e
        = if c = a ∧ e = d.ent then d.sum a (s.edgeAt g a d.ent) else s.edgeAt g c e := by
      rw [hw, State.writeEdge_edgeAt he]
      exact if_congr (by omega) rfl rfl
    obtain ⟨h2, hrest⟩ := ih hl (h1.eerr.trans he)
    refine ⟨h1.trans h2, fun c e hlt => (hrest c e hlt).trans ?_⟩
    rw [hat c d.ent hent, hat c e hlt]
    by_cases hc : c = a
    · subst hc
      simp [ha]
    · simp [hc]

theorem Core.releaseIf_eq (c : Core) (port : Nat) (st : Stream) : ∃ ps, c.releaseIf port st = { c with ports := ps } := by
  unfold Core.releaseIf Core.release
  split
  · split
    · exact ⟨_, rfl⟩
    · exact ⟨_, rfl⟩
  · exact ⟨_, rfl⟩

/-- The oldest landing leaves the queue; the serial port may come free with it (R112). -/
def Core.landed (c : Core) (d : Landing) (l : List Landing) : Core :=
  let c := { c with land := l }
  if l.all fun e => e.strm ≠ d.strm then c.releaseIf 1 d.strm else c

theorem Core.landed_eq (c : Core) (d : Landing) (l : List Landing) : ∃ ps, c.landed d l = { c with land := l, ports := ps } := by
  unfold Core.landed
  split
  · exact Core.releaseIf_eq _ _ _
  · exact ⟨_, rfl⟩

theorem edgeLanding_eq {s : State} {g : Nat} {d : Landing} {l : List Landing} (h : (s.core g).land = d :: l) : exec (.edgeLanding g) s
    = .next (lanes.foldl (fun s col => s.landCol g col d) (s.modCore g fun c => c.landed d l)) := by
  rw [exec, execEdgeLanding, h]
  rfl

/-- Settles O21: the vectors are sent one by one over a state whose blocks do not change; the landing updates column by column. -/
theorem streamAndLanding : Obligations.StreamAndLanding := by
  unfold Obligations.StreamAndLanding
  constructor
  · intro g s q pl fmt m eb lam tix mb sb vs tr pair start p hz hq hs hop hr htr hf hold hl
    obtain ⟨u, hu, hsent⟩ := State.streamVectors_sent hold hl hq hf p tr fmt m eb pair lam tix start mb sb vs
    obtain ⟨ps, hgranted⟩ := State.core_granted hq 1 (m * elemBits fmt)
    have hcore : (State.withMem s.mem u).core g = _ := hsent.core
    rw [hgranted] at hcore
    refine ⟨_, _, (mstreamGrant_eq hz hq hs hop hr htr).trans (congrArg _ hu), by rw [hcore], by rw [hcore], by simp, fun v d hd => ?_,
      ?_, by rw [hcore], by rw [hcore], rfl⟩
    · obtain ⟨hv, rfl⟩ : v < m ∧ s.vectorLanding g q.who.strm p tr fmt m eb pair lam tix start mb sb vs v = d := by
        simpa [List.getElem?_eq_some_iff] using hd
      exact ⟨rfl, rfl, rfl, rfl, rfl, rfl, rfl, decide_eq_true_iff, rfl⟩
    · exact hsent.count.trans (by rw [List.length_map, List.length_range]; rfl)
  · intro g s d l hland hp hent he
    have hcore := State.core_modCore_same s g fun c => c.landed d l
    obtain ⟨ps, hlanded⟩ := (s.core g).landed_eq d l
    have hedge (c e : Nat) : (s.modCore g fun c => c.landed d l).edgeAt g c e = s.edgeAt g c e := by
      rw [State.edgeAt, hcore, hlanded, State.edgeAt]
    obtain ⟨hw, hat⟩ := State.landCols_unsplit hp hent (l := lanes) List.nodup_range (s := s.modCore g fun c => c.landed d l) he
    obtain ⟨es, eps, hc⟩ := hw.core
    refine ⟨_, edgeLanding_eq hland, by rw [hc, hcore, hlanded], fun c hlt => ?_, fun c e hlt he256 hne => ?_, hw.only,
      fun h hh => (hw.others h hh).trans (State.core_modCore_other _ _ hh)⟩
    · rw [hat c d.ent hent, if_pos ⟨List.mem_range.2 hlt, rfl⟩, hedge]
      rfl
    · rw [hat c e he256, if_neg (fun h => hne h.2), hedge]

end Sys2Proof.Machine
end

section
/-! PROOF. MDRAIN's grant to W80, the end of an array's zeroing, and the counter clears (R99, R101, R115, R122, R161, R307): O22. -/

set_option Elab.async false

namespace Sys2Proof.Machine

/-! ### A row of a drain -/

/-- What a step of a loop brings about under an invariant, and every step keeps, holds after a loop over a list with that step. -/
theorem foldl_reaches_inv {α β : Type} {Inv P : β → Prop} {f : β → α → β} {x : α} {l : List α}
    (hinv : ∀ b, ∀ a ∈ l, Inv b → Inv (f b a)) (hx : ∀ b, Inv b → P (f b x)) (hf : ∀ b, ∀ a ∈ l, Inv b → P b → P (f b a))
    (hl : x ∈ l) {b : β} (h : Inv b) : P (l.foldl f b) := by
  obtain ⟨l1, l2, rfl⟩ := List.append_of_mem hl
  have hmid : Inv (l1.foldl f b) := List.foldlRecOn l1 f h fun b hb a ha => hinv b a (List.mem_append_left _ ha) hb
  rw [List.foldl_append, List.foldl_cons]
  refine (List.foldlRecOn (motive := fun b => Inv b ∧ P b) l2 f ⟨hinv _ x hl hmid, hx _ hmid⟩ fun b hb a ha => ?_).2
  have ha' := List.mem_append_right l1 (List.mem_cons_of_mem x ha)
  exact ⟨hinv b a ha' hb.1, hf b a ha' hb.1 hb.2⟩

/-- Poison of edge entry `e` of column `c` of core `g` (R96). -/
def State.edgePAt (s : State) (g c e : Nat) : Bool := NSet.has (s.core g).edgeP (256 * c + e)

/-- The outputs of one row: each entry of the row's columns, with its poison. -/
def State.rowOut (s : State) (g eb nw r : Nat) : List (Wide × Bool) :=
  (List.range nw).map fun c => (s.edgeAt g c (eb + r), s.edgePAt g c (eb + r))

theorem State.rowOut_length (s : State) (g eb nw r : Nat) : (s.rowOut g eb nw r).length = nw := by simp [State.rowOut]

theorem State.rowOut_getD (s : State) (g eb r : Nat) {nw c : Nat} (hc : c < nw) :
    ((s.rowOut g eb nw r).getD c (wZero, false)).1 = s.edgeAt g c (eb + r) := by
  rw [List.getD_eq_getElem _ _ (by rwa [State.rowOut_length])]
  simp [State.rowOut]

section
variable {s : State} (he : s.m.eerr = [])
include he

/-- The sum of an unsplit output is the entry of its row (R99). -/
theorem State.drainSum_unsplit (g eb m lam r col : Nat) :
    s.drainSum g eb m false lam 1 r col = (s.edgeAt g col (eb + r), s.edgePAt g col (eb + r), s) := by
  simp [State.drainSum, State.readEdge_sound he, State.edgePAt]

/-- A row without an epilogue is read with no effect: its entries of the columns below NW. -/
theorem State.drainRow_unsplit {nw : Nat} (hnw : nw ≤ 64) (g eb m lam epf eps epb ers r : Nat) :
    s.drainRow g eb m false lam 1 0 epf eps epb ers nw r = (s.rowOut g eb nw r, s) := by
  have h (n : Nat) : (List.range n).foldl (fun (p : List (Wide × Bool) × State) c =>
      if c < nw then
        let o := p.2.drainOut g eb m false lam 1 0 epf eps epb ers r c
        (p.1 ++ [(o.1, o.2.1)], o.2.2)
      else (p.1, (p.2.drainSum g eb m false lam 1 r c).2.2)) ([], s)
      = (s.rowOut g eb (min n nw) r, s) := by
    induction n with
    | zero => simp [State.rowOut]
    | succ n ih =>
      rw [List.range_succ, List.foldl_append, ih]
      by_cases hn : n < nw
      · rw [Nat.min_eq_left (Nat.succ_le_of_lt hn), Nat.min_eq_left hn.le]
        simp [hn, State.rowOut, State.drainOut, State.drainSum_unsplit he, List.range_succ]
      · rw [Nat.min_eq_right (by omega), Nat.min_eq_right (by omega)]
        simp [hn, State.drainSum_unsplit he]
  exact (h 64).trans (by rw [Nat.min_eq_right hnw])

end

/-! ### The outputs in local store -/

/-- From `s` to `t` only bytes, their poison and the notices in flight have changed. -/
def BytesOnly (s t : State) : Prop := t = { s with mem := t.mem, pois := t.pois, notices := t.notices }

section
variable {s t : State}

theorem BytesOnly.refl (s : State) : BytesOnly s s := rfl

theorem BytesOnly.trans {u : State} (h : BytesOnly s t) (h' : BytesOnly t u) : BytesOnly s u :=
  Eq.trans h' (congrArg (fun v : State => { v with mem := u.mem, pois := u.pois, notices := u.notices }) h)

theorem BytesOnly.m (h : BytesOnly s t) : t.m = s.m := (congrArg State.m h).trans rfl
theorem BytesOnly.core (h : BytesOnly s t) (g : Nat) : t.core g = s.core g := State.core_of_cores ((congrArg State.cores h).trans rfl) g
theorem BytesOnly.edgeAt (h : BytesOnly s t) (g c e : Nat) : t.edgeAt g c e = s.edgeAt g c e := by
  rw [State.edgeAt, State.edgeAt, h.core]

theorem BytesOnly.poisEvent (h : BytesOnly s t) (f : Nat) (p : Bool) : BytesOnly s (t.poisEvent f p) :=
  h.trans (by cases p <;> rfl)

theorem BytesOnly.lsWrite (h : BytesOnly s t) (hl : s.m.lerr = []) (a : Nat) (bs : List Byte) (p : Bool) :
    BytesOnly s (t.lsWrite a [] bs p) := by
  refine h.trans ?_
  rw [State.lsWrite_sound (by rw [h.m]; exact hl)]
  rfl

end

/-- The 16-byte slot of output (`r`, `c`) of a drain to W80 (R101). -/
def wSlot (g db drs r c : Nat) : Nat := lsAt g (db + (r * drs + c) * 16)

/-- Slots of different outputs share no byte, where a row's outputs fit its stride. -/
theorem wSlot_apart {g db drs r c r' c' : Nat} (hc : c < drs) (hc' : c' < drs) (h : ¬(r = r' ∧ c = c')) :
    wSlot g db drs r c + 16 ≤ wSlot g db drs r' c' ∨ wSlot g db drs r' c' + 16 ≤ wSlot g db drs r c := by
  have hne : r * drs + c ≠ r' * drs + c' := by
    intro heq
    have hpos : 0 < drs := Nat.zero_lt_of_lt hc
    have hr : r = r' := by
      have := congrArg (· / drs) heq
      simpa [Nat.add_comm, Nat.add_mul_div_right _ _ hpos, Nat.div_eq_of_lt hc, Nat.div_eq_of_lt hc'] using this
    subst hr
    exact h ⟨rfl, Nat.add_left_cancel heq⟩
  unfold wSlot lsAt
  omega

theorem wBytes_length (w : Wide) : (wBytes w).length = 16 := leBytes_length ..

/-- Output (`r`, `c`) of a drain stands in its slot. -/
def State.slotHolds (s : State) (g db drs r c : Nat) (w : Wide) : Prop :=
  ∀ i, i < 16 → s.byte (wSlot g db drs r c + i) = (wBytes w).getD i 0

section
variable {s : State} (hl : s.m.lerr = []) (g db drs r : Nat)
include hl

theorem State.slotHolds_lsWrite (c : Nat) (w : Wide) (p : Bool) :
    (s.lsWrite (wSlot g db drs r c) [] (wBytes w) p).slotHolds g db drs r c w := by
  intro i hi
  rw [State.lsWrite_byte hl, if_pos (by rw [wBytes_length]; omega), Nat.add_sub_cancel_left]

theorem State.slotHolds_lsWrite_apart {c r' c' : Nat} {w w' : Wide} {p : Bool} (hc : c < drs) (hc' : c' < drs)
    (hne : ¬(r = r' ∧ c = c')) (h : s.slotHolds g db drs r c w) :
    (s.lsWrite (wSlot g db drs r' c') [] (wBytes w') p).slotHolds g db drs r c w := by
  intro i hi
  have := wSlot_apart (g := g) (db := db) hc hc' hne
  rw [State.lsWrite_byte hl, if_neg (by rw [wBytes_length]; omega), h i hi]

end

/-- Output `c` of a row written to W80, in its slot. -/
def State.writeOut (s : State) (g db drs r : Nat) (row : List (Wide × Bool)) (c : Nat) : State :=
  s.lsWrite (wSlot g db drs r c) [] (wBytes (row.getD c (wZero, false)).1) (row.getD c (wZero, false)).2

/-- One row written to W80. -/
def State.writeRow (s : State) (g db drs r : Nat) (row : List (Wide × Bool)) : State :=
  (List.range row.length).foldl (fun s c => s.writeOut g db drs r row c) s

theorem State.drainWrite_w80 (s : State) (g slot db dsb drs js : Nat) (seed step : Word64) (jb : Nat) (cfg tid : Word64) (r : Nat)
    (row : List (Wide × Bool)) : s.drainWrite g 0x14 slot db dsb drs js seed step jb cfg tid r row = s.writeRow g db drs r row := rfl

section
variable {s : State} (hl : s.m.lerr = []) {g db drs r : Nat} {row : List (Wide × Bool)}
include hl

theorem State.writeRow_only : BytesOnly s (s.writeRow g db drs r row) :=
  foldl_keeps (P := BytesOnly s) (fun _ _ h => h.lsWrite hl ..) _ (BytesOnly.refl s)

theorem State.writeRow_at (hrow : row.length ≤ drs) {c : Nat} (hc : c < row.length) :
    (s.writeRow g db drs r row).slotHolds g db drs r c (row.getD c (wZero, false)).1 := by
  refine foldl_reaches_inv (Inv := BytesOnly s) (P := fun u => u.slotHolds g db drs r c (row.getD c (wZero, false)).1)
    (f := fun u c => u.writeOut g db drs r row c) (fun u c' _ h => h.lsWrite hl ..)
    (fun u h => State.slotHolds_lsWrite (by rw [h.m]; exact hl) _ _ _ _ _ _ _) (fun u c' hc' h hp => ?_)
    (List.mem_range.2 hc) (BytesOnly.refl s)
  have hlu : u.m.lerr = [] := by rw [h.m]; exact hl
  have hc' := List.mem_range.1 hc'
  by_cases hcc : c = c'
  · subst hcc
    exact State.slotHolds_lsWrite hlu _ _ _ _ _ _ _
  · exact State.slotHolds_lsWrite_apart hlu _ _ _ _ (by omega) (by omega) (fun hx => hcc hx.2) hp

/-- A byte in no slot of the row stays. -/
theorem State.writeRow_byte {o : Nat} (ho : ∀ c, c < row.length → o < wSlot g db drs r c ∨ wSlot g db drs r c + 16 ≤ o) :
    (s.writeRow g db drs r row).byte o = s.byte o := by
  refine (List.foldlRecOn (motive := fun u => BytesOnly s u ∧ u.byte o = s.byte o) _ _ ⟨BytesOnly.refl s, rfl⟩
    fun u hu c hc => ?_).2
  have hout := ho c (List.mem_range.1 hc)
  refine ⟨hu.1.lsWrite hl .., ?_⟩
  rw [State.writeOut, State.lsWrite_byte (by rw [hu.1.m]; exact hl), if_neg (by rw [wBytes_length]; omega), hu.2]

end

/-! ### The grant -/

/-- Row `r` is read, written and its poison noticed. -/
def State.drainStep (s : State) (g eb nw db drs f r : Nat) : State :=
  (s.writeRow g db drs r (s.rowOut g eb nw r)).poisEvent f ((s.rowOut g eb nw r).any Prod.snd)

section
variable {b s : State} (hs : BytesOnly b s) (hl : b.m.lerr = []) {g eb nw db drs f r : Nat}
include hs hl

theorem State.drainStep_only : BytesOnly b (s.drainStep g eb nw db drs f r) :=
  (hs.trans (State.writeRow_only (by rw [hs.m]; exact hl))).poisEvent _ _

theorem State.drainStep_at (hnw : nw ≤ drs) {c : Nat} (hc : c < nw) :
    (s.drainStep g eb nw db drs f r).slotHolds g db drs r c (b.edgeAt g c (eb + r)) := by
  have h := State.writeRow_at (s := s) (by rw [hs.m]; exact hl) (g := g) (db := db) (drs := drs) (r := r) (row := s.rowOut g eb nw r)
    (by rwa [State.rowOut_length]) (c := c) (by rwa [State.rowOut_length])
  rw [State.rowOut_getD _ _ _ _ hc, hs.edgeAt] at h
  intro i hi
  rw [← h i hi, State.byte, State.drainStep, State.poisEvent_mem, ← State.byte]

theorem State.drainStep_byte {o : Nat} (ho : ∀ c, c < nw → o < wSlot g db drs r c ∨ wSlot g db drs r c + 16 ≤ o) :
    (s.drainStep g eb nw db drs f r).byte o = s.byte o := by
  rw [State.byte, State.drainStep, State.poisEvent_mem, ← State.byte]
  exact State.writeRow_byte (by rw [hs.m]; exact hl) fun c hc => ho c (by rwa [State.rowOut_length] at hc)

end

/-- The rows of a drain, one after another. -/
def State.drainRows (s : State) (g eb nw db drs f m : Nat) : State :=
  (List.range m).foldl (fun s r => s.drainStep g eb nw db drs f r) s

section
variable {s : State} (hl : s.m.lerr = []) {g eb nw db drs f m : Nat}
include hl

theorem State.drainRows_only : BytesOnly s (s.drainRows g eb nw db drs f m) :=
  foldl_keeps (P := BytesOnly s) (fun _ _ h => State.drainStep_only h hl) _ (BytesOnly.refl s)

theorem State.drainRows_at (hnw : nw ≤ drs) {r c : Nat} (hr : r < m) (hc : c < nw) :
    (s.drainRows g eb nw db drs f m).slotHolds g db drs r c (s.edgeAt g c (eb + r)) := by
  refine foldl_reaches_inv (Inv := BytesOnly s) (P := fun u => u.slotHolds g db drs r c (s.edgeAt g c (eb + r)))
    (f := fun u r => u.drainStep g eb nw db drs f r) (fun u _ _ h => State.drainStep_only h hl)
    (fun u h => State.drainStep_at h hl hnw hc) (fun u r' _ h hp => ?_) (List.mem_range.2 hr) (BytesOnly.refl s)
  by_cases hrr : r = r'
  · subst hrr
    exact State.drainStep_at h hl hnw hc
  · intro i hi
    refine (State.drainStep_byte h hl fun c' hc' => ?_).trans (hp i hi)
    have := wSlot_apart (g := g) (db := db) (Nat.lt_of_lt_of_le hc hnw) (Nat.lt_of_lt_of_le hc' hnw) fun hx => hrr hx.1
    omega

theorem State.drainRows_byte {o : Nat} (ho : ∀ r c, r < m → c < nw → o < wSlot g db drs r c ∨ wSlot g db drs r c + 16 ≤ o) :
    (s.drainRows g eb nw db drs f m).byte o = s.byte o :=
  (List.foldlRecOn (motive := fun u => BytesOnly s u ∧ u.byte o = s.byte o) (List.range m) _ ⟨BytesOnly.refl s, rfl⟩
    fun _ hu r hr => ⟨State.drainStep_only hu.1 hl,
      (State.drainStep_byte hu.1 hl fun c hc => ho r c (List.mem_range.1 hr) hc).trans hu.2⟩).2

/-- The model's loop over the rows, which also gathers the outputs that an F32 drain counts. -/
theorem drainLoop_eq (he : s.m.eerr = []) (hnw : nw ≤ 64) (k lam slot epf eps dsb epb ers js jb : Nat) (seed step cfg tid : Word64) :
    ((List.range m).foldl (fun (p : List (Nat × Val × Bool) × State) r =>
      let row := p.2.drainRow g eb k false lam 1 0 epf eps epb ers nw r
      (p.1 ++ f32Row (jb + r * js) row.1,
       (row.2.drainWrite g 0x14 slot db dsb drs js seed step jb cfg tid r row.1).poisEvent f (row.1.any Prod.snd))) ([], s)).2
      = s.drainRows g eb nw db drs f m := by
  induction m with
  | zero => rfl
  | succ m ih =>
    have hu : (s.drainRows g eb nw db drs f m).m.eerr = [] := by rw [(State.drainRows_only hl).m]; exact he
    have hlast : s.drainRows g eb nw db drs f (m + 1) = (s.drainRows g eb nw db drs f m).drainStep g eb nw db drs f m := by
      rw [State.drainRows, List.range_succ, List.foldl_append]
      rfl
    rw [List.range_succ, List.foldl_append, hlast, ← ih] at *
    generalize List.foldl _ ([], s) (List.range m) = p at hu ⊢
    simp only [List.foldl_cons, List.foldl_nil, State.drainRow_unsplit hu hnw, State.drainWrite_w80]
    rfl

end

/-- MDRAIN's grant for an unsplit sum to W80 with no landing under way (R112, R113). -/
theorem mdrainGrant_eq {s : State} {g eb m lam nw slot epf eps db dsb epb drs ers js jb : Nat} {seed step cfg tid : Word64} {q : MQ}
    (hz : (s.core g).zero = false) (hq : (s.core g).mq = [q]) (hs : isG q.who.strm = false)
    (hop : q.op = .drain eb m false lam nw 0x14 slot 0 epf eps db dsb epb drs ers 1 js seed step jb cfg tid)
    (hland : (s.core g).land = []) (hnw : nw ≤ 64) (he : s.m.eerr = []) (hl : s.m.lerr = []) :
    ∃ n, exec (.mdrainGrant g) s
      = .next ((s.granted g 2 q n).drainRows g eb nw db drs ((s.granted g 2 q n).flaskOf q.who) m) := by
  have hport : q.op.port = 2 := by rw [hop]; rfl
  have hfree : (s.core g).drainFree q.op = true := by rw [hop, Core.drainFree, hland]; rfl
  have hpick : (s.core g).pick 2 (s.core g).drainFree = some q := hport ▸ Core.pick_single hz hq hs hfree
  refine ⟨24 + (m - 1) + 12 * ((if 1 = 0 ∨ 1 = 2 ^ lam then 1 else popcount 21 1) - 1) + (if 0 = 0 then 0 else 12), ?_⟩
  rw [exec, execMdrainGrant, hpick]
  simp only [hop]
  exact congrArg Host.Outcome.next ((if_neg (by decide)).trans (drainLoop_eq (s := s.granted g 2 q _) hl he hnw ..))

/-! ### The counter clears -/

theorem State.clearIssue_wrote (s : State) (g : Nat) :
    WroteRegs (fun k => ∃ i, i < 4 ∧ k = Reg.key .ISSUE g i) s (s.clearIssue g) :=
  .foldl (WroteRegs.refl s) fun u i hi => (WroteRegs.refl u).wn ⟨i, List.mem_range.1 hi, rfl⟩

theorem State.clearIssue_rn (s : State) (g : Nat) {i : Nat} (hi : i < 4) : (s.clearIssue g).rn .ISSUE g i = 0 := by
  refine foldl_reaches (P := fun u => u.rn .ISSUE g i = 0) (f := fun u j => u.wn .ISSUE g j 0) (x := i) (fun u => u.rn_wn_zero ..)
    (fun u j hu => ?_) (List.mem_range.2 hi) s
  by_cases hj : j = i
  · subst hj
    exact State.rn_wn_zero ..
  · exact (congrArg BitVec.toNat (State.rd_wr_other _ _ (Reg.key_ne_entry _ _ (Ne.symm hj)))).trans hu

/-- Settles O22: the drain's rows write the entries in their slots, and the other commands are one write each. -/
theorem drainAndZeroing : Obligations.DrainAndZeroing := by
  unfold Obligations.DrainAndZeroing
  refine ⟨?drain, fun g s hz => ?_, fun c r hc g s => ?_, fun g s => ?_⟩
  case drain =>
    intro g s q eb m lam nw slot epf eps db dsb epb drs ers js jb seed step cfg tid hz hq hs hop hland hnw hdrs he hl
    obtain ⟨n, hexec⟩ := mdrainGrant_eq hz hq hs hop hland hnw he hl
    obtain ⟨ps, hcore⟩ := State.core_granted hq 2 n
    have hedge (c e : Nat) : (s.granted g 2 q n).edgeAt g c e = s.edgeAt g c e := by rw [State.edgeAt, hcore, State.edgeAt]
    have hl' : (s.granted g 2 q n).m.lerr = [] := hl
    have honly := State.drainRows_only hl' (g := g) (eb := eb) (nw := nw) (db := db) (drs := drs)
      (f := (s.granted g 2 q n).flaskOf q.who) (m := m)
    refine ⟨_, hexec, by rw [honly.core, hcore], by rw [honly.core, hcore], fun r c hr hc => ?_, fun o ho => ?_⟩
    · rw [← hedge]
      exact (State.le_of_bytes (State.drainRows_at hl' hdrs hr hc) (Nat.lt_trans (BitVec.isLt _) (by decide))).symm
    · exact State.drainRows_byte hl' ho
  · exact ⟨_, congrArg Host.Outcome.next (if_pos hz), onlyCore_modCore (if_pos hz)⟩
  · have hexec : exec (c g) s = .next (s.wn r g 0 0) := by
      rcases hc with ⟨rfl, rfl⟩ | ⟨rfl, rfl⟩ | ⟨rfl, rfl⟩ | ⟨rfl, rfl⟩ | ⟨rfl, rfl⟩ | ⟨rfl, rfl⟩
      all_goals rfl
    exact ⟨_, hexec, s.rn_wn_zero r g 0, rfl, fun d k hk => Sparse.get_set_other _ _ _ _ hk⟩
  · have hw := s.clearIssue_wrote g
    exact ⟨_, rfl, fun i hi => s.clearIssue_rn g hi, hw.only, fun d k hk => hw.frame d k fun ⟨i, hi, h⟩ => hk i hi h⟩

end Sys2Proof.Machine
end

section
/-! PROOF. Conditions of a core: the end of a split's zeroing, guaranteed mode, sequencer mismatch and quarantine (R115, R126, R141, R143,
R409): O34. -/

set_option Elab.async false

namespace Sys2Proof.Machine

/-! ### Records -/

theorem State.logTo_records (s : State) (f c n : Nat) : (s.logTo f c n).records = s.records := by rw [State.logTo_only]

/-- With room in the ring, a record is kept at its end (R545). -/
theorem State.record_kept {s : State} (h : s.records.length < 4096) (cls code src inst : Nat) (fl : Option Nat) (d0 d1 d2 : Nat) :
    ∃ r, (s.record cls code src inst fl d0 d1 d2).records = s.records ++ [r] ∧ r.cls = cls ∧ r.code = code ∧ r.inst = inst
      ∧ r.flask = fl := by
  have hkeep (o : List Out) (r : Record) : (State.keep { s with out := o } r).records = s.records ++ [r] := by
    rw [State.keep, if_pos h]
  unfold State.record
  by_cases hnet : s.rf .NET 0 0 48 48 = 1 <;> cases fl <;> simp only [hnet, if_true, if_false, State.logTo_records, State.wn_records]
  · exact ⟨_, hkeep .., rfl, rfl, rfl, rfl⟩
  · exact ⟨_, hkeep .., rfl, rfl, rfl, rfl⟩
  · exact ⟨_, hkeep s.out _, rfl, rfl, rfl, rfl⟩
  · exact ⟨_, hkeep s.out _, rfl, rfl, rfl, rfl⟩

/-! ### Quarantine -/

/-- A quarantine changes its core, QMAP, the shake-outs under way and the notices in flight (R143, R409). -/
theorem State.quarantine_eq (s : State) (g : Nat) : ∃ q, s.quarantine g
    = { (s.modCore g Core.quarantined).wn .QMAP 0 (g / 64) (setFld (s.rn .QMAP 0 (g / 64)) (g % 64) (g % 64) 0) with
        queue := q, notices := s.notices ++ (s.residents g).flatMap (s.quarNotices g) } := by
  unfold State.quarantine
  extract_lets ns s1 s2 s3
  obtain ⟨q, h⟩ : ∃ q, s3 = { s2 with queue := q } := foldl_setQ_only _ _ s2
  exact ⟨q, by rw [h]; rfl⟩

/-- The notices of a quarantine, with the place of the guest's first group (R449). -/
theorem State.quarantine_notices (s : State) (g : Nat) : ∃ q pc, (s.quarantine g).notices
    = s.notices ++ (s.residents g).flatMap fun f => .stepEv f 3 :: (if s.isGuest f then [.fault f 7 g .g q pc 0] else []) := by
  obtain ⟨q, h⟩ := s.quarantine_eq g
  rw [h]
  exact ⟨_, _, rfl⟩

theorem State.quarantine_records (s : State) (g : Nat) : (s.quarantine g).records = s.records := by
  obtain ⟨q, h⟩ := s.quarantine_eq g
  rw [h]
  rfl

theorem State.quarantine_reqs (s : State) (g : Nat) : (s.quarantine g).reqs = s.reqs := by
  obtain ⟨q, h⟩ := s.quarantine_eq g
  rw [h]
  rfl

theorem State.quarantine_quarDue (s : State) (g : Nat) : (s.quarantine g).quarDue = s.quarDue := by
  obtain ⟨q, h⟩ := s.quarantine_eq g
  rw [h]
  rfl

theorem State.quarantine_inSvc_same (s : State) (g : Nat) : (s.quarantine g).inSvc g = false := by
  rw [State.inSvc, State.quarantine_rn, ← State.pllQuarantine_rn _ _ (by decide)]
  exact s.pllQuarantine_inSvc_same g

theorem State.quarantine_inSvc_other (s : State) {g h : Nat} (hne : h ≠ g) : (s.quarantine g).inSvc h = s.inSvc h := by
  have hm := Nat.mod_lt h (show 0 < 64 by decide)
  rw [State.inSvc, State.quarantine_rn, State.inSvc]
  by_cases hk : h / 64 = g / 64
  · rw [hk, State.rn_wn_same, ← fld_bit, fld_mod _ _ _ _ hm, fld_setFld_other _ _ (Nat.le_succ _) (by omega), fld_bit]
  · rw [show (s.wn .QMAP 0 (g / 64) (setFld (s.rn .QMAP 0 (g / 64)) (g % 64) (g % 64) 0)).rn .QMAP 0 (h / 64) = s.rn .QMAP 0 (h / 64)
      from congrArg BitVec.toNat (State.rd_wr_other _ _ (Reg.key_ne_entry _ _ hk))]

/-- What a quarantine with its record does, whatever is written to registers other than QMAP and those of records in between. -/
structure Quarantined (g code : Nat) (s t : State) : Prop where
  core : t.core g = { s.core g with stop := [4, 4, 4, 4], quar := true }
  others : ∀ h, h ≠ g → t.core h = s.core h
  away : t.inSvc g = false
  kept : ∀ h, h ≠ g → t.inSvc h = s.inSvc h
  notices : ∃ q pc, t.notices
    = s.notices ++ (s.residents g).flatMap fun f => .stepEv f 3 :: (if s.isGuest f then [.fault f 7 g .g q pc 0] else [])
  record : ∃ r, t.records = s.records ++ [r] ∧ r.cls = 3 ∧ r.code = code ∧ r.inst = g ∧ r.flask = none
  mem : t.mem = s.mem
  reqs : t.reqs = s.reqs

/-- Nothing of it turns on the cores whose quarantine is due. -/
theorem Quarantined.of_due {g code : Nat} {s t : State} {d : List Nat} (h : Quarantined g code { s with quarDue := d } t) :
    Quarantined g code s t := by
  obtain ⟨q, pc, hnotes⟩ := h.notices
  have hpat : ({ s with quarDue := d } : State).pat = s.pat := rfl
  have hres : ({ s with quarDue := d } : State).residents g = s.residents g := by
    rw [State.residents, State.guestOf_of_pat hpat]
    rfl
  simp only [hres, State.isGuest_of_pat hpat] at hnotes
  exact ⟨h.core, h.others, h.away, h.kept, ⟨q, pc, hnotes⟩, h.record, h.mem, h.reqs⟩

/-- The quarantine of a core with room in the ring, where registers other than QMAP may be written before the record is made. -/
theorem quarantined_record {s u : State} {g : Nat} (hlen : s.records.length < 4096) (hu : u = { s.quarantine g with regs := u.regs })
    (hq : ∀ j, u.rn .QMAP 0 j = (s.quarantine g).rn .QMAP 0 j) (code d0 : Nat) :
    Quarantined g code s (u.record 3 code 4 g none d0 0 0) := by
  have hcore (h : Nat) : (u.record 3 code 4 g none d0 0 0).core h = if h = g then (s.core g).quarantined else s.core h := by
    rw [← s.quarantine_core g h, State.record_only, hu]
    rfl
  have hsvc (h : Nat) : (u.record 3 code 4 g none d0 0 0).inSvc h = (s.quarantine g).inSvc h := by
    rw [State.inSvc, State.record_rn _ _ _ _ _ _ _ _ _ (by decide) (by decide), hq, State.inSvc]
  refine ⟨by rw [hcore, if_pos rfl, Core.quarantined_eq], fun h hh => by rw [hcore, if_neg hh], (hsvc g).trans (s.quarantine_inSvc_same g),
    fun h hh => (hsvc h).trans (s.quarantine_inSvc_other hh), ?_, ?_, ?_, ?_⟩
  · rw [State.record_only, hu]
    exact s.quarantine_notices g
  · have hr : u.records = s.records := by rw [hu]; exact s.quarantine_records g
    rw [← hr]
    exact State.record_kept (by rw [hr]; exact hlen) ..
  · rw [State.record_only, hu]
    exact s.quarantine_mem g
  · rw [State.record_only, hu]
    exact s.quarantine_reqs g

/-- No stream of a quarantined core issues. -/
theorem Core.runs_quarantined {c d : Core} (h : c = { d with stop := [4, 4, 4, 4], quar := true }) (st : Stream) :
    c.runs st = false := by
  rw [h]
  cases st <;> rfl

/-! ### Sequencer mismatch (R143) -/

/-- The first mismatched pair is kept in COR_SEQMM. -/
def State.seqmm (s : State) (g : Nat) (st : Stream) : State :=
  if s.rf .SEQMM g 0 0 0 = 0 then s.wn .SEQMM g 0 (1 + streamNum st * 2) else s

theorem State.seqmm_only (s : State) (g : Nat) (st : Stream) : s.seqmm g st = { s with regs := (s.seqmm g st).regs } := by
  unfold State.seqmm
  split <;> rfl

theorem State.seqmm_rn_other (s : State) (g : Nat) (st : Stream) {r : Reg} (h : r ≠ .SEQMM) (i j : Nat) :
    (s.seqmm g st).rn r i j = s.rn r i j := by
  unfold State.seqmm
  split
  · exact State.rn_wn_other _ h ..
  · rfl

theorem State.seqmm_rn (s : State) (g : Nat) (st : Stream) :
    (s.seqmm g st).rn .SEQMM g 0 = if s.rf .SEQMM g 0 0 0 = 0 then 1 + 2 * streamNum st else s.rn .SEQMM g 0 := by
  unfold State.seqmm
  split
  · rw [State.rn_wn_same]
    cases st <;> rfl
  · rfl

theorem sequencerMismatch_eq {s : State} {g : Nat} {st : Stream} (hg : g < 4096) (hs : s.inSvc g = true)
    (ha : (s.core g).awake = true) :
    exec (.sequencerMismatch g st) s = .next (((s.quarantine g).seqmm g st).record 3 0x0010 4 g none
      (((s.quarantine g).seqmm g st).rn .SEQMM g 0) 0 0) :=
  congrArg Host.Outcome.next (if_neg (by simp [hs, ha]; omega))

/-! ### Quarantine by strikes, and the reset that follows one (R115, R409) -/

/-- What STRIKE_QUARANTINE leaves (R409). -/
def State.strikeQuarantined (s : State) (g : Nat) : State :=
  (State.quarantine { s with quarDue := NSet.del s.quarDue g } g).record 3 0x0011 4 g none (s.rn .STRIKE 0 g) 0 0

theorem strikeQuarantine_eq {s : State} {g : Nat} (h : s.quarDue.contains g = true) :
    exec (.strikeQuarantine g) s = .next (s.strikeQuarantined g) := congrArg Host.Outcome.next (if_pos h)

theorem strikeQuarantined {s : State} {g : Nat} (hlen : s.records.length < 4096) : Quarantined g 0x0011 s (s.strikeQuarantined g) :=
  (quarantined_record (s := { s with quarDue := NSet.del s.quarDue g }) (u := State.quarantine _ g) hlen rfl (fun _ => rfl) ..).of_due

theorem strikeQuarantined_due (s : State) (g : Nat) : (s.strikeQuarantined g).quarDue.contains g = false := by
  rw [State.strikeQuarantined, State.record_only]
  dsimp only
  rw [State.quarantine_quarDue]
  simpa [NSet.has] using NSet.has_del g g s.quarDue

theorem quarantineReset_eq {s : State} {g : Nat} (h : (s.core g).quar = true) (hh : s.quiet g false = true)
    (hg : s.quiet g true = true) :
    exec (.quarantineReset g) s = .next ((s.zeroArray g).modCore g fun c => { c with quar := false }) :=
  congrArg Host.Outcome.next (if_pos (by simp [h, hh, hg]))

/-- Settles O34: the two quarantines are one operation and its record; the other commands write one core or one register. -/
theorem coreConditions : Obligations.CoreConditions := by
  unfold Obligations.CoreConditions
  refine ⟨fun g s hz => ?_, fun g s hg hm => ?_, fun g s hg hm => ?_, fun g st s hg hs ha hlen => ?_, fun g s hq hh hg => ?_,
    fun g s hdue hlen => ?_⟩
  · exact ⟨_, congrArg Host.Outcome.next (if_pos hz), State.core_modCore_same s g fun c => { c with zbusy := false },
      State.rf_wf_same _ _ _ _ _ (by decide) (by decide), State.rf_wf_apart _ _ _ _ _ (by decide) (by decide) (by decide), rfl,
      fun h hh => State.core_modCore_other s (fun c => { c with zbusy := false }) hh⟩
  · refine ⟨_, congrArg Host.Outcome.next (if_pos (by simp [hg, hm])), rfl, ?_, ?_, ?_⟩
    all_goals exact State.rf_wn_same _ _ _ _ _ _ (by decide)
  · exact ⟨_, congrArg Host.Outcome.next (if_pos (by simp [hg, hm])), rfl, s.rn_wn_zero ..⟩
  · have hseq : (s.quarantine g).seqmm g st = { s.quarantine g with regs := ((s.quarantine g).seqmm g st).regs } :=
      State.seqmm_only (s.quarantine g) g st
    obtain ⟨hcore, hothers, haway, hkept, hnotes, ⟨r, hrec, hcls, hcode, hinst, hfl⟩, hmem, hreqs⟩ :=
      quarantined_record hlen hseq (fun j => State.seqmm_rn_other _ g st (by decide) 0 j) 0x0010
        (((s.quarantine g).seqmm g st).rn .SEQMM g 0)
    have hqmm : (s.quarantine g).rn .SEQMM g 0 = s.rn .SEQMM g 0 := by
      rw [State.quarantine_rn, State.rn_wn_other _ (by decide)]
    refine ⟨_, r, sequencerMismatch_eq hg hs ha, hcore, Core.runs_quarantined hcore, haway, fun h hh => ⟨hkept h hh, hothers h hh⟩, ?_,
      hnotes, hrec, hcls, hcode, hinst, hfl, hmem, hreqs⟩
    rw [State.record_rn _ _ _ _ _ _ _ _ _ (by decide) (by decide), State.seqmm_rn, State.rf_of_rn hqmm, hqmm]
  · have hcore := State.core_modCore_same (s.zeroArray g) g fun c => { c with quar := false }
    have hzero : (s.zeroArray g).core g = (s.core g).startZero := State.core_modCore_same ..
    rw [hzero] at hcore
    refine ⟨_, quarantineReset_eq hq hh hg, congrArg Core.zero hcore, congrArg Core.quar hcore, congrArg Core.edge hcore,
      congrArg Core.edgeP hcore, (congrArg Core.stop hcore).trans rfl, (congrArg Core.groups hcore).trans rfl, rfl, rfl, fun h hh => ?_⟩
    exact (State.core_modCore_other _ _ hh).trans (State.core_modCore_other _ Core.startZero hh)
  · obtain ⟨hcore, hothers, -, -, hnotes, ⟨r, hrec, hcls, hcode, hinst, -⟩, hmem, hreqs⟩ := strikeQuarantined (g := g) hlen
    exact ⟨_, r, strikeQuarantine_eq hdue, hcore, hothers, strikeQuarantined_due s g, hnotes, hrec, hcls, hcode, hinst, hmem, hreqs⟩

end Sys2Proof.Machine
end

section
/-! PROOF. Lanes written by the vector instructions (R132, R171, R176): O5. -/

set_option Elab.async false

namespace Sys2Proof.Machine

/-- Register `d` of the lanes `ls` written, each with its value and poison. -/
def Group.setLanes (gr : Group) (d : Nat) (val : Nat → Word32 × Bool) (ls : List Nat) : Group :=
  ls.foldl (fun h l => h.setLane d l (val l).1 (val l).2) gr

theorem Group.lane_setLanes (gr : Group) (d : Nat) (val : Nat → Word32 × Bool) {ls : List Nat} (hls : ∀ l ∈ ls, l < 64) {r l : Nat}
    (hl : l < 64) : (gr.setLanes d val ls).lane r l = (if r = d ∧ l ∈ ls then (val l).1 else gr.lane r l)
      ∧ (gr.setLanes d val ls).laneP r l = (if r = d ∧ l ∈ ls then (val l).2 else gr.laneP r l) := by
  induction ls generalizing gr with
  | nil => simp [Group.setLanes]
  | cons a ls ih =>
    obtain ⟨hv, hp⟩ := ih (gr.setLane d a (val a).1 (val a).2) fun b hb => hls b (List.mem_cons_of_mem a hb)
    have ha : a < 64 := hls a List.mem_cons_self
    refine ⟨hv.trans ?_, hp.trans ?_⟩ <;> by_cases hmem : r = d ∧ l ∈ ls
    · simp [hmem]
    · by_cases h : r = d ∧ l = a
      · obtain ⟨rfl, rfl⟩ := h
        simp
      · rw [if_neg hmem, if_neg (by simp; tauto), Group.lane_setLane_other _ _ _ (by omega)]
    · simp [hmem]
    · by_cases h : r = d ∧ l = a
      · obtain ⟨rfl, rfl⟩ := h
        simp
      · rw [if_neg hmem, if_neg (by simp; tauto), Group.laneP_setLane_other _ _ _ (by omega)]

/-- The lanes a vector instruction writes (R132), of a group that advances. -/
theorem wroteLanes_mapLanes (gr : Group) (n : Nat) (val : Nat → Word32 × Bool) :
    WroteLanes gr { gr.advance with v := (gr.mapLanes n val).v, vp := (gr.mapLanes n val).vp } (fld n 52 45) (fld n 55 53) val := by
  refine ⟨rfl, rfl, rfl, rfl, rfl, fun r l hl => ?_⟩
  have h := gr.lane_setLanes (fld n 52 45) (fun l => ((val l).1, (val l).2 || gr.maskP (mkOf n)))
    (ls := gr.onLanes (mkOf n)) (fun l h => (mem_onLanes.1 h).1) (r := r) hl
  simp only [mem_onLanes, hl, true_and] at h
  exact h

section
variable {x : Who} {w : BitVec 56} {s : State} {gr : Group} {q : VForm} {rp : Group → Nat → Bool}

/-- A legal vector instruction of a group that may issue retires with its effect. -/
theorem vector_retired {f : Group → Nat → Group → Group} (hi : Issues s x gr false (q.regs w.toNat))
    (hok : q.ok (s.rpl x) w.toNat = true) (hf : ∀ h z, Group.is z (f gr w.toNat h) = Group.is z h) :
    Retired x (f gr w.toNat gr.advance) (rp gr w.toNat) (s.fetched x gr.pc) (vector x q f rp w s) := by
  rw [vector, presentReg_issues hi (need_of hok)]
  exact retired_regEff _ _ hf ((s.fetched_group x x gr.pc).trans hi.here)

/-- A row that writes a lane register: `val` gives each lane's value and poison. -/
theorem vector_lanes (val : Group → Nat → Nat → Word32 × Bool) (hi : Issues s x gr false (q.regs w.toNat))
    (hok : q.ok (s.rpl x) w.toNat = true) :
    ∃ gr', Retired x gr' (rp gr w.toNat) (s.fetched x gr.pc)
        (vector x q (fun gr n h => { h with v := (gr.mapLanes n (val gr n)).v, vp := (gr.mapLanes n (val gr n)).vp }) rp w s)
      ∧ WroteLanes gr gr' (fld w.toNat 52 45) (fld w.toNat 55 53) (val gr w.toNat) :=
  ⟨_, vector_retired hi hok fun _ _ => rfl, wroteLanes_mapLanes gr w.toNat _⟩
end

theorem laneRow1_of {c : Who → BitVec 56 → Instr} {f g : Word32 → Word32} (hc : ∀ x w s, exec (c x w) s = .next (lane1 x f w s))
    (hfg : ∀ a, f a = g a) : laneRow1 c g := by
  intro x w s gr hi hok
  rw [hc, funext hfg]
  obtain ⟨gr', hr, hw⟩ := vector_lanes (rp := fun gr n => gr.readP n fun l => (gr.srcA n l).2)
    (fun gr n l => (g (gr.srcA n l).1, (gr.srcA n l).2)) hi hok
  exact ⟨_, gr', rfl, hr, hw⟩

theorem laneRow2_of {c : Who → BitVec 56 → Instr} {f g : Word32 → Word32 → Word32}
    (hc : ∀ x w s, exec (c x w) s = .next (lane2 x f w s)) (hfg : ∀ a b, f a b = g a b) : laneRow2 c g := by
  intro x w s gr hi hok
  rw [hc, funext fun a => funext (hfg a)]
  obtain ⟨gr', hr, hw⟩ := vector_lanes (rp := fun gr n => gr.readP n fun l => (gr.srcA n l).2 || (gr.srcB n l).2)
    (fun gr n l => (g (gr.srcA n l).1 (gr.srcB n l).1, (gr.srcA n l).2 || (gr.srcB n l).2)) hi hok
  exact ⟨_, gr', rfl, hr, hw⟩

theorem bit_within {v hi lo i : Nat} (h : fld v hi lo = 0) (hlo : lo ≤ i) (hhi : i ≤ hi) : bit v i = 0 := by
  have hf : fld v i i = 0 := fld_within h hlo hhi
  simpa [fld, bit] using hf

theorem Group.readP_none (gr : Group) (n : Nat) : (gr.readP n fun _ => false) = gr.maskP (fld n 55 53) := by
  simp [Group.readP, mkOf]

/-- The form of LID (R176): no source. -/
theorem lidForm_word {n rpl : Nat} (h : fld n 44 0 = 0) (hd : fld n 52 45 < rpl) :
    ({ laneForm 1 with a := .none, flags := false } : VForm).regs n = [fld n 52 45]
      ∧ ({ laneForm 1 with a := .none, flags := false } : VForm).ok rpl n = true := by
  have hbit (i : Nat) (hi : i ≤ 44) : bit n i = 0 := bit_within h i.zero_le hi
  have hfld (hi lo : Nat) (hhi : hi ≤ 44) : fld n hi lo = 0 := fld_within h lo.zero_le hhi
  simp [VForm.regs, VForm.ok, laneForm, srcRegs, srcOk, hbit, hfld, hd]

/-! ### Word arithmetic modulo 2^32 -/

theorem sub_eq_ofInt (a b : Word32) : a - b = BitVec.ofInt 32 ((a.toNat : Int) - b.toNat) := by
  refine BitVec.eq_of_toNat_eq ?_
  rw [BitVec.toNat_ofInt, BitVec.toNat_sub]
  omega

theorem shiftLeft_eq_ofNat (a : Word32) (k : Nat) : a <<< k = BitVec.ofNat 32 (a.toNat * 2 ^ k) :=
  BitVec.eq_of_toNat_eq (by simp [Nat.shiftLeft_eq])

theorem ushiftRight_eq_ofNat (a : Word32) (k : Nat) : a >>> k = BitVec.ofNat 32 (a.toNat / 2 ^ k) := by
  refine BitVec.eq_of_toNat_eq ?_
  rw [BitVec.toNat_ushiftRight, BitVec.toNat_ofNat, Nat.shiftRight_eq_div_pow]
  exact (Nat.mod_eq_of_lt (Nat.lt_of_le_of_lt (Nat.div_le_self ..) a.isLt)).symm

theorem sshiftRight_eq_ofInt (a : Word32) (k : Nat) : a.sshiftRight k = BitVec.ofInt 32 (a.toInt / 2 ^ k) := by
  rw [BitVec.sshiftRight, Int.shiftRight_eq_div_pow]
  norm_cast

/-- Bit 31 cleared. -/
theorem and_low31_eq_ofNat (a : Word32) : a &&& 0x7FFF_FFFF = BitVec.ofNat 32 (a.toNat % 2 ^ 31) := by
  refine BitVec.eq_of_toNat_eq ?_
  rw [BitVec.toNat_and, BitVec.toNat_ofNat, Nat.mod_eq_of_lt (by omega)]
  exact Nat.and_two_pow_sub_one_eq_mod a.toNat 31

/-- Bit 31 inverted: the carry out of it is lost. -/
theorem xor_bit31_eq_ofNat (a : Word32) : a ^^^ 0x8000_0000 = BitVec.ofNat 32 (a.toNat + 2 ^ 31) := by
  refine BitVec.eq_of_getLsbD_eq fun i hi => ?_
  rw [BitVec.getLsbD_xor, BitVec.getLsbD_ofNat, decide_eq_true hi, Bool.true_and, Nat.add_comm]
  have hbit : (0x8000_0000 : Word32).getLsbD i = decide (31 = i) :=
    (congrArg (Nat.testBit · i) (show (0x8000_0000 : Word32).toNat = 2 ^ 31 by decide)).trans Nat.testBit_two_pow
  rcases Nat.lt_or_eq_of_le (Nat.le_of_lt_succ hi) with h | rfl
  · rw [hbit, Nat.testBit_two_pow_add_gt h, decide_eq_false (Nat.ne_of_gt h)]
    exact Bool.xor_false _
  · rw [Nat.testBit_two_pow_add_eq]
    exact Bool.xor_true _

/-! ### The rows -/

/-- Settles O5: each row is a vector instruction with its operation (log entry 16 for the poison under a poisoned mask); what is left is
that the model's word operation is the one R176 names modulo 2^32. -/
theorem vectorInteger : Obligations.VectorInteger := by
  unfold Obligations.VectorInteger
  refine ⟨?iadd, ?isub, ?iand, ?ior, ?ixor, ?ishl, ?ishr, ?isar, ?imov, ?fabs, ?fneg, ?lid, ?sel⟩
  case iadd => exact laneRow2_of (f := fun a b => a + b) (fun _ _ _ => rfl) fun a b => by bv_omega
  case isub => exact laneRow2_of (f := fun a b => a - b) (fun _ _ _ => rfl) fun a b => sub_eq_ofInt a b
  case iand => exact laneRow2_of (fun _ _ _ => rfl) fun a b => rfl
  case ior => exact laneRow2_of (fun _ _ _ => rfl) fun a b => rfl
  case ixor => exact laneRow2_of (fun _ _ _ => rfl) fun a b => rfl
  case ishl => exact laneRow2_of (fun _ _ _ => rfl) fun a b => shiftLeft_eq_ofNat a _
  case ishr => exact laneRow2_of (fun _ _ _ => rfl) fun a b => ushiftRight_eq_ofNat a _
  case isar => exact laneRow2_of (fun _ _ _ => rfl) fun a b => sshiftRight_eq_ofInt a _
  case imov => exact laneRow1_of (fun _ _ _ => rfl) fun _ => rfl
  case fabs => exact laneRow1_of (fun _ _ _ => rfl) fun a => and_low31_eq_ofNat a
  case fneg => exact laneRow1_of (fun _ _ _ => rfl) fun a => xor_bit31_eq_ofNat a
  case lid =>
    intro x w s gr hi hd h
    obtain ⟨hregs, hok⟩ := lidForm_word (rpl := s.rpl x) h hd
    obtain ⟨gr', hr, hw⟩ := vector_lanes (q := { laneForm 1 with a := .none, flags := false })
      (rp := fun gr n => gr.readP n fun _ => false) (fun _ _ l => (BitVec.ofNat 32 l, false)) (by rwa [hregs]) hok
    rw [Group.readP_none] at hr
    exact ⟨_, gr', rfl, hr, hw⟩
  case sel =>
    intro x w s gr q k hi hok
    obtain ⟨gr', hr, hw⟩ := vector_lanes (rp := fun gr n => gr.maskP (fld n 28 21)
        || gr.readP n fun l => (gr.srcA n l).2 || (gr.srcB n l).2)
      (fun gr n l => ((if gr.on (fld n 28 21) l then gr.srcA n l else gr.srcB n l).1,
        (if gr.on (fld n 28 21) l then gr.srcA n l else gr.srcB n l).2 || gr.maskP (fld n 28 21))) hi hok
    simp only [apply_ite Prod.fst, apply_ite Prod.snd] at hw
    exact ⟨_, gr', _, rfl, hr, hw⟩
end Sys2Proof.Machine
end

section
/-! PROOF. Moves across lanes, the wide format and its tree in the vector unit (R144, R145, R176): O8. -/

set_option Elab.async false

namespace Sys2Proof.Machine

/-! ### Registers of one lane -/

/-- `k` registers of lane `l` from `r` on written with `val`, all with the poison `p`. -/
def Group.setRegs (gr : Group) (r l k : Nat) (val : Nat → Word32) (p : Bool) : Group :=
  (List.range k).foldl (fun h i => h.setLane (r + i) l (val i) p) gr

theorem Group.lane_setRegs (gr : Group) (r k : Nat) {l l' : Nat} (val : Nat → Word32) (p : Bool) (hl : l < 64) (hl' : l' < 64) (r' : Nat) :
    (gr.setRegs r l k val p).lane r' l' = (if r ≤ r' ∧ r' < r + k ∧ l' = l then val (r' - r) else gr.lane r' l')
      ∧ (gr.setRegs r l k val p).laneP r' l' = (if r ≤ r' ∧ r' < r + k ∧ l' = l then p else gr.laneP r' l') := by
  induction k with
  | zero => exact ⟨(if_neg (by omega)).symm, (if_neg (by omega)).symm⟩
  | succ k ih =>
    have hs : gr.setRegs r l (k + 1) val p = (gr.setRegs r l k val p).setLane (r + k) l (val k) p := by
      rw [Group.setRegs, List.range_succ, List.foldl_append]
      rfl
    rw [hs]
    by_cases h : r' = r + k ∧ l' = l
    · obtain ⟨rfl, rfl⟩ := h
      rw [Group.lane_setLane_same, Group.laneP_setLane_same, if_pos (by omega), if_pos (by omega), Nat.add_sub_cancel_left]
      exact ⟨rfl, rfl⟩
    · rw [Group.lane_setLane_other _ _ _ (by omega), Group.laneP_setLane_other _ _ _ (by omega), ih.1, ih.2]
      exact ⟨if_congr (by omega) rfl rfl, if_congr (by omega) rfl rfl⟩

/-! ### Quads (R144) -/

/-- What register `i` of a quad that holds `w` holds: 32 bits of it, and in the last register zero. -/
def quadReg (w : Wide) (i : Nat) : Word32 := if i < 3 then BitVec.ofNat 32 (w.toNat / 2 ^ (32 * i)) else 0

theorem Group.setQuad_eq (gr : Group) (r l : Nat) (w : Wide) (p : Bool) : gr.setQuad r l w p = gr.setRegs r l 4 (quadReg w) p := by
  simp [Group.setQuad, Group.setRegs, List.range_succ, quadReg]

/-- A quad written reads back as the value. -/
theorem Group.quad_of_regs {gr : Group} {r l : Nat} {w : Wide} (h : ∀ i, i < 4 → gr.lane (r + i) l = quadReg w i) : gr.quad r l = w := by
  have hw := w.isLt
  rw [Group.quad, h 2 (by decide), h 1 (by decide), ← Nat.add_zero r, Nat.add_assoc, h 0 (by decide)]
  refine BitVec.eq_of_toNat_eq ?_
  simp only [quadReg, BitVec.toNat_ofNat, Nat.reduceLT, if_true]
  omega

/-- The quads of some lanes written, each with its value and poison. -/
def Group.setQuads (gr : Group) (d : Nat) (val : Nat → Wide × Bool) (ls : List Nat) : Group :=
  ls.foldl (fun h l => h.setQuad d l (val l).1 (val l).2) gr

theorem Group.lane_setQuads (gr : Group) (d : Nat) (val : Nat → Wide × Bool) {ls : List Nat} (hls : ∀ l ∈ ls, l < 64) {r l : Nat}
    (hl : l < 64) :
    (gr.setQuads d val ls).lane r l = (if d ≤ r ∧ r < d + 4 ∧ l ∈ ls then quadReg (val l).1 (r - d) else gr.lane r l)
      ∧ (gr.setQuads d val ls).laneP r l = (if d ≤ r ∧ r < d + 4 ∧ l ∈ ls then (val l).2 else gr.laneP r l) := by
  induction ls generalizing gr with
  | nil => simp [Group.setQuads]
  | cons a ls ih =>
    obtain ⟨hv, hp⟩ := ih (gr.setQuad d a (val a).1 (val a).2) fun b hb => hls b (List.mem_cons_of_mem a hb)
    obtain ⟨ha, hap⟩ := gr.lane_setRegs d 4 (quadReg (val a).1) (val a).2 (hls a List.mem_cons_self) hl r
    rw [← Group.setQuad_eq] at ha hap
    rw [Group.setQuads, List.foldl_cons, ← Group.setQuads, hv, hp, ha, hap]
    by_cases h : l = a <;> grind

/-- The quads a vector instruction writes (R132, R144), of a group that advances. -/
theorem wroteQuads_mapQuads (gr : Group) (n : Nat) (val : Nat → Wide × Bool) :
    WroteQuads gr { gr.advance with v := (gr.mapQuads n val).v, vp := (gr.mapQuads n val).vp } (fld n 52 45) (fld n 55 53) val := by
  have h (r l : Nat) (hl : l < 64) := gr.lane_setQuads (fld n 52 45) (fun l => ((val l).1, (val l).2 || gr.maskP (mkOf n)))
    (ls := gr.onLanes (mkOf n)) (fun l h => (mem_onLanes.1 h).1) (r := r) hl
  simp only [mem_onLanes] at h
  refine ⟨rfl, rfl, rfl, rfl, rfl, fun l hl hon => ?_, fun r l hl hout => ?_⟩
  · have hreg (i : Nat) (hi : i < 4) := h (fld n 52 45 + i) l hl
    refine ⟨Group.quad_of_regs fun i hi => ?_, ?_, ?_, fun i hi => ?_⟩
    · refine (hreg i hi).1.trans ?_
      rw [if_pos ⟨by omega, by omega, hl, hon⟩, Nat.add_sub_cancel_left]
    · refine (hreg 3 (by decide)).1.trans ?_
      rw [if_pos ⟨by omega, by omega, hl, hon⟩, Nat.add_sub_cancel_left]
      rfl
    · refine lt_of_eq_of_lt (congrArg BitVec.toNat ((hreg 2 (by decide)).1.trans (if_pos ⟨by omega, by omega, hl, hon⟩))) ?_
      have hw := (val l).1.isLt
      simp only [Nat.add_sub_cancel_left, quadReg, Nat.reduceLT, if_true, BitVec.toNat_ofNat]
      omega
    · exact (hreg i hi).2.trans (if_pos ⟨by omega, by omega, hl, hon⟩)
  · have hno : ¬(fld n 52 45 ≤ r ∧ r < fld n 52 45 + 4 ∧ l < 64 ∧ gr.on (mkOf n) l = true) :=
      fun ⟨h1, h2, _, h3⟩ => hout ⟨h1, h2, h3⟩
    exact ⟨(h r l hl).1.trans (if_neg hno), (h r l hl).2.trans (if_neg hno)⟩

/-- Only the values of unmasked lanes count. -/
theorem Group.mapQuads_congr (gr : Group) {n : Nat} {val val' : Nat → Wide × Bool} (h : ∀ l ∈ gr.onLanes (mkOf n), val l = val' l) :
    gr.mapQuads n val = gr.mapQuads n val' :=
  List.foldl_ext _ _ _ fun _ l hl => by rw [h l hl]

theorem Group.readP_congr (gr : Group) {n : Nat} {f f' : Nat → Bool} (h : ∀ l ∈ gr.onLanes (mkOf n), f l = f' l) :
    gr.readP n f = gr.readP n f' := by
  refine congrArg (gr.maskP (mkOf n) || ·) (Bool.eq_iff_iff.2 ?_)
  rw [List.any_eq_true, List.any_eq_true]
  exact exists_congr fun l => and_congr_right fun hl => by rw [h l hl]

section
variable {x : Who} {w : BitVec 56} {s : State} {gr : Group}

/-- A row that writes an aligned quad: `val` gives each lane's value and poison. -/
theorem vector_quads {q : VForm} {rp : Group → Nat → Bool} (val : Group → Nat → Nat → Wide × Bool)
    (hi : Issues s x gr false (q.regs w.toNat)) (hok : q.ok (s.rpl x) w.toNat = true) :
    ∃ gr', Retired x gr' (rp gr w.toNat) (s.fetched x gr.pc)
        (vector x q (fun gr n h => { h with v := (gr.mapQuads n (val gr n)).v, vp := (gr.mapQuads n (val gr n)).vp }) rp w s)
      ∧ WroteQuads gr gr' (fld w.toNat 52 45) (fld w.toNat 55 53) (val gr w.toNat) :=
  ⟨_, vector_retired hi hok fun _ _ => rfl, wroteQuads_mapQuads gr w.toNat _⟩

/-! ### The words of the rows across lanes -/

/-- The word of PERM (R176): two lane sources, no flags. -/
theorem permForm_word {n rpl : Nat} (hd : fld n 52 45 < rpl) (ha : fld n 44 37 < rpl) (hb : fld n 36 29 < rpl) (h : fld n 28 0 = 0) :
    ({ laneForm 2 with flags := false } : VForm).regs n = [fld n 52 45, fld n 44 37, fld n 36 29]
      ∧ ({ laneForm 2 with flags := false } : VForm).ok rpl n = true ∧ bit n 17 = 0 ∧ bit n 19 = 0 ∧ bit n 20 = 0 := by
  have hbit (i : Nat) (hi : i ≤ 28) : bit n i = 0 := bit_within h i.zero_le hi
  have hfld (hi lo : Nat) (hhi : hi ≤ 28) : fld n hi lo = 0 := fld_within h lo.zero_le hhi
  simp [VForm.regs, VForm.ok, laneForm, srcRegs, srcOk, hbit, hfld, hd, ha, hb]

/-- The bits between the lane number of IMM and VA are zero in the words of BCST and RDL. -/
theorem laneImm_word {n : Nat} (h : fld n 36 6 = 0) : bit n 20 = 0 ∧ bit n 19 = 0 ∧ bit n 18 = 0 ∧ bit n 17 = 0 ∧ bit n 16 = 0
    ∧ fld n 36 29 = 0 ∧ fld n 28 21 = 0 ∧ fld n 15 0 < 64 := by
  have hbit (i : Nat) (hlo : 6 ≤ i) (hi : i ≤ 36) : bit n i = 0 := bit_within h hlo hi
  have himm : fld n 15 6 = 0 := fld_within h (by decide) (by decide)
  exact ⟨hbit 20 (by decide) (by decide), hbit 19 (by decide) (by decide), hbit 18 (by decide) (by decide),
    hbit 17 (by decide) (by decide), hbit 16 (by decide) (by decide), fld_within h (by decide) (by decide),
    fld_within h (by decide) (by decide), fld_lt_of_upper himm (by decide)⟩

theorem Group.srcA_lane {n : Nat} (gr : Group) (h : bit n 20 = 0) (l : Nat) :
    gr.srcA n l = (gr.lane (fld n 44 37) l, gr.laneP (fld n 44 37) l) := if_neg (by simp [h])

theorem Group.srcB_lane {n : Nat} (gr : Group) (h17 : bit n 17 = 0) (h19 : bit n 19 = 0) (l : Nat) :
    gr.srcB n l = (gr.lane (fld n 36 29) l, gr.laneP (fld n 36 29) l) := by
  simp [Group.srcB, Group.src, h17, h19]

theorem perm_moves (hi : Issues s x gr false [fld w.toNat 52 45, fld w.toNat 44 37, fld w.toNat 36 29])
    (hd : fld w.toNat 52 45 < s.rpl x) (ha : fld w.toNat 44 37 < s.rpl x) (hb : fld w.toNat 36 29 < s.rpl x)
    (h : fld w.toNat 28 0 = 0) :
    let src l := (gr.lane (fld w.toNat 36 29) l).toNat % 64
    ∃ t gr' p, exec (.perm x w) s = .next t ∧ Retired x gr' p (s.fetched x gr.pc) t
      ∧ WroteLanes gr gr' (fld w.toNat 52 45) (fld w.toNat 55 53) fun l => (gr.lane (fld w.toNat 44 37) (src l),
          gr.laneP (fld w.toNat 44 37) (src l) || gr.laneP (fld w.toNat 36 29) l) := by
  obtain ⟨hregs, hok, h17, h19, h20⟩ := permForm_word hd ha hb h
  obtain ⟨gr', hr, hw⟩ := vector_lanes (q := { laneForm 2 with flags := false })
    (rp := fun gr n => gr.readP n fun l => (gr.srcA n ((gr.srcB n l).1.toNat % 64)).2 || (gr.srcB n l).2)
    (fun gr n l => ((gr.srcA n ((gr.srcB n l).1.toNat % 64)).1,
      (gr.srcA n ((gr.srcB n l).1.toNat % 64)).2 || (gr.srcB n l).2)) (by rwa [hregs]) hok
  simp only [gr.srcA_lane h20, gr.srcB_lane h17 h19] at hw
  exact ⟨_, gr', _, rfl, hr, hw⟩

theorem bcst_moves (hi : Issues s x gr false [fld w.toNat 52 45, fld w.toNat 44 37]) (hd : fld w.toNat 52 45 < s.rpl x)
    (ha : fld w.toNat 44 37 < s.rpl x) (h : fld w.toNat 36 6 = 0) :
    ∃ t gr' p, exec (.bcst x w) s = .next t ∧ Retired x gr' p (s.fetched x gr.pc) t
      ∧ WroteLanes gr gr' (fld w.toNat 52 45) (fld w.toNat 55 53) fun _ =>
          (gr.lane (fld w.toNat 44 37) (fld w.toNat 5 0), gr.laneP (fld w.toNat 44 37) (fld w.toNat 5 0)) := by
  obtain ⟨h20, h19, h18, h17, h16, hvb, hvc, himm⟩ := laneImm_word h
  have hregs : ({ laneForm 1 with flags := false, imm := 64 } : VForm).regs w.toNat = [fld w.toNat 52 45, fld w.toNat 44 37] := by
    simp [VForm.regs, laneForm, srcRegs, h20, h17]
  have hok : ({ laneForm 1 with flags := false, imm := 64 } : VForm).ok (s.rpl x) w.toNat = true := by
    simp [VForm.ok, laneForm, srcOk, h20, h19, h18, h17, h16, hvb, hvc, himm, hd, ha]
  obtain ⟨gr', hr, hw⟩ := vector_lanes (q := { laneForm 1 with flags := false, imm := 64 })
    (rp := fun gr n => gr.readP n fun _ => (gr.srcA n (fld n 5 0)).2) (fun gr n _ => gr.srcA n (fld n 5 0)) (by rwa [hregs]) hok
  simp only [gr.srcA_lane h20] at hw
  exact ⟨_, gr', _, rfl, hr, hw⟩

theorem rdl_reads (hi : Issues s x gr false [256 + fld w.toNat 52 45, fld w.toNat 44 37]) (hd : fld w.toNat 52 45 < 32)
    (ha : fld w.toNat 44 37 < s.rpl x) (h : fld w.toNat 36 6 = 0) (hmk : fld w.toNat 55 53 = 0) :
    let src := fld w.toNat 5 0
    ∃ t gr', exec (.rdl x w) s = .next t ∧ Retired x gr' (gr.laneP (fld w.toNat 44 37) src) (s.fetched x gr.pc) t
      ∧ WroteUnif gr gr' (fld w.toNat 52 45) ((gr.lane (fld w.toNat 44 37) src).setWidth 64) (gr.laneP (fld w.toNat 44 37) src) := by
  obtain ⟨h20, h19, h18, h17, h16, hvb, hvc, himm⟩ := laneImm_word h
  intro src
  have hregs : ({ d := .unif, a := .lane, b := .none, c := .none, flags := false, imm := 64, usesMk := false } : VForm).regs w.toNat
      = [256 + fld w.toNat 52 45, fld w.toNat 44 37] := by
    simp [VForm.regs, srcRegs, h20, h17, Nat.mod_eq_of_lt hd]
  have hok : ({ d := .unif, a := .lane, b := .none, c := .none, flags := false, imm := 64, usesMk := false } : VForm).ok (s.rpl x)
      w.toNat = true := by
    simp [VForm.ok, srcOk, h20, h19, h18, h17, h16, hvb, hvc, himm, hd, ha, hmk]
  have hr := vector_retired (rp := fun gr n => (gr.srcA n (fld n 5 0)).2) (f := fun gr n h =>
      h.setUnif (fld n 52 45) ((gr.srcA n (fld n 5 0)).1.setWidth 64) (gr.srcA n (fld n 5 0)).2) (hregs ▸ hi) hok fun _ _ => rfl
  simp only [gr.srcA_lane h20] at hr
  exact ⟨_, _, rfl, hr, wroteUnif_advance ..⟩

theorem wide_writes {c : Who → BitVec 56 → Instr} {f : Wide → Wide → Wide} (hc : ∀ x w s, exec (c x w) s = .next (quad2 x f w s))
    (hi : Issues s x gr false (quadForm.regs w.toNat)) (hok : quadForm.ok (s.rpl x) w.toNat = true) :
    ∃ t gr' p, exec (c x w) s = .next t ∧ Retired x gr' p (s.fetched x gr.pc) t
      ∧ WroteQuads gr gr' (fld w.toNat 52 45) (fld w.toNat 55 53) fun l =>
          (f (gr.quad (fld w.toNat 44 37) l) (gr.quad (fld w.toNat 36 29) l),
            gr.quadP (fld w.toNat 44 37) l || gr.quadP (fld w.toNat 36 29) l) := by
  obtain ⟨gr', hr, hw⟩ := vector_quads
    (rp := fun gr n => gr.readP n fun l => gr.quadP (fld n 44 37) l || gr.quadP (fld n 36 29) l)
    (fun gr n l => (f (gr.quad (fld n 44 37) l) (gr.quad (fld n 36 29) l), gr.quadP (fld n 44 37) l || gr.quadP (fld n 36 29) l)) hi hok
  exact ⟨_, gr', _, hc x w s, hr, hw⟩

/-! ### WTREE (R145) -/

/-- A fold that collects one result per element and leaves the state as it is. -/
theorem foldl_collect {α β σ : Type} {f : List β × σ → α → List β × σ} {u : σ} {g : α → β} {l : List α}
    (h : ∀ acc, ∀ a ∈ l, f (acc, u) a = (acc ++ [g a], u)) (acc : List β) : l.foldl f (acc, u) = (acc ++ l.map g, u) := by
  induction l generalizing acc with
  | nil => simp
  | cons a l ih =>
    rw [List.foldl_cons, h acc a List.mem_cons_self, ih fun acc b hb => h acc b (List.mem_cons_of_mem a hb), List.map_cons,
      List.append_assoc, List.singleton_append]

/-- What a table of the unmasked lanes holds for one of them. -/
theorem find?_pairs {α : Type} {ls : List Nat} (val : Nat → α) {l : Nat} (h : l ∈ ls) :
    ((ls.map fun l => (l, val l)).find? fun e => e.1 = l) = some (l, val l) := by
  induction ls with
  | nil => cases h
  | cons a ls ih =>
    by_cases hal : a = l
    · simp [hal]
    · rw [List.map_cons, List.find?_cons_of_neg (by simpa using hal)]
      exact ih ((List.mem_cons.1 h).resolve_left (Ne.symm hal))

/-- The nodes of lane `l` of a tree of `cnt` at `lb`, a level `st` lanes wide, with their poison. -/
def State.treeNodes (s : State) (g lb st cnt l : Nat) : List (Wide × Bool) :=
  (List.range cnt).map fun i => (wOfBytes (s.bytes (lsAt g (nodeAt lb st i l)) 10), s.poisoned (lsAt g (nodeAt lb st i l)) 16)

/-- The canonical tree of lane `l`, poisoned with any node or the descriptor (log entry 16). -/
def State.treeOf (s : State) (g lb st cnt : Nat) (p : Bool) (l : Nat) : Wide × Bool :=
  ((wtree (s.treeNodes g lb st cnt l)).1, (wtree (s.treeNodes g lb st cnt l)).2 || p)

/-- Reading the nodes where no word has a latent error and no output is on its way to local store. -/
theorem treeNodes_read {u : State} {g : Nat} (hl : u.m.lerr = []) (hc : (u.core g).calm = true) (lb st cnt : Nat) (on : List Nat) :
    (on.foldl (fun s l => (List.range cnt).foldl (fun s i => s.scrub (lsAt g (nodeAt lb st i l)) 16) s) u = u)
      ∧ on.foldl (fun (p : List (Nat × List (Wide × Bool)) × State) l =>
          let r := (List.range cnt).foldl (fun (q : List (Wide × Bool) × State) i =>
            let b := q.2.lsBytes g (nodeAt lb st i l) 10
            (q.1 ++ [(wOfBytes b.1, u.poisoned (lsAt g (nodeAt lb st i l)) 16)], b.2)) ([], p.2)
          (p.1 ++ [(l, r.1)], r.2)) ([], u) = (on.map fun l => (l, u.treeNodes g lb st cnt l), u) := by
  have hlane (l : Nat) : (List.range cnt).foldl (fun s i => s.scrub (lsAt g (nodeAt lb st i l)) 16) u = u :=
    List.foldl_fixed' (fun i => State.scrub_sound hl _ _) _
  refine ⟨List.foldl_fixed' hlane on, foldl_collect (fun acc l _ => ?_) []⟩
  dsimp only
  rw [foldl_collect (fun acc i _ => by rw [State.lsBytes_calm hc]) []]
  rfl

/-- The word of WTREE (R176). -/
theorem treeForm_word {n rpl : Nat} (hd4 : fld n 52 45 % 4 = 0) (hd : fld n 52 45 < rpl) (ha : fld n 44 37 < 32) (h : fld n 36 10 = 0) :
    ({ d := .quad, a := .unif, b := .none, c := .none, flags := false, imm := 1024, usesMk := true } : VForm).regs n
        = [fld n 52 45, fld n 52 45 + 1, fld n 52 45 + 2, fld n 52 45 + 3, 256 + fld n 44 37 % 32]
      ∧ ({ d := .quad, a := .unif, b := .none, c := .none, flags := false, imm := 1024, usesMk := true } : VForm).ok rpl n = true := by
  have hbit (i : Nat) (hlo : 10 ≤ i) (hi : i ≤ 36) : bit n i = 0 := bit_within h hlo hi
  have hfld (hi lo : Nat) (hlo : 10 ≤ lo) (hhi : hi ≤ 36) : fld n hi lo = 0 := fld_within h hlo hhi
  have himm : fld n 15 0 < 1024 := fld_lt_of_upper (hfld 15 10 (by decide) (by decide)) (by decide)
  simp [VForm.regs, VForm.ok, srcRegs, srcOk, hbit, hfld, hd4, hd, ha, himm]

theorem wtree_faults (hi : Issues s x gr false [fld w.toNat 52 45, fld w.toNat 52 45 + 1, fld w.toNat 52 45 + 2, fld w.toNat 52 45 + 3,
      256 + fld w.toNat 44 37 % 32]) (hd4 : fld w.toNat 52 45 % 4 = 0) (hd : fld w.toNat 52 45 < s.rpl x)
    (ha : fld w.toNat 44 37 < 32) (h : fld w.toNat 36 10 = 0)
    (hbad : fld (gr.unif (fld w.toNat 44 37)).toNat 19 0 % 16 ≠ 0 ∨ fld (gr.unif (fld w.toNat 44 37)).toNat 35 20 < 64) :
    ∃ t, exec (.wtree x w) s = .next t ∧ Faulted x 1 gr.pc 0 (s.fetched x gr.pc) t := by
  obtain ⟨hregs, hok⟩ := treeForm_word hd4 hd ha h
  rw [← hregs] at hi
  refine ⟨_, congrArg Host.Outcome.next (present_faults (e := (illegal, 0)) hi.here hi.runs hi.fetch hi.free ?_),
    faulted_raise (s.fetched x gr.pc) x illegal gr.pc 0⟩
  rw [hok]
  exact if_pos (by simpa using hbad)

theorem wtree_writes (hi : Issues s x gr false [fld w.toNat 52 45, fld w.toNat 52 45 + 1, fld w.toNat 52 45 + 2, fld w.toNat 52 45 + 3,
      256 + fld w.toNat 44 37 % 32]) (hd4 : fld w.toNat 52 45 % 4 = 0) (hd : fld w.toNat 52 45 < s.rpl x)
    (ha : fld w.toNat 44 37 < 32) (h : fld w.toNat 36 10 = 0) (hl : s.m.lerr = []) (hc : (s.core x.core).calm = true)
    {lb st : Nat} (hlb : lb = fld (gr.unif (fld w.toNat 44 37)).toNat 19 0) (hst : st = fld (gr.unif (fld w.toNat 44 37)).toNat 35 20)
    (hlb16 : lb % 16 = 0) (hst64 : 64 ≤ st)
    (hls : ∀ l i, l < 64 → gr.on (fld w.toNat 55 53) l = true → i ≤ fld w.toNat 9 0 →
      s.lsOk x.core (isG x.strm) (nodeAt lb st i l) 16 = true) :
    ∃ t gr' p, exec (.wtree x w) s = .next t ∧ Retired x gr' p (s.fetched x gr.pc) t
      ∧ WroteQuads gr gr' (fld w.toNat 52 45) (fld w.toNat 55 53) 
          (s.treeOf x.core lb st (fld w.toNat 9 0 + 1) (gr.unifP (fld w.toNat 44 37))) := by
  obtain ⟨hregs, hok⟩ := treeForm_word hd4 hd ha h
  rw [← hregs] at hi
  subst hlb hst
  have hhere := (s.fetched_group x x gr.pc).trans hi.here
  obtain ⟨gs, lq, hcore⟩ := State.core_issued hi.here
  obtain ⟨hscrub, hread⟩ := treeNodes_read (u := (s.fetched x gr.pc).retire x) (g := x.core)
    (by rw [State.retire_only, State.fetched_sound hl, State.poisEvent_only]; exact hl) (by rw [hcore]; exact hc)
    (fld (gr.unif (fld w.toNat 44 37)).toNat 19 0) (fld (gr.unif (fld w.toNat 44 37)).toNat 35 20) (fld w.toNat 9 0 + 1)
    (gr.onLanes (mkOf w.toNat))
  have hchk : ∀ l ∈ gr.onLanes (mkOf w.toNat), ((List.range (fld w.toNat 9 0 + 1)).all fun i =>
      s.lsOk x.core (isG x.strm) (nodeAt (fld (gr.unif (fld w.toNat 44 37)).toNat 19 0)
        (fld (gr.unif (fld w.toNat 44 37)).toNat 35 20) i l) 16) = true := fun l hl =>
    List.all_eq_true.2 fun i hi => hls l i (mem_onLanes.1 hl).1 (mem_onLanes.1 hl).2 (Nat.le_of_lt_succ (List.mem_range.1 hi))
  have hfind : ((gr.onLanes (mkOf w.toNat)).find? fun l => !((List.range (fld w.toNat 9 0 + 1)).all fun i =>
      s.lsOk x.core (isG x.strm) (nodeAt (fld (gr.unif (fld w.toNat 44 37)).toNat 19 0)
        (fld (gr.unif (fld w.toNat 44 37)).toNat 35 20) i l) 16)) = none :=
    List.find?_eq_none.2 fun l hl => by simp only [hchk l hl, Bool.not_true, Bool.false_eq_true, not_false_eq_true]
  let val := s.treeOf x.core (fld (gr.unif (fld w.toNat 44 37)).toNat 19 0) (fld (gr.unif (fld w.toNat 44 37)).toNat 35 20)
    (fld w.toNat 9 0 + 1) (gr.unifP (fld w.toNat 44 37))
  refine ⟨_, _, _, congrArg Host.Outcome.next ((presentReg_issues hi ?_).trans ?_),
    retired_regEff (fun h => { h with v := (gr.mapQuads w.toNat val).v, vp := (gr.mapQuads w.toNat val).vp })
      (gr.readP w.toNat fun l => (val l).2) (fun _ _ => rfl) hhere, wroteQuads_mapQuads gr w.toNat val⟩
  · dsimp only
    rw [if_neg (by simp [hok, hlb16, hst64]), hfind]
  · have hval : ∀ l ∈ gr.onLanes (mkOf w.toNat), _ = val l := fun l hl =>
      congrArg (fun ns => ((wtree ns).1, (wtree ns).2 || gr.unifP (fld w.toNat 44 37)))
        (congrArg (fun e => (e.map (·.2)).getD []) (find?_pairs (s.treeNodes x.core _ _ _) hl))
    dsimp only
    rw [hscrub, hread]
    rw [show ((s.fetched x gr.pc).retire x).treeNodes x.core = s.treeNodes x.core by
      rw [State.retire_only, State.fetched_sound hl, State.poisEvent_only]; rfl]
    rw [gr.mapQuads_congr hval, gr.readP_congr fun l hl => congrArg Prod.snd (hval l hl)]

end

/-- Settles O8: PERM, BCST and RDL are vector instructions whose sources are lanes of the group before the write, WADD, WMUL and WTREE
write quads; a poisoned mask or descriptor poisons what is written (log entry 16). -/
theorem crossLaneAndW80 : Obligations.CrossLaneAndW80 := by
  unfold Obligations.CrossLaneAndW80
  refine fun x w s gr => ⟨perm_moves, bcst_moves, rdl_reads, fun c f hcf hi hok => ?_,
    fun hi hd4 hd ha h hl hc => ⟨wtree_faults hi hd4 hd ha h, wtree_writes hi hd4 hd ha h hl hc rfl rfl⟩⟩
  rcases hcf with ⟨rfl, rfl⟩ | ⟨rfl, rfl⟩
  · exact wide_writes (fun _ _ _ => rfl) hi hok
  · exact wide_writes (fun _ _ _ => rfl) hi hok

end Sys2Proof.Machine
end

section
/-! PROOF. What returns to a core: load data, old values, acknowledgements and fills (R150, R151, R181, R254 to R256, R260): O27. -/

set_option Elab.async false
namespace Sys2Proof.Machine

/-! ### What came back for a request -/

/-- The first that meets a test, met by another test too. -/
theorem find?_and_of {α : Type} {p q : α → Bool} {l : List α} {a : α} (h : l.find? p = some a) (hq : q a = true) :
    l.find? (fun b => p b && q b) = some a := by
  induction l with
  | nil => cases h
  | cons b l ih =>
    by_cases hb : p b = true
    · have hab : b = a := by simpa [List.find?, hb] using h
      simp [List.find?, hab, hq, hab ▸ hb]
    · rw [List.find?_cons_of_neg hb] at h
      rw [List.find?_cons_of_neg (by simp [hb]), ih h]

theorem Answered.respOf {s : State} {id : Nat} {p : Resp} {ks : List RKind} (h : Answered s id p) (hk : ks.contains p.req.kind = true) :
    s.respOf id ks = some p := find?_and_of h.1 hk

theorem Answered.id_eq {s : State} {id : Nat} {p : Resp} (h : Answered s id p) : p.req.id = id := by
  simpa using List.find?_some h.1

/-! ### Settling a request (R254 to R256) -/

/-- A group once a request of it is over. -/
def Group.settled (id : Nat) (gr : Group) : Group :=
  { gr with stores := gr.stores.filter (· ≠ id), loads := gr.loads.filter (· ≠ id),
            acq := gr.acq.filter fun a => a.1 ≠ id, busy := gr.busy.filter fun b => b.1 ≠ id }

theorem State.core_settle_same (s : State) (g id : Nat) : (s.settle g id).core g = (s.core g).settle id := State.core_modCore_same ..

theorem State.core_settle_other (s : State) {g h : Nat} (id : Nat) (hh : h ≠ g) : (s.settle g id).core h = s.core h :=
  State.core_modCore_other _ _ hh

theorem State.group_settle_same (s : State) (x : Who) (id : Nat) : (s.settle x.core id).group x = (s.group x).map (Group.settled id) := by
  rw [State.group, State.core_settle_same]
  exact List.find?_map ..

theorem State.group_settle_peer (s : State) {g : Nat} {y : Who} (id : Nat) (h : y.core = g) :
    (s.settle g id).group y = (s.group y).map (Group.settled id) := h ▸ State.group_settle_same ..

theorem settled_settle (s : State) (g id : Nat) : Settled (s.settle g id) g id := by
  refine ⟨fun gr hgr => ?_, fun r hr => ?_, fun d hd => ?_⟩
  · rw [State.core_settle_same] at hgr
    obtain ⟨gr, -, rfl⟩ := List.mem_map.1 hgr
    simp
  · obtain ⟨r, -, rfl⟩ := List.mem_map.1 hr
    simp
  · rw [State.core_settle_same] at hd
    simpa using (List.mem_filter.1 hd).2

/-- A change of lanes ends no wait and begins none. -/
theorem Settled.modGroup {t : State} {x : Who} {id : Nat} (h : Settled t x.core id) {f : Group → Group} (hf : ∀ gr, LanesOnly gr (f gr)) :
    Settled (t.modGroup x f) x.core id := by
  obtain ⟨hgroups, hreqs, hdepart⟩ := h
  refine ⟨fun gr hgr => ?_, hreqs, fun d hd => ?_⟩
  · rw [State.modGroup, State.core_modCore_same] at hgr
    obtain ⟨gr, hmem, rfl⟩ := List.mem_map.1 hgr
    have := hgroups gr hmem
    split
    · rw [hf gr]
      exact this
    · exact this
  · rw [State.modGroup, State.core_modCore_same] at hd
    exact hdepart d hd

theorem Settled.poisEvent {t : State} {g id : Nat} (h : Settled t g id) (f : Nat) (p : Bool) : Settled (t.poisEvent f p) g id := by
  rw [State.poisEvent_only]
  exact h

/-! ### Loaded values of lanes (R150, R180) -/

theorem LanesOnly.putLoad {gr gr' : Group} (h : LanesOnly gr gr') (r sz conv l v : Nat) (p : Bool) :
    LanesOnly gr (gr'.putLoad r sz conv l v p) :=
  List.foldlRecOn _ _ h fun _ h _ _ => h.setLane ..

/-- A value is written in the registers it takes, word by word, and nowhere else. -/
theorem Group.lane_putLoad (gr : Group) (r sz conv : Nat) {l l' : Nat} (v : Nat) (p : Bool) (hl : l < 64) (hl' : l' < 64) (r' : Nat) :
    (gr.putLoad r sz conv l v p).lane r' l'
      = if r ≤ r' ∧ r' < r + (sz + 3) / 4 ∧ l' = l then BitVec.ofNat 32 (loadVal conv v / 2 ^ (32 * (r' - r))) else gr.lane r' l' :=
  (gr.lane_setRegs r ((sz + 3) / 4) (fun i => BitVec.ofNat 32 (loadVal conv v / 2 ^ (32 * i))) p hl hl' r').1

/-- The values of some lanes written, each with its poison. -/
def Group.putLoads (gr : Group) (r sz conv : Nat) (es : List (Nat × Nat × Bool)) : Group :=
  es.foldl (fun h e => h.putLoad r sz conv e.1 e.2.1 e.2.2) gr

section
variable {r sz conv : Nat} {es : List (Nat × Nat × Bool)}

theorem Group.putLoads_lanesOnly (gr : Group) (r sz conv : Nat) (es : List (Nat × Nat × Bool)) : LanesOnly gr (gr.putLoads r sz conv es) :=
  List.foldlRecOn es _ (LanesOnly.refl gr) fun _ h _ _ => h.putLoad ..

variable (hes : ∀ e ∈ es, e.1 < 64)
include hes

theorem Group.lane_putLoads_other (gr : Group) {r' l : Nat} (hl : l < 64)
    (h : ¬(r ≤ r' ∧ r' < r + (sz + 3) / 4 ∧ ∃ e ∈ es, e.1 = l)) : (gr.putLoads r sz conv es).lane r' l = gr.lane r' l := by
  induction es generalizing gr with
  | nil => rfl
  | cons e es ih =>
    rw [Group.putLoads, List.foldl_cons]
    refine (ih (fun e he => hes e (List.mem_cons_of_mem _ he)) _ fun ⟨h1, h2, e', he', hel⟩ =>
      h ⟨h1, h2, e', List.mem_cons_of_mem _ he', hel⟩).trans ?_
    rw [Group.lane_putLoad _ _ _ _ _ _ (hes e List.mem_cons_self) hl]
    exact if_neg fun ⟨h1, h2, h3⟩ => h ⟨h1, h2, e, List.mem_cons_self, h3.symm⟩

theorem Group.lane_putLoads (gr : Group) (hnd : (es.map Prod.fst).Nodup) {e : Nat × Nat × Bool} (he : e ∈ es) {i : Nat}
    (hi : i < (sz + 3) / 4) : (gr.putLoads r sz conv es).lane (r + i) e.1 = BitVec.ofNat 32 (loadVal conv e.2.1 / 2 ^ (32 * i)) := by
  induction es generalizing gr with
  | nil => exact absurd he List.not_mem_nil
  | cons a es ih =>
    have hes' : ∀ e ∈ es, e.1 < 64 := fun e he => hes e (List.mem_cons_of_mem _ he)
    rw [List.map_cons, List.nodup_cons] at hnd
    rw [Group.putLoads, List.foldl_cons, ← Group.putLoads]
    rcases List.mem_cons.1 he with rfl | he
    · rw [Group.lane_putLoads_other hes' _ (hes e List.mem_cons_self) fun ⟨_, _, e', he', hel⟩ =>
        hnd.1 (List.mem_map.2 ⟨e', he', hel⟩), Group.lane_putLoad _ _ _ _ _ _ (hes e List.mem_cons_self) (hes e List.mem_cons_self),
        if_pos (by omega), Nat.add_sub_cancel_left]
    · exact ih hes' _ hnd.2 he
end

/-- What a request of a group leaves in its core once it is settled and its values are written. -/
structure Delivered (s : State) (x : Who) (id : Nat) (gr gr' : Group) (t : State) : Prop where
  here : t.group x = some gr'
  ended : Settled t x.core id
  taken : t.resps = s.resps.filter fun r => r.req.id ≠ id
  mem : t.mem = s.mem
  u : gr'.u = gr.u
  k : gr'.k = gr.k
  pc : gr'.pc = gr.pc

/-- The values a response brings its group are written in its lanes. -/
theorem delivered_putLoads {s : State} {x : Who} {gr : Group} (hg : s.group x = some gr) (id r sz conv : Nat)
    (es : List (Nat × Nat × Bool)) (f : Nat) (hurt : Bool) :
    Delivered s x id gr ((gr.settled id).putLoads r sz conv es)
      ((((s.takeResp id).settle x.core id).modGroup x fun gr => gr.putLoads r sz conv es).poisEvent f hurt) := by
  have honly := (gr.settled id).putLoads_lanesOnly r sz conv es
  refine ⟨?_, ((settled_settle _ _ _).modGroup fun gr => gr.putLoads_lanesOnly r sz conv es).poisEvent f hurt, ?_, ?_, ?_, ?_, ?_⟩
  · have hsettled : ((s.takeResp id).settle x.core id).group x = some (gr.settled id) :=
      (State.group_settle_same ..).trans (congrArg (Option.map (Group.settled id)) hg)
    rw [State.group_of_cores (State.poisEvent_cores ..),
      State.group_modGroup_same _ _ _ fun gr => (gr.putLoads_lanesOnly r sz conv es).is x, hsettled]
    rfl
  · rw [State.poisEvent_only]
    rfl
  · rw [State.poisEvent_mem]
    rfl
  · rw [honly]
    rfl
  · rw [honly]
    rfl
  · rw [honly]
    rfl

/-! ### LOAD_RESPONSE (R181) -/

/-- The values a line brings the lanes of its request, with their poison. -/
def Req.laneVals (q : Req) (data : List Byte) (pois : List Nat) : List (Nat × Nat × Bool) :=
  q.lanes.map fun e => (e.1, leAt data (e.2 % 128) q.sz,
    q.pois || (List.range ((e.2 % 128 + q.sz - 1) / 4 - e.2 % 128 / 4 + 1)).any fun k => pois.contains (e.2 % 128 / 4 + k))

theorem Group.fromLines_eq (gr : Group) {q : Req} (h : q.conv ≠ 3) (data : List Byte) (pois : List Nat) :
    q.lanes.foldl (fun h e => h.fromLine q data pois e) gr = gr.putLoads q.reg q.sz q.conv (q.laneVals data pois) := by
  rw [Group.putLoads, Req.laneVals, List.foldl_map]
  exact List.foldl_ext _ _ _ fun _ _ _ => if_neg h

theorem loadResponse_delivers {s : State} {id : Nat} {p : Resp} {x : Who} {gr : Group} (hp : Answered s id p) (hk : p.req.kind = .read)
    (hsrc : p.req.src = .grp x) (hl : p.req.lanes ≠ []) (ha : p.req.alloc = false) (hc : p.req.conv ≠ 3) (ho : s.inOrder p.req = true)
    (hg : s.group x = some gr) :
    let data := if bit p.req.addr 63 = 1 then List.replicate p.req.span.1 0 ++ p.data else p.data
    ∃ t, exec (.loadResponse id) s = .next t ∧ Delivered s x id gr
      ((gr.settled id).putLoads p.req.reg p.req.sz p.req.conv (p.req.laneVals data p.pois)) t := by
  intro data
  have hresp : s.respOf id [.read] = some p := hp.respOf (by simp [hk])
  have hkeep : p.keeps = false := by simp [Resp.keeps, ha]
  refine ⟨_, ?_, delivered_putLoads hg id p.req.reg p.req.sz p.req.conv _ p.req.flask (p.req.lanes.any fun e =>
      (List.range ((e.2 % 128 + p.req.sz - 1) / 4 - e.2 % 128 / 4 + 1)).any fun k => p.pois.contains (e.2 % 128 / 4 + k))⟩
  refine congrArg Host.Outcome.next ?_
  simp only [hresp, hsrc, hl, ho, hkeep, hp.2, Group.fromLines_eq _ hc, Bool.not_true, Bool.false_eq_true, or_self, if_false, ne_eq,
    not_true_eq_false, false_and]
  rfl

/-! ### ATOM_RESPONSE (R150) -/

/-- The old values that go to lanes: as many as both lists have, in order. -/
def oldVals (lanes : List (Nat × Nat)) (olds : List Nat) (p : Bool) : List (Nat × Nat × Bool) :=
  (lanes.zip olds).map fun e => (e.1.1, e.2, p)

theorem oldVals_fst (lanes : List (Nat × Nat)) (olds : List Nat) (p : Bool) :
    (oldVals lanes olds p).map Prod.fst = (lanes.take (min lanes.length olds.length)).map Prod.fst := by
  rw [oldVals, List.map_map, List.zip_eq_zip_take_min]
  exact (List.map_map (g := Prod.fst) (f := Prod.fst)).symm.trans (congrArg (List.map Prod.fst) (List.map_fst_zip (by simp)))

theorem mem_oldVals {lanes : List (Nat × Nat)} {olds : List Nat} {j : Nat} (p : Bool) (hj : j < lanes.length) (hj' : j < olds.length) :
    ((lanes.getD j (0, 0)).1, olds.getD j 0, p) ∈ oldVals lanes olds p := by
  rw [List.getD_eq_getElem _ _ hj, List.getD_eq_getElem _ _ hj']
  exact List.mem_map.2 ⟨(lanes[j], olds[j]), List.mem_iff_getElem.2 ⟨j, by simp [hj, hj'], List.getElem_zip⟩, rfl⟩

theorem Group.putOlds_eq (gr : Group) (q : Req) (olds : List Nat) (p : Bool) :
    gr.putOlds q olds p = gr.putLoads q.reg q.sz 0 (oldVals q.lanes olds p) := by
  rw [Group.putLoads, oldVals, List.foldl_map]
  rfl

theorem atomResponse_delivers {s : State} {id : Nat} {p : Resp} {x : Who} {gr : Group} (hp : Answered s id p) (hk : p.req.kind = .atom)
    (hsrc : p.req.src = .grp x) (hret : p.req.ret = true) (hg : s.group x = some gr) :
    let olds := if p.req.aop ≤ 7 then (atomList p.req.aop p.req.sz (p.olds.headD 0) p.req.ops).1 else p.olds
    ∃ t, exec (.atomResponse id) s = .next t ∧ Delivered s x id gr ((gr.settled id).putLoads p.req.reg p.req.sz 0
      (oldVals p.req.lanes olds (p.req.pois || !p.pois.isEmpty))) t := by
  intro olds
  have hresp : s.respOf id [.atom, .arrive] = some p := hp.respOf (by simp [hk])
  refine ⟨_, congrArg Host.Outcome.next ?_, delivered_putLoads hg id p.req.reg p.req.sz 0 _ p.req.flask (p.req.pois || !p.pois.isEmpty)⟩
  simp only [hresp, hsrc, hret, hk, hp.2, Group.putOlds_eq, combines, decide_eq_true_eq, laneOlds, Bool.not_true, Bool.false_eq_true,
    if_false, reduceCtorEq, ne_eq, not_true_eq_false, false_and, OfNat.zero_ne_ofNat]
  rfl

/-! ### STORE_ACKNOWLEDGEMENT (R256) -/

theorem storeAcknowledgement_settles {s : State} {id : Nat} {p : Resp} {x : Who} (hp : Answered s id p)
    (hk : p.req.kind = .write ∨ p.req.kind = .signal ∨ p.req.kind = .depart ∨ p.req.kind = .atom) (hsrc : p.req.src = .grp x)
    (hret : p.req.ret = false) (hsync : p.syncPoison = false) :
    exec (.storeAcknowledgement id) s = .next ((s.takeResp id).settle x.core id) := by
  have hresp : s.respOf id [.write, .atom, .signal, .depart] = some p :=
    hp.respOf (by rcases hk with hk | hk | hk | hk <;> simp [hk])
  refine congrArg Host.Outcome.next ?_
  simp [hresp, hsrc, State.ackCore, hret, hp.id_eq, hp.2, hsync]

/-- A settled core's groups keep their registers. -/
theorem group_settled {s : State} {y : Who} {gr : Group} (hg : s.group y = some gr) (g id : Nat) : ∃ gr',
    (s.settle g id).group y = some gr' ∧ gr'.v = gr.v ∧ gr'.u = gr.u ∧ gr'.k = gr.k ∧ gr'.pc = gr.pc := by
  by_cases hy : y.core = g
  · exact ⟨gr.settled id, by rw [State.group_settle_peer s id hy, hg]; rfl, rfl, rfl, rfl, rfl⟩
  · exact ⟨gr, by rw [State.group, State.core_settle_other s id hy]; exact hg, rfl, rfl, rfl, rfl⟩

/-! ### CACHE_FILL (R197, R260) -/

/-- A line just filled is found. -/
theorem Core.find_fill (c : Core) (size line : Nat) (data : List Byte) (pois : List Nat) :
    ∃ e, (c.fill size line data pois).find line = some e ∧ e.data = data ∧ e.pois = pois := by
  refine ⟨⟨ccSet size line, c.fillWay (ccSet size line), line, data, pois⟩, ?_, rfl, rfl⟩
  have hkeep : (c.cc.filter fun (e : CLine) => !(e.set = ccSet size line && e.way = c.fillWay (ccSet size line)) && e.line ≠ line).find?
      (fun e => e.line = line) = none := List.find?_eq_none.2 fun e he => by simpa using (Bool.and_eq_true_iff.1 (List.mem_filter.1 he).2).2
  refine (List.find?_append ..).trans ?_
  rw [hkeep]
  simp

theorem State.cerrClear_only (s : State) (g set way : Nat) : s.cerrClear g set way = { s with m := (s.cerrClear g set way).m } := by
  unfold State.cerrClear
  split <;> rfl

theorem State.core_fillCore (s : State) (g line : Nat) (data : List Byte) (pois : List Nat) :
    (s.fillCore g line data pois).core g = (s.core g).fill (s.ccSize g) line data pois := by
  rw [State.fillCore, State.core_modCore_same, State.cerrClear_only]
  rfl

theorem State.mem_fillCore (s : State) (g line : Nat) (data : List Byte) (pois : List Nat) :
    (s.fillCore g line data pois).mem = s.mem := by
  rw [State.fillCore, State.cerrClear_only]
  rfl

/-- CACHE_FILL of a load's line keeps it or not, and then takes the response or its right to fill away. -/
theorem cacheFill_fills {s : State} {id : Nat} {p : Resp} {g : Nat} (hp : Answered s id p) (hk : p.req.kind = .read)
    (hsrc : p.req.src.core = some g) (ha : p.req.alloc = true) (hcc : s.ccSize g ≠ 0) (ho : s.inOrder p.req = true) :
    let u := if p.req.taint = false then s.fillCore g (p.req.addr / 128) p.data p.pois else s
    ∃ t, exec (.cacheFill id) s = .next t ∧ t.cores = u.cores ∧ t.mem = u.mem := by
  intro u
  have hresp : s.respOf id [.read, .prefetch] = some p := hp.respOf (by simp [hk])
  have hkeep : p.keeps = !p.req.taint := by simp [Resp.keeps, ha, hp.2]
  by_cases hl : p.req.lanes = []
  · refine ⟨u.takeResp id, congrArg Host.Outcome.next ?_, rfl, rfl⟩
    simp [hresp, hsrc, hk, ha, ho, hkeep, hcc, hl, u]
  · refine ⟨{ u with resps := u.resps.map fun r => if r.req.id = id then { r with req := { r.req with alloc := false } } else r },
      congrArg Host.Outcome.next ?_, rfl, rfl⟩
    simp [hresp, hsrc, hk, ha, ho, hkeep, hcc, hl, u]

/-- Settles O27: a response taken settles its request in its core, and the values it brings are written in the lanes it names; a fill is
the cache's own. -/
theorem responses : Obligations.Responses := by
  unfold Obligations.Responses
  refine ⟨?load, ?atom, ?ack, ?fill⟩
  case load =>
    intro s id p x gr hp hk hsrc hl ha hc _ _ ho hg hnd hlt data
    obtain ⟨t, ht, hd⟩ := loadResponse_delivers hp hk hsrc hl ha (by omega) ho hg
    have hes : ∀ e ∈ p.req.laneVals data p.pois, e.1 < 64 := List.forall_mem_map.2 hlt
    refine ⟨t, _, ht, hd.here, hd.ended, hd.taken, hd.mem, fun e he i hi => ?_, fun r l hl h => ?_, hd.u, hd.k, hd.pc⟩
    · have hmap : (p.req.laneVals data p.pois).map Prod.fst = p.req.lanes.map Prod.fst := by simp [Req.laneVals]
      exact (Group.lane_putLoads hes _ (hmap ▸ hnd) (List.mem_map_of_mem he) hi).trans (by rw [loadVal, hc]; rfl)
    · exact Group.lane_putLoads_other hes _ hl fun ⟨h1, h2, e, he, hel⟩ => by
        obtain ⟨e, he', rfl⟩ := List.mem_map.1 he
        exact h ⟨h1, h2, e, he', hel⟩
  case atom =>
    intro s id p x gr hp hk hsrc hret hg hnd hlt olds
    obtain ⟨t, ht, hd⟩ := atomResponse_delivers hp hk hsrc hret hg
    refine ⟨t, _, ht, hd.here, hd.ended, hd.mem, fun j hj hj' i hi => ?_, hd.u, hd.k, hd.pc⟩
    have hnd' := ((List.take_sublist (min p.req.lanes.length olds.length) p.req.lanes).map Prod.fst).nodup hnd
    rw [← oldVals_fst _ _ (p.req.pois || !p.pois.isEmpty)] at hnd'
    have hes : ∀ e ∈ oldVals p.req.lanes olds (p.req.pois || !p.pois.isEmpty), e.1 < 64 := fun e he => by
      obtain ⟨e, hmem, rfl⟩ := List.mem_map.1 he
      exact hlt _ (List.of_mem_zip hmem).1
    exact Group.lane_putLoads hes _ hnd' (mem_oldVals _ hj hj') hi
  case ack =>
    intro s id p x hp hk hsrc hret hsync
    exact ⟨_, storeAcknowledgement_settles hp hk hsrc hret hsync, settled_settle .., rfl, rfl, rfl, fun y gr hg => group_settled hg ..⟩
  case fill =>
    intro s id p g hp hk hsrc ha hcc ho
    obtain ⟨t, ht, hcores, hmem⟩ := cacheFill_fills hp hk hsrc ha hcc ho
    refine ⟨fun htaint => ?_, fun htaint => ⟨t, ht, ?_, ?_⟩⟩
    · rw [if_pos htaint] at hcores hmem
      obtain ⟨e, hfind, he⟩ := (s.core g).find_fill (s.ccSize g) (p.req.addr / 128) p.data p.pois
      rw [State.mem_fillCore] at hmem
      exact ⟨t, e, ht, by rw [State.core_of_cores hcores, State.core_fillCore, hfind], he.1, he.2, hmem⟩
    · rw [State.core_of_cores hcores, if_neg (by simp [htaint])]
    · rw [hmem, if_neg (by simp [htaint])]

end Sys2Proof.Machine
end

section
/-! PROOF. The core that a launch waits at takes it, rejects it or lets it wait (R124 to R130, R154, R443, R444): O33. -/

set_option Elab.async false

namespace Sys2Proof.Machine

/-! ### The groups a launch makes (R138, R444) -/

/-- u0 to u3 of a new group; every other uniform is zero. -/
def startUnifs (arg g pos count : Nat) : List Word64 := [BitVec.ofNat 64 arg, BitVec.ofNat 64 g, BitVec.ofNat 64 pos, BitVec.ofNat 64 count]

theorem Group.start_unif (st : Stream) (q entry own arg g pos count i : Nat) :
    (Group.start st q entry own arg g pos count).unif i = (startUnifs arg g pos count).getD i 0 := by
  refine (Sparse.get_tabulate 0 (fun i => (startUnifs arg g pos count).getD i 0) [0, 1, 2, 3] i).trans (ite_eq_left_iff.2 fun h => ?_)
  simp only [List.mem_cons, List.not_mem_nil, or_false] at h
  exact (List.getD_eq_default _ _ (by simp only [startUnifs, List.length_cons, List.length_nil]; omega)).symm

theorem Group.start_unif_high (st : Stream) (q entry own arg g pos count : Nat) {i : Nat} (h : 4 ≤ i) :
    (Group.start st q entry own arg g pos count).unif i = 0 :=
  (Group.start_unif ..).trans (List.getD_eq_default _ _ h)

/-! ### The answer of a core (R443) -/

/-- Where a core has accepted, the launch goes on: only the queue's hand moves. -/
theorem State.answered_accepted (s : State) (f g : Nat) (d : Desc) : ∃ qs, s.answered f (d.answer g true) = { s with queue := qs } := by
  have hacc : (d.answer g true).acc ≠ [] := by simp [Desc.answer]
  unfold State.answered
  rw [if_neg hacc]
  split
  · exact ⟨_, rfl⟩
  · exact ⟨_, rfl⟩

/-- A core that rejects, with cores left to ask. -/
theorem State.answered_rejected (s : State) {f g h : Nat} {l : List Nat} {d : Desc} (ht : d.todo = g :: h :: l) :
    s.answered f (d.answer g false) = s.setHand f { d with todo := h :: l, rej := d.rej ++ [g] } := by
  have htodo : (d.answer g false).todo = h :: l := by simp [Desc.answer, ht]
  rw [State.answered, if_pos (by simp [htodo])]
  simp [Desc.answer, ht]

/-! ### A change of split (R126, R154) -/

/-- The core's store and cache emptied where the launch's split is another. -/
def State.resplit (s : State) (g sp : Nat) : State :=
  if s.rf .SPLIT g 0 1 0 ≠ sp then ((s.zeroLs g 0 0x8_0000).dropCache g).wf .SPLIT g 0 4 4 1 else s

theorem State.core_dropCache (s : State) (g : Nat) : (s.dropCache g).core g = (s.core g).invalidate := State.core_modCore_same s g _

theorem State.core_dropCache_other (s : State) {g h : Nat} (hh : h ≠ g) : (s.dropCache g).core h = s.core h :=
  State.core_modCore_other s _ hh

theorem State.core_resplit (s : State) (g sp : Nat) :
    (s.resplit g sp).core g = if s.rf .SPLIT g 0 1 0 ≠ sp then (s.core g).invalidate else s.core g := by
  unfold State.resplit
  split
  · exact State.core_dropCache (s.zeroLs g 0 0x8_0000) g
  · rfl

theorem State.core_resplit_other (s : State) {g h : Nat} (sp : Nat) (hh : h ≠ g) : (s.resplit g sp).core h = s.core h := by
  unfold State.resplit
  split
  · exact State.core_dropCache_other (s.zeroLs g 0 0x8_0000) hh
  · rfl

theorem State.byte_resplit (s : State) (g sp o : Nat) :
    (s.resplit g sp).byte o
      = if s.rf .SPLIT g 0 1 0 ≠ sp ∧ aper g ≤ o ∧ o < aper g + 0x8_0000 then 0 else s.byte o := by
  unfold State.resplit
  split <;> rename_i h
  · rw [if_congr (and_iff_right h) rfl rfl]
    have hz := s.zeroLs_byte g 0 0x8_0000 o
    rw [Nat.add_zero] at hz
    exact hz
  · rw [if_neg fun hc => h hc.1]

theorem State.rn_resplit (s : State) {r : Reg} (hr : r ≠ .SPLIT) (g sp i j : Nat) : (s.resplit g sp).rn r i j = s.rn r i j := by
  unfold State.resplit
  split
  · exact State.rn_wf_other _ hr ..
  · rfl

theorem State.busy_resplit (s : State) {g sp : Nat} (h : s.rf .SPLIT g 0 1 0 ≠ sp) : (s.resplit g sp).rf .SPLIT g 0 4 4 = 1 := by
  rw [State.resplit, if_pos h, State.rf_wf_same _ _ _ _ _ (by decide) (by decide)]
  rfl

/-! ### A host launch takes the core (R124 to R130, R444) -/

/-- The host fields of COR_SHAPE after a launch (R154). -/
def hostShape (w2 : Nat) : Nat :=
  if fld w2 17 13 + fld w2 22 18 + fld w2 27 23 = 0 then 0
  else fld w2 4 2 + fld w2 17 13 * 2 ^ 3 + fld w2 22 18 * 2 ^ 8 + fld w2 27 23 * 2 ^ 13

/-- Group `q` of a host launch. -/
def hostGroup (g pos : Nat) (d : Desc) (q : Nat) : Group :=
  let gf := fld (d.w 2) 17 13
  let gb := fld (d.w 2) 22 18
  Group.start (if q < gf then .f else if q < gf + gb then .b else .u) q
    (if q < gf then fld (d.w 3) 19 0 else if q < gf + gb then fld (d.w 3) 39 20 else fld (d.w 3) 59 40)
    d.idx (d.w 4) g pos (fld (d.w 1) 24 12)

/-- The registers a host launch writes. -/
def State.hostRegs (s : State) (g w2 : Nat) : State :=
  ((s.wf .SPLIT g 0 1 0 (fld w2 1 0)).wf .SHAPE g 0 17 0 (hostShape w2)).wn .EWIN g 0 (fld w2 36 28 + fld w2 45 37 * 2 ^ 16)

theorem State.core_hostRegs (s : State) (g w2 h : Nat) : (s.hostRegs g w2).core h = s.core h := rfl

theorem State.byte_hostRegs (s : State) (g w2 o : Nat) : (s.hostRegs g w2).byte o = s.byte o := rfl

theorem State.byte_modCore (s : State) (g : Nat) (F : Core → Core) (o : Nat) : (s.modCore g F).byte o = s.byte o := rfl

section
variable (s : State) (f g pos : Nat) (d : Desc)

theorem State.acceptHost_eq : s.acceptHost f g pos d
    = ((s.resplit g (fld (d.w 2) 1 0)).hostRegs g (d.w 2)).modCore g fun c =>
        { c with groups := c.groups ++ (List.range (fld (d.w 2) 17 13 + fld (d.w 2) 22 18 + fld (d.w 2) 27 23)).map (hostGroup g pos d),
                 hflask := f, lpg := fld (d.w 2) 12 5 * 4096,
                 zbusy := c.zbusy || decide (s.rf .SPLIT g 0 1 0 ≠ fld (d.w 2) 1 0),
                 phold := ((s.resplit g (fld (d.w 2) 1 0)).hostRegs g (d.w 2)).holdNow f } := rfl

theorem State.acceptHost_core : ∃ l hold, (s.acceptHost f g pos d).core g
    = { (s.resplit g (fld (d.w 2) 1 0)).core g with
        groups := (s.core g).groups
          ++ (List.range (fld (d.w 2) 17 13 + fld (d.w 2) 22 18 + fld (d.w 2) 27 23)).map (hostGroup g pos d),
        hflask := f, lpg := l, zbusy := (s.core g).zbusy || decide (s.rf .SPLIT g 0 1 0 ≠ fld (d.w 2) 1 0), phold := hold } := by
  have hgz : ((s.resplit g (fld (d.w 2) 1 0)).core g).groups = (s.core g).groups
      ∧ ((s.resplit g (fld (d.w 2) 1 0)).core g).zbusy = (s.core g).zbusy := by
    rw [State.core_resplit]
    split <;> exact ⟨rfl, rfl⟩
  rw [State.acceptHost_eq, State.core_modCore_same, State.core_hostRegs, hgz.1, hgz.2]
  exact ⟨_, _, rfl⟩

theorem State.acceptHost_core_other {h : Nat} (hh : h ≠ g) : (s.acceptHost f g pos d).core h = s.core h := by
  rw [State.acceptHost_eq, State.core_modCore_other _ _ hh, State.core_hostRegs, s.core_resplit_other _ hh]

theorem State.acceptHost_regs : (s.acceptHost f g pos d).regs = ((s.resplit g (fld (d.w 2) 1 0)).hostRegs g (d.w 2)).regs := by
  rw [State.acceptHost_eq]
  rfl

theorem State.acceptHost_byte (o : Nat) : (s.acceptHost f g pos d).byte o
    = if s.rf .SPLIT g 0 1 0 ≠ fld (d.w 2) 1 0 ∧ aper g ≤ o ∧ o < aper g + 0x8_0000 then 0 else s.byte o := by
  rw [State.acceptHost_eq, State.byte_modCore, State.byte_hostRegs, State.byte_resplit]

theorem State.rn_hostRegs_split (w2 : Nat) :
    (s.hostRegs g w2).rn .SPLIT g 0 = (s.wf .SPLIT g 0 1 0 (fld w2 1 0)).rn .SPLIT g 0 := by
  rw [State.hostRegs, State.rn_wn_other _ (by decide), State.rn_wf_other _ (by decide)]

theorem State.acceptHost_split : (s.acceptHost f g pos d).rf .SPLIT g 0 1 0 = fld (d.w 2) 1 0 := by
  rw [State.rf_of_regs (s.acceptHost_regs f g pos d), State.rf_of_rn (State.rn_hostRegs_split ..)]
  rw [State.rf_wf_same _ _ _ _ _ (by decide) (by decide)]
  exact Nat.mod_eq_of_lt (fld_lt ..)

theorem State.acceptHost_busy (h : s.rf .SPLIT g 0 1 0 ≠ fld (d.w 2) 1 0) : (s.acceptHost f g pos d).rf .SPLIT g 0 4 4 = 1 := by
  rw [State.rf_of_regs (s.acceptHost_regs f g pos d), State.rf_of_rn (State.rn_hostRegs_split ..)]
  rw [State.rf_wf_apart _ _ _ _ _ (by decide) (by decide) (by decide), s.busy_resplit h]

theorem State.rn_hostRegs_shape (w2 : Nat) :
    (s.hostRegs g w2).rn .SHAPE g 0 = ((s.wf .SPLIT g 0 1 0 (fld w2 1 0)).wf .SHAPE g 0 17 0 (hostShape w2)).rn .SHAPE g 0 :=
  State.rn_wn_other _ (by decide) ..

theorem State.acceptHost_shape : (s.acceptHost f g pos d).rf .SHAPE g 0 17 0 = hostShape (d.w 2) % 2 ^ 18 := by
  rw [State.rf_of_regs (s.acceptHost_regs f g pos d), State.rf_of_rn (State.rn_hostRegs_shape ..),
    State.rf_wf_same _ _ _ _ _ (by decide) (by decide)]

theorem State.acceptHost_shape_guest : (s.acceptHost f g pos d).rf .SHAPE g 0 23 18 = s.rf .SHAPE g 0 23 18 := by
  rw [State.rf_of_regs (s.acceptHost_regs f g pos d), State.rf_of_rn (State.rn_hostRegs_shape ..)]
  rw [State.rf_wf_apart _ _ _ _ _ (by decide) (by decide) (by decide)]
  exact State.rf_of_rn ((State.rn_wf_other _ (by decide) ..).trans (s.rn_resplit (by decide) ..)) 23 18

end

/-! ### A guest launch takes the core (R129, R444) -/

/-- Group `q` of a guest launch. -/
def guestGroup (g pos : Nat) (d : Desc) (q : Nat) : Group :=
  Group.start .g q (fld (d.w 3) 19 0) d.idx (d.w 4) g pos (fld (d.w 1) 24 12)

theorem State.acceptGuest_eq (s : State) (g pos : Nat) (d : Desc) : s.acceptGuest g pos d
    = (s.wf .SHAPE g 0 23 18 (bit (d.w 2) 0 + fld (d.w 2) 10 9 * 2 ^ 3)).modCore g fun c =>
        { c with groups := c.groups ++ (List.range (fld (d.w 2) 10 9)).map (guestGroup g pos d), lpgg := fld (d.w 2) 8 1 * 4096 } := rfl

/-! ### LAUNCH_ACCEPT (R124, R443) -/

section
variable {g f : Nat} {guest : Bool} {d : Desc} {s : State} (hl : s.launching g (if guest then 2 else 1) = some (f, d))
include hl

theorem launchAccept_takes (hs : s.inSvc g = true) (hc : s.coldBit (g / 64) = false) (ha : (s.core g).awake = true)
    (hb : (s.core g).kindBusy guest = false) (hr : s.rejects f g d = false) :
    let u := if guest then s.acceptGuest g d.acc.length d else s.acceptHost f g d.acc.length d
    ∃ t, exec (.launchAccept g guest) s = .next t ∧ t.cores = u.cores ∧ t.regs = u.regs ∧ t.mem = u.mem := by
  intro u
  have hexec : exec (.launchAccept g guest) s = .next (u.answered f (d.answer g true)) :=
    congrArg Host.Outcome.next (by simp [hl, hs, hc, ha, hb, hr, u])
  obtain ⟨qs, hu⟩ := u.answered_accepted f g d
  exact ⟨_, hexec, by rw [hu], by rw [hu], by rw [hu]⟩

theorem launchAccept_waits (hs : s.inSvc g = true) (hc : s.coldBit (g / 64) = false) (hb : (s.core g).kindBusy guest = true) :
    exec (.launchAccept g guest) s = .next s := by
  refine congrArg Host.Outcome.next ?_
  simp [hl, hs, hc, hb]

theorem launchAccept_rejects (h : s.inSvc g = false ∨ s.coldBit (g / 64) = true
      ∨ ((s.core g).awake = true ∧ (s.core g).kindBusy guest = false ∧ s.rejects f g d = true)) :
    exec (.launchAccept g guest) s = .next (s.answered f (d.answer g false)) := by
  refine congrArg Host.Outcome.next ?_
  by_cases hout : s.inSvc g = false ∨ s.coldBit (g / 64) = true
  · simp only [hl]
    exact if_pos (by simpa using hout)
  · obtain ⟨hs, hc⟩ := not_or.1 hout
    obtain ⟨ha, hb, hr⟩ := (h.resolve_left hs).resolve_left hc
    simp [hl, hs, hc, ha, hb, hr]

end

/-- Group `q` of those appended to a core's. -/
theorem getElem?_append_made (gs : List Group) (mk : Nat → Group) {n q : Nat} (hq : q < n) :
    (gs ++ (List.range n).map mk)[gs.length + q]? = some (mk q) := by
  rw [List.getElem?_append_right (Nat.le_add_right ..), Nat.add_sub_cancel_left, List.getElem?_map, List.getElem?_range hq]
  rfl

/-- Settles O33: a launch that a core takes appends its groups and writes the core's registers; its answer only moves the queue. -/
theorem launchAcceptance : Obligations.LaunchAcceptance := by
  unfold Obligations.LaunchAcceptance
  refine ⟨?host, ?guest, ?rejects, fun g f guest d s hl hs hc hb => launchAccept_waits hl hs hc hb⟩
  case host =>
    intro g f d s hl hs hc ha hb hr gf gb n old
    obtain ⟨t, hexec, hcores, hregs, hmem⟩ := launchAccept_takes (guest := false) hl hs hc ha hb hr
    simp only [Bool.false_eq_true, if_false] at hcores hregs hmem
    obtain ⟨l, hold, hcore⟩ := s.acceptHost_core f g d.acc.length d
    rw [← State.core_of_cores hcores] at hcore
    have hgroups : (t.core g).groups = (s.core g).groups ++ (List.range n).map (hostGroup g d.acc.length d) := by rw [hcore]
    refine ⟨t, hexec, ?_, fun i hi => ?_, fun q hq => ⟨hostGroup g d.acc.length d q, ?_, rfl, rfl, rfl, rfl,
      Group.start_unif .., Group.start_unif .., Group.start_unif .., Group.start_unif .., fun i hi => Group.start_unif_high _ _ _ _ _ _ _ _ hi,
        fun _ _ => rfl, fun i hi => if_neg hi, rfl⟩, congrArg Core.hflask hcore, ?_, ?_, ?_, fun o => ?_, fun hne => ⟨?_, ?_, ?_⟩,
      fun h hh => ?_⟩
    · rw [hgroups, List.length_append, List.length_map, List.length_range]
    · rw [hgroups, List.getElem?_append_left hi]
    · rw [hgroups, getElem?_append_made _ _ hq]
    · rw [State.rf_of_regs hregs, State.acceptHost_split]
    · rw [State.rf_of_regs hregs, State.acceptHost_shape]
      rfl
    · rw [State.rf_of_regs hregs, State.acceptHost_shape_guest]
    · rw [State.byte, hmem]
      exact State.acceptHost_byte ..
    · rw [hcore]
      exact Bool.or_eq_true_iff.2 (.inr (decide_eq_true hne))
    · rw [State.rf_of_regs hregs, State.acceptHost_busy _ _ _ _ _ hne]
    · rw [hcore, s.core_resplit, if_pos hne]
      rfl
    · rw [State.core_of_cores hcores, State.acceptHost_core_other _ _ _ _ _ hh]
  case guest =>
    intro g f d s hl hs hc ha hb hr n old
    obtain ⟨t, hexec, hcores, hregs, hmem⟩ := launchAccept_takes (guest := true) hl hs hc ha hb hr
    simp only [if_true, State.acceptGuest_eq] at hcores hregs hmem
    have hgroups : (t.core g).groups = (s.core g).groups ++ (List.range n).map (guestGroup g d.acc.length d) := by
      rw [State.core_of_cores hcores, State.core_modCore_same]
      rfl
    refine ⟨t, hexec, ?_, fun i hi => ?_, fun q hq => ⟨guestGroup g d.acc.length d q, ?_, rfl, rfl, rfl,
      Group.start_unif .., Group.start_unif .., Group.start_unif .., Group.start_unif .., fun i hi => Group.start_unif_high _ _ _ _ _ _ _ _ hi,
        fun _ _ => rfl⟩, ?_, ?_, ?_, hmem, fun h hh => ?_⟩
    · rw [hgroups, List.length_append, List.length_map, List.length_range]
    · rw [hgroups, List.getElem?_append_left hi]
    · rw [hgroups, getElem?_append_made _ _ hq]
    · have hbit : bit (d.w 2) 0 < 2 := fld_bit (d.w 2) 0 ▸ fld_lt (d.w 2) 0 0
      have hn := fld_lt (d.w 2) 10 9
      rw [State.rf_of_regs hregs]
      refine (State.rf_wf_same s .SHAPE g 0 _ (by decide) (by decide)).trans (Nat.mod_eq_of_lt ?_)
      omega
    · rw [State.rf_of_regs hregs]
      exact State.rf_wf_apart s .SHAPE g 0 _ (by decide) (by decide) (by decide)
    · rw [State.rn_of_regs hregs]
      exact State.rn_wf_other s (by decide) ..
    · rw [State.core_of_cores hcores, State.core_modCore_other _ _ hh]
      rfl
  case rejects =>
    intro g f h l guest d s hl ht hr
    refine ⟨_, launchAccept_rejects hl hr, ?_⟩
    rw [State.answered_rejected s ht]
    exact ⟨rfl, rfl, rfl, congrArg QueueSt.hand (State.q_setQ_same ..)⟩

end Sys2Proof.Machine
end

section
/-! PROOF. Updates of an object at its point of coherence: atomics, barrier updates, signal additions (R150, R183, R211, R283, R292,
R562): O26. -/

set_option Elab.async false

namespace Sys2Proof.Machine

/-! ### Reading an object at its point of coherence (R250) -/

/-- The offset lies in DRAM, or in the local store of a core with no output on its way there. -/
def Placed (s : State) (off : Nat) : Prop := off < dramEnd ∨ (dramEnd ≤ off ∧ ∃ g, aperOf off = some g ∧ (s.core g).calm = true)

theorem State.view_aperture (s : State) {off : Nat} (h : dramEnd ≤ off) : s.view off = off := if_neg (Nat.not_lt.2 h)

/-- The view of DRAM lies below the apertures. -/
theorem State.aperOf_view (s : State) {off : Nat} (h : off < dramEnd) : aperOf (s.view off) = none := by
  refine if_neg fun hap => ?_
  have hfld := fld_lt (s.region (regionOf off)) 22 11
  have hlt : s.view off < apBase := by
    unfold State.view
    rw [if_pos h]
    dsimp only
    unfold dramEnd at h
    unfold apBase
    split <;> omega
  omega

/-- The bytes at an offset are at hand, and reading them changes nothing. -/
theorem Placed.seen {s : State} {off : Nat} (h : Placed s off) (n : Nat) : s.seen (s.view off) n = (s.bytes (s.view off) n, s) := by
  rcases h with h | ⟨h, g, hg, hc⟩
  · rw [State.seen, s.aperOf_view h]
  · rw [s.view_aperture h, State.seen, hg]
    have hbase : aper g + (off - aper g) = off := by
      unfold aperOf at hg
      split at hg
      · cases hg
        unfold aper
        omega
      · cases hg
    exact (State.lsBytes_calm hc _ n).trans (by rw [hbase])

theorem Placed.pocRead {s : State} {off : Nat} (h : Placed s off) (hl : s.m.lerr = []) (n : Nat) :
    s.pocRead off n = (s.bytes (s.view off) n, s.poisoned (s.view off) n, s) := by
  rw [State.pocRead, State.scrub_sound hl, h.seen]

/-! ### Writing it -/

/-- `bs` has been written at `a`; nothing else that a reader sees has changed, and nothing was sent. -/
structure Applied (s t : State) (a : Nat) (bs : List Byte) : Prop where
  mem : t.mem = putBytes s.mem a [] bs
  cores : t.cores = s.cores
  reqs : t.reqs = s.reqs
  resps : t.resps = s.resps
  lerr : t.m.lerr = s.m.lerr

theorem State.digest_only (s : State) (f off size op : Nat) (recs : List (List Nat)) (p : Bool) :
    ∃ r ns, s.digest f off size op recs p = { s with regs := r, notices := ns } := by
  unfold State.digest
  split
  · split
    · exact ⟨_, _, rfl⟩
    · dsimp only
      split
      · exact ⟨_, _, rfl⟩
      · exact ⟨_, _, rfl⟩
  · exact ⟨_, _, rfl⟩

theorem State.sealCheck_only (s : State) (off : Nat) : ∃ ns, s.sealCheck off = { s with notices := ns } := by
  unfold State.sealCheck
  split
  · dsimp only
    split
    · exact ⟨_, rfl⟩
    · exact ⟨_, rfl⟩
  · exact ⟨_, rfl⟩

/-- The digest and the seal's check move registers and notices, none that a view depends on. -/
theorem State.noted_only (s : State) (f off size op : Nat) (recs : List (List Nat)) (p : Bool) (off' : Nat) :
    let u := (s.digest f off size op recs p).sealCheck off'
    (∃ r ns, u = { s with regs := r, notices := ns }) ∧ ∀ o, u.view o = s.view o := by
  intro u
  have hu : HomeOnly false s u := (HomeOnly.refl s).digest.sealCheck
  obtain ⟨r, ns, hd⟩ := s.digest_only f off size op recs p
  obtain ⟨ns', hs⟩ := (s.digest f off size op recs p).sealCheck_only off'
  refine ⟨⟨r, ns', ?_⟩, fun o => State.view_of hu.pat (fun f => hu.regs _ _ _ (by decide)) o⟩
  exact hs.trans (by rw [hd])

section
variable {s : State} {off : Nat} (h : Placed s off) (hl : s.m.lerr = [])
include h hl

theorem Placed.pocAtom (f sz aop : Nat) (ops : List (Nat × Nat)) (p : Bool) : ∃ t pw,
    s.pocAtom f off sz aop ops p = ((atomList aop sz (s.le (s.view off) sz) ops).1, pw, t)
      ∧ Applied s t (s.view off) (leBytes sz (atomList aop sz (s.le (s.view off) sz) ops).2) := by
  obtain ⟨⟨r, ns, hu⟩, hview⟩ := s.noted_only f off sz (aop + 1) (atomRecs aop ops) (p || s.poisoned (s.view off) sz) off
  refine ⟨_, _, by rw [State.pocAtom, h.pocRead hl]; rfl, ?_⟩
  dsimp only
  split
  · rw [hview, hu]
    split <;> exact ⟨rfl, rfl, rfl, rfl, rfl⟩
  · rename_i hoff
    rw [hu, State.lsWrite_sound (s := { s with regs := r, notices := ns }) hl, State.view_aperture s (Nat.le_of_not_lt hoff)]
    exact ⟨rfl, rfl, rfl, rfl, rfl⟩

/-- The object after bar_arrive or bar_depart, and whether it was released. -/
def barNew (aop o n : Nat) : Nat × Bool := if aop = 0xD then barArrive o n else (barDepart o, false)

theorem Placed.pocBar (f aop n : Nat) : ∃ t pw,
    s.pocBar f off aop n = (s.bytes (s.view off) 16, (barNew aop (s.le (s.view off) 16) n).2, pw, t)
      ∧ Applied s t (s.view off) (leBytes 16 (barNew aop (s.le (s.view off) 16) n).1) := by
  obtain ⟨⟨r, ns, hu⟩, hview⟩ := s.noted_only f off 16 (aop + 1) [[if aop = 0xD then n else 0]] (s.poisoned (s.view off) 16) off
  refine ⟨_, _, by rw [State.pocBar, h.pocRead hl]; rfl, ?_⟩
  dsimp only
  split
  · rw [hview, hu]
    exact ⟨rfl, rfl, rfl, rfl, rfl⟩
  · rename_i hoff
    rw [hu, State.lsWrite_sound (s := { s with regs := r, notices := ns }) hl, State.view_aperture s (Nat.le_of_not_lt hoff)]
    exact ⟨rfl, rfl, rfl, rfl, rfl⟩

end

/-! ### What an applied write reads back as -/

section
variable {s t : State} {a : Nat} {bs : List Byte} (h : t.mem = putBytes s.mem a [] bs)
include h

theorem byte_of_putBytes (o : Nat) : t.byte o = if a ≤ o ∧ o < a + bs.length then bs.getD (o - a) 0 else s.byte o := by
  rw [State.byte, h, get_putBytes]
  exact if_congr (by simp) rfl rfl

theorem byte_of_putBytes_other {n : Nat} (hn : bs.length = n) {o : Nat} (ho : o < a ∨ a + n ≤ o) : t.byte o = s.byte o := by
  rw [byte_of_putBytes h, if_neg (by omega)]

end

theorem le_of_putBytes {s t : State} {a n v : Nat} (h : t.mem = putBytes s.mem a [] (leBytes n v)) : t.le a n = v % 2 ^ (8 * n) := by
  have hbytes : t.bytes a n = leBytes n v := by
    refine List.ext_getElem (by simp [State.bytes]) fun i h1 h2 => ?_
    have hi : i < n := by simpa using h2
    have hb := byte_of_putBytes h (a + i)
    rw [leBytes_length, if_pos (by omega), Nat.add_sub_cancel_left, List.getD_eq_getElem _ _ h2] at hb
    simpa [State.bytes] using hb
  rw [State.le, hbytes, leNat_leBytes, Nat.pow_mul]

/-! ### Serving an update -/

/-- The update that a request makes of its object: the bytes it leaves there, and the old values it answers with. -/
structure Updates (s t : State) (q : Req) (bs : List Byte) (olds : List Nat) : Prop where
  applied : ∃ u, Applied s u (s.view (fld q.addr 47 0)) bs ∧ t.mem = u.mem
  served : ∃ r, t.resps = s.resps ++ [r] ∧ r.req = q ∧ r.status = 0 ∧ r.olds = olds
  reqs : t.reqs = s.reqs
  cores : t.cores = s.cores

theorem Updates.complete {s u : State} {q : Req} {x : Who} {bs : List Byte} (hx : q.src = .grp x)
    (h : Applied s u (s.view (fld q.addr 47 0)) bs) (pw olds : List Nat) : Updates s (u.complete q [] pw olds 0) q bs olds := by
  have hc : u.complete q [] pw olds 0 = { u with resps := u.resps ++ [⟨q, [], pw, olds, 0⟩] } := by
    rw [State.complete, hx]
  rw [hc]
  exact ⟨⟨u, h, rfl⟩, ⟨_, congrArg (· ++ [_]) h.resps, rfl, rfl, rfl⟩, h.reqs, h.cores⟩

section
variable {s : State} {q : Req} {x : Who} (hx : q.src = .grp x) (h : Placed s (fld q.addr 47 0)) (hl : s.m.lerr = [])
include hx h hl

theorem serve_atom (hk : q.kind = .atom) :
    let r := atomList q.aop q.sz (s.le (s.view (fld q.addr 47 0)) q.sz) (carried q.aop q.sz q.ops)
    Updates s (s.serve q) q (leBytes q.sz r.2) r.1 := by
  intro r
  obtain ⟨t, pw, ht, happ⟩ := h.pocAtom hl q.flask q.sz q.aop (carried q.aop q.sz q.ops) q.pois
  have hops : q.operands = carried q.aop q.sz q.ops := by rw [Req.operands, hx]
  rw [State.serve, hk, hops]
  dsimp only
  rw [ht]
  exact Updates.complete hx happ _ _

theorem serve_signal (hk : q.kind = .signal) :
    Updates s (s.serve q) q (leBytes 8 (atomList 0 8 (s.le (s.view (fld q.addr 47 0)) 8) q.ops).2) [] := by
  obtain ⟨t, pw, ht, happ⟩ := h.pocAtom hl q.flask 8 0 q.ops q.pois
  rw [State.serve, hk]
  dsimp only
  rw [ht]
  exact Updates.complete hx happ _ _

theorem serve_barrier (hk : q.kind = .arrive ∨ q.kind = .depart) :
    let o := s.le (s.view (fld q.addr 47 0)) 16
    let r := barNew q.aop o ((q.ops.headD (0, 0)).1 % 2 ^ 16)
    Updates s (s.serve q) q (leBytes 16 r.1) [o, if r.2 then 1 else 0] := by
  intro o r
  obtain ⟨t, pw, ht, happ⟩ := h.pocBar hl q.flask q.aop ((q.ops.headD (0, 0)).1 % 2 ^ 16)
  rcases hk with hk | hk <;>
  · rw [State.serve, hk]
    dsimp only
    rw [ht]
    exact Updates.complete hx happ _ _

end

/-! ### A request at hand is served (R196, R208, R211) -/

/-- The state in which a request is served: it has been taken, and nothing it reads has changed. -/
structure AtService (s w : State) (q : Req) : Prop where
  reqs : w.reqs = s.reqs.filter fun r => r.id ≠ q.id
  resps : w.resps = s.resps
  cores : w.cores = s.cores
  mem : w.mem = s.mem
  lerr : w.m.lerr = []
  view : w.view (fld q.addr 47 0) = s.view (fld q.addr 47 0)
  placed : Placed w (fld q.addr 47 0)

/-- `t` is the state once the request has been served, and its line marked where a cache holds it. -/
def AfterService (s t : State) (q : Req) : Prop := ∃ w line, AtService s w q ∧ (t = w.serve q ∨ t = (w.serve q).llcDirty line)

/-- The requests in flight have no part in a view. -/
theorem State.view_withReqs (s : State) (rs : List Req) (off : Nat) : ({ s with reqs := rs } : State).view off = s.view off := by
  refine State.view_of ?_ (fun f => ?_) off
  · rfl
  · rfl

theorem State.chan_of_pat {s t : State} (h : t.pat = s.pat) (line : Nat) : t.chan line = s.chan line := by
  rw [State.chan, State.region_of_pat h, State.chan]

theorem State.missUsed_withReqs (s : State) (rs : List Req) (line : Nat) : ({ s with reqs := rs } : State).missUsed line = s.missUsed line := by
  have hbank (l : Nat) : ({ s with reqs := rs } : State).llcBank l = s.llcBank l := by
    simp only [State.llcBank, State.home, State.llcSet, State.chan_of_pat (s := s) (t := { s with reqs := rs }) rfl]
  simp only [State.missUsed, hbank]

/-- The home has the line of an update, with good codes, and serves it at once (R208, R211). -/
theorem State.llcAccept_hit {s : State} {q : Req} {e : LLine} (hroom : s.missUsed (s.view (fld q.addr 47 0) / 128) < 64)
    (hmiss : ∀ e ∈ s.m.miss, e.1 ≠ s.view (fld q.addr 47 0) / 128) (he : s.llcFind (s.view (fld q.addr 47 0) / 128) = some e)
    (hserr : s.m.serr = []) (hu : q.kind.updates = true) (hw : q.kind ≠ .write) :
    s.llcAccept q = some ((((s.addSat .LLCHIT e.die 0 64 1).llcTouch e.die e.set e.way).serve q).llcDirty e.line) := by
  have hwhole : wholeLine q = false := by simp [wholeLine, hw]
  have hno : (s.m.miss.any fun e => e.1 = s.view (fld q.addr 47 0) / 128) = false :=
    List.any_eq_false.2 fun e he => by simpa using hmiss e he
  have hcheck (ks : List Nat) (b : Bool) : s.sectorCheck e ks b = s := by simp [State.sectorCheck, hserr]
  rw [State.llcAccept]
  dsimp only
  rw [if_neg (Nat.not_le.2 hroom), hno, if_neg Bool.false_ne_true, he]
  dsimp only
  rw [hcheck, he]
  dsimp only
  rw [State.llcHit, hwhole, Bool.false_and, if_neg Bool.false_ne_true, if_pos hu]

section
variable {s : State} {q : Req} (h : AtHand s q)
include h

theorem AtHand.find {ks : List RKind} (hk : ks.contains q.kind = true) :
    s.reqs.find? (fun r => r.id = q.id && ks.contains r.kind) = some q := find?_and_of h.here hk

/-- The core that owns the local store serves the request. -/
theorem AtHand.coreRow {ks : List RKind} (hoff : dramEnd ≤ fld q.addr 47 0) (hk : ks.contains q.kind = true) :
    AfterService s (s.coreRow q.id ks) q := by
  have hfind := h.find hk
  obtain ⟨hhere, -, hturn, hroute, hgood, hhand⟩ := h
  obtain ⟨-, g, hg, hserves, hcalm⟩ := hhand.resolve_left fun hd => absurd hd.1 (Nat.not_lt.2 hoff)
  refine ⟨{ s with reqs := s.reqs.filter fun r => r.id ≠ q.id }, 0,
    ⟨rfl, rfl, rfl, rfl, hgood.1, s.view_withReqs _ _, .inr ⟨hoff, g, hg, hcalm⟩⟩, .inl ?_⟩
  rw [State.coreRow, hfind]
  dsimp only
  rw [hg]
  dsimp only
  rw [if_neg (by simp [hturn, hserves]), if_neg (by simp [hroute])]

/-- The last-level cache has the line of the request, and serves it. -/
theorem AtHand.homeRow {ks : List RKind} (hoff : fld q.addr 47 0 < dramEnd) (hk : ks.contains q.kind = true)
    (hu : q.kind.updates = true) (hw : q.kind ≠ .write) :
    AfterService s (s.homeRow q.id ks) q := by
  have hfind := h.find hk
  obtain ⟨hhere, -, hturn, hroute, hgood, hhand⟩ := h
  obtain ⟨-, hrota, hhit, hroom, hmiss⟩ := hhand.resolve_right fun hd => absurd hoff (Nat.not_lt.2 hd.1)
  obtain ⟨e, he⟩ := Option.isSome_iff_exists.1 hhit
  let w := (State.addSat { s with reqs := s.reqs.filter fun r => r.id ≠ q.id } .LLCHIT e.die 0 64 1).llcTouch e.die e.set e.way
  have hview : w.view (fld q.addr 47 0) = s.view (fld q.addr 47 0) := by
    rw [State.view_of (s := { s with reqs := s.reqs.filter fun r => r.id ≠ q.id }) (t := w) ?_ (fun f => ?_), s.view_withReqs]
    · rfl
    · exact State.rn_wn_other _ (by decide) ..
  refine ⟨w, e.line, ⟨rfl, rfl, rfl, rfl, hgood.1, hview, .inl hoff⟩, .inr ?_⟩
  have haccept : State.llcAccept { s with reqs := s.reqs.filter fun r => r.id ≠ q.id } q = some ((w.serve q).llcDirty e.line) :=
    State.llcAccept_hit (by rwa [s.view_withReqs, s.missUsed_withReqs]) (by rw [s.view_withReqs]; exact hmiss)
      (by rw [s.view_withReqs]; exact he) hgood.2 hu hw
  rw [State.homeRow, hfind]
  dsimp only
  rw [if_neg (by simp [hturn, hrota, Nat.not_le.2 hoff]), if_neg (by simp [hroute]), haccept]

theorem AtHand.objectRow {k : RKind} (hk : q.kind = k) (hu : k.updates = true) (hw : k ≠ .write) :
    AfterService s (s.objectRow q.id k) q := by
  subst hk
  have hrow : s.objectRow q.id q.kind = if fld q.addr 47 0 < dramEnd then s.homeRow q.id [q.kind] else s.coreRow q.id [q.kind] := by
    rw [State.objectRow, find?_and_of h.here (decide_eq_true rfl)]
  rw [hrow]
  split <;> rename_i hoff
  · exact h.homeRow hoff (by simp) hu hw
  · exact h.coreRow (Nat.le_of_not_lt hoff) (by simp)

end

/-- A request at hand that updates its object is answered, the object is updated, and no other byte changes. -/
theorem AfterService.updates {s t : State} {q : Req} {bs : List Byte} {olds : List Nat} (h : AfterService s t q)
    (hu : ∀ w, AtService s w q → Updates w (w.serve q) q bs olds) :
    ∃ r, Served s t q r ∧ r.olds = olds ∧ t.mem = putBytes s.mem (s.view (fld q.addr 47 0)) [] bs := by
  obtain ⟨w, line, hw, ht⟩ := h
  obtain ⟨⟨u, happ, hmem⟩, ⟨r, hresps, hreq, hstatus, holds⟩, hreqs, hcores⟩ := hu w hw
  have hfields : t.reqs = (w.serve q).reqs ∧ t.resps = (w.serve q).resps ∧ t.cores = (w.serve q).cores ∧ t.mem = (w.serve q).mem := by
    rcases ht with rfl | rfl <;> exact ⟨rfl, rfl, rfl, rfl⟩
  obtain ⟨h1, h2, h3, h4⟩ := hfields
  refine ⟨r, ⟨?_, ?_, hreq, hstatus, ?_⟩, holds, ?_⟩
  · rw [h1, hreqs, hw.reqs]
  · rw [h2, hresps, hw.resps]
  · rw [h3, hcores, hw.cores]
  · rw [h4, hmem, happ.mem, hw.mem, hw.view]

/-- The object is the one the request found. -/
theorem AtService.le {s w : State} {q : Req} (h : AtService s w q) (n : Nat) :
    w.le (w.view (fld q.addr 47 0)) n = s.le (s.view (fld q.addr 47 0)) n := by
  rw [h.view]
  simp only [State.le, State.bytes, State.byte, h.mem]

section
variable {s t : State} {q : Req} {x : Who} (hx : q.src = .grp x) (h : AfterService s t q)
include hx h

theorem AfterService.atom (hk : q.kind = .atom) :
    let a := s.view (fld q.addr 47 0)
    let r' := atomList q.aop q.sz (s.le a q.sz) (carried q.aop q.sz q.ops)
    ∃ r, Served s t q r ∧ r.olds = r'.1 ∧ t.mem = putBytes s.mem a [] (leBytes q.sz r'.2) :=
  h.updates fun w hw => by
    have hs := serve_atom hx hw.placed hw.lerr hk
    rwa [hw.le] at hs

theorem AfterService.signal (hk : q.kind = .signal) :
    let a := s.view (fld q.addr 47 0)
    ∃ r, Served s t q r ∧ t.mem = putBytes s.mem a [] (leBytes 8 (atomList 0 8 (s.le a 8) q.ops).2) := by
  obtain ⟨r, hr, -, hmem⟩ := h.updates fun w hw => by
    have hs := serve_signal hx hw.placed hw.lerr hk
    rwa [hw.le] at hs
  exact ⟨r, hr, hmem⟩

theorem AfterService.barrier (hk : q.kind = .arrive ∨ q.kind = .depart) :
    let a := s.view (fld q.addr 47 0)
    let r' := barNew q.aop (s.le a 16) ((q.ops.headD (0, 0)).1 % 2 ^ 16)
    ∃ r, Served s t q r ∧ r.olds = [s.le a 16, if r'.2 then 1 else 0] ∧ t.mem = putBytes s.mem a [] (leBytes 16 r'.1) :=
  h.updates fun w hw => by
    have hs := serve_barrier hx hw.placed hw.lerr hk
    rwa [hw.le] at hs

end

/-- Settles O26: a request at hand is served where it is, and its object takes what the operation of R150, R283 or R292 leaves. -/
theorem memoryUpdates : Obligations.MemoryUpdates := by
  unfold Obligations.MemoryUpdates
  intro s q h off a
  obtain ⟨x, hx⟩ := h.core
  refine ⟨fun c hc hk => ?_, fun hk ha => ?_, fun hk ha => ?_, fun v hk hops => ?_⟩
  · have hrow : ∃ t, exec (c q.id) s = .next t ∧ AfterService s t q := by
      rcases hc with ⟨rfl, hoff⟩ | ⟨rfl, hoff⟩
      · exact ⟨_, rfl, h.homeRow hoff (by simp [hk]) (by rw [hk]; rfl) (by simp [hk])⟩
      · exact ⟨_, rfl, h.coreRow hoff (by simp [hk])⟩
    obtain ⟨t, ht, hs⟩ := hrow
    obtain ⟨r, hserved, holds, hmem⟩ := hs.atom hx hk
    exact ⟨t, r, ht, hserved, holds, le_of_putBytes hmem, fun o ho => byte_of_putBytes_other hmem (leBytes_length ..) ho⟩
  · obtain ⟨r, hserved, holds, hmem⟩ := (h.objectRow hk rfl (by decide)).barrier hx (.inl hk)
    rw [ha] at holds hmem
    exact ⟨_, r, rfl, hserved, le_of_putBytes hmem, holds, fun o ho => byte_of_putBytes_other hmem (leBytes_length ..) ho⟩
  · obtain ⟨r, hserved, -, hmem⟩ := (h.objectRow hk rfl (by decide)).barrier hx (.inr hk)
    rw [ha] at hmem
    exact ⟨_, r, rfl, hserved, le_of_putBytes hmem, fun o ho => byte_of_putBytes_other hmem (leBytes_length ..) ho⟩
  · obtain ⟨r, hserved, hmem⟩ := (h.objectRow hk rfl (by decide)).signal hx hk
    have hsum : (atomList 0 8 (s.le a 8) q.ops).2 = (s.le a 8 + v) % 2 ^ 64 := by
      rw [hops]
      exact (Nat.add_mod ..).symm
    rw [hsum] at hmem
    exact ⟨_, r, rfl, hserved, (le_of_putBytes hmem).trans (Nat.mod_mod ..),
      fun o ho => byte_of_putBytes_other hmem (leBytes_length ..) ho⟩

end Sys2Proof.Machine
end

section
/-! PROOF. Atomics on the core's own local store (R149 to R151, R183): O12. -/

set_option Elab.async false

namespace Sys2Proof.Machine

theorem LanesOnly.trans {gr gr' gr'' : Group} (h : LanesOnly gr gr') (h' : LanesOnly gr' gr'') : LanesOnly gr gr'' := by
  rw [LanesOnly] at h
  rw [LanesOnly, h', h]

/-! ### The line of an atomic leaves the core cache (R199) -/

theorem State.core_atomicLine (s : State) (g a h : Nat) : ∃ cc, (s.atomicLine g a).core h = { s.core h with cc := cc } := by
  have hcore : (s.atomicLine g a).core h = (s.modCore g fun c => c.drop (a / 128)).core h := rfl
  rw [hcore]
  by_cases hh : h = g
  · subst hh
    rw [State.core_modCore_same]
    exact ⟨_, rfl⟩
  · rw [State.core_modCore_other _ _ hh]
    exact ⟨(s.core h).cc, rfl⟩

theorem State.group_atomicLine (s : State) (g a : Nat) (x : Who) : (s.atomicLine g a).group x = s.group x := by
  obtain ⟨cc, hcc⟩ := s.core_atomicLine g a x.core
  rw [State.group, hcc]
  rfl

theorem State.calm_atomicLine (s : State) (g a h : Nat) : ((s.atomicLine g a).core h).calm = (s.core h).calm := by
  obtain ⟨cc, hcc⟩ := s.core_atomicLine g a h
  rw [hcc]
  rfl

/-- A request that may no longer fill goes where it went. -/
theorem State.ownQueued_atomicLine (s : State) (g a : Nat) (x : Who) (line : Nat) :
    (s.atomicLine g a).ownQueued x line = s.ownQueued x line := by
  refine (List.any_map ..).trans (congrArg s.reqs.any (funext fun r => ?_))
  dsimp only [Function.comp]
  split <;> rfl

/-! ### One address (R149) -/

/-- The lanes of an atomic at address `a`, each with its address and operands. -/
def lanesAt (es : List (Nat × Nat × Nat × Nat)) (a : Nat) : List (Nat × Nat × Nat × Nat) := es.filter fun e => e.2.1 = a

theorem mem_lanesAt {es : List (Nat × Nat × Nat × Nat)} {a : Nat} {e : Nat × Nat × Nat × Nat} :
    e ∈ lanesAt es a ↔ e ∈ es ∧ e.2.1 = a := by
  rw [lanesAt, List.mem_filter, decide_eq_true_eq]

/-- Their operands, in lane order. -/
def opsAt (es : List (Nat × Nat × Nat × Nat)) (a : Nat) : List (Nat × Nat) := (lanesAt es a).map fun e => e.2.2

/-- The old values of the lanes at `a`, with one poison for all. -/
def oldsAt (es : List (Nat × Nat × Nat × Nat)) (a : Nat) (olds : List Nat) (p : Bool) : List (Nat × Nat × Bool) :=
  oldVals ((lanesAt es a).map fun e => (e.1, a)) olds p

section
variable {es : List (Nat × Nat × Nat × Nat)} {a : Nat} {olds : List Nat} {p : Bool}

theorem exists_lanesAt_of_mem_oldsAt {v : Nat × Nat × Bool} (hv : v ∈ oldsAt es a olds p) : ∃ e ∈ lanesAt es a, e.1 = v.1 := by
  obtain ⟨e, he, rfl⟩ := List.mem_map.1 hv
  obtain ⟨e', he', hee⟩ := List.mem_map.1 (List.of_mem_zip he).1
  exact ⟨e', he', by rw [← hee]⟩

theorem oldsAt_lt (hlanes : ∀ e ∈ es, e.1 < 64) : ∀ v ∈ oldsAt es a olds p, v.1 < 64 := fun v hv => by
  obtain ⟨e, he, hev⟩ := exists_lanesAt_of_mem_oldsAt hv
  exact hev ▸ hlanes e (List.mem_of_mem_filter he)

theorem oldsAt_nodup (hnd : (es.map Prod.fst).Nodup) : ((oldsAt es a olds p).map Prod.fst).Nodup := by
  rw [oldsAt, oldVals_fst]
  refine ((List.take_sublist ..).map Prod.fst).nodup ?_
  rw [List.map_map]
  exact (List.filter_sublist.map Prod.fst).nodup hnd

theorem mem_oldsAt {j : Nat} (h : j < (lanesAt es a).length) (holds : j < olds.length) :
    (((lanesAt es a)[j]).1, olds.getD j 0, p) ∈ oldsAt es a olds p := by
  have hm := mem_oldVals (lanes := (lanesAt es a).map fun e => (e.1, a)) p (by simpa using h) holds
  rwa [List.getD_eq_getElem _ _ (by simpa using h), List.getElem_map] at hm

end

/-- From `u` to `t` an atomic of the core left `bs` at `a` in its own local store, and its group went through `F`. -/
structure AtomStep (x : Who) (u t : State) (a : Nat) (bs : List Byte) (F : Group → Group) : Prop where
  mem : t.mem = putBytes u.mem a [] bs
  lerr : t.m.lerr = u.m.lerr
  calm : (t.core x.core).calm = (u.core x.core).calm
  queued : ∀ line, t.ownQueued x line = u.ownQueued x line
  saved : t.rn .ATOM x.core 0 = u.rn .ATOM x.core 0
  group : t.group x = (u.group x).map F

theorem AtomStep.poisEvent {x : Who} {u t : State} {a : Nat} {bs : List Byte} {F : Group → Group} (h : AtomStep x u t a bs F) (f : Nat)
    (p : Bool) : AtomStep x u (t.poisEvent f p) a bs F := by
  obtain ⟨hmem, hlerr, hcalm, hqueued, hsaved, hgroup⟩ := h
  rw [State.poisEvent_only]
  exact ⟨hmem, hlerr, hcalm, hqueued, hsaved, hgroup⟩

/-- The lanes' part of an atomic, after its part at the point of coherence. -/
theorem AtomStep.putLoads {x : Who} {u t : State} {a : Nat} {bs : List Byte} (h : AtomStep x u t a bs id) (r sz : Nat)
    (es : List (Nat × Nat × Bool)) :
    AtomStep x u (t.modGroup x fun gr => gr.putLoads r sz 0 es) a bs (fun gr => gr.putLoads r sz 0 es) := by
  obtain ⟨hmem, hlerr, hcalm, hqueued, hsaved, hgroup⟩ := h
  refine ⟨hmem, hlerr, Eq.trans ?_ hcalm, hqueued, hsaved, ?_⟩
  · rw [State.modGroup, State.core_modCore_same]
    rfl
  · rw [State.group_modGroup_same t x _ fun gr => (gr.putLoads_lanesOnly r sz 0 es).is x, hgroup, Option.map_id]
    rfl

section
variable {x : Who} {u : State} {proto : Req} {a : Nat}

/-- The update of a word of the core's own local store. -/
theorem atomStep_pocAtom (hl : u.m.lerr = []) (hc : (u.core x.core).calm = true) (ho : own x.core a = true) (ha : fld a 47 0 = a)
    (f sz aop : Nat) (ops : List (Nat × Nat)) (p : Bool) :
    let r := (u.atomicLine x.core a).pocAtom f a sz aop ops p
    r.1 = (atomList aop sz (u.le a sz) ops).1 ∧ AtomStep x u r.2.2 a (leBytes sz (atomList aop sz (u.le a sz) ops).2) id := by
  intro r
  have haper : aperOf a = some x.core := by
    have h := (Bool.and_eq_true_iff.1 ho).2
    rw [ha] at h
    exact of_decide_eq_true h
  have hend : dramEnd ≤ a := by
    by_contra hlt
    rw [aperOf_dram (Nat.lt_of_not_le hlt)] at haper
    cases haper
  have hplaced : Placed (u.atomicLine x.core a) a := .inr ⟨hend, x.core, haper, by rw [State.calm_atomicLine, hc]⟩
  have hhome : HomeOnly false (u.atomicLine x.core a) r.2.2 := (HomeOnly.refl _).pocAtom
  obtain ⟨t, pw, ht, happ⟩ := hplaced.pocAtom hl f sz aop ops p
  rw [State.view_aperture _ hend] at ht happ
  have hr : r = ((atomList aop sz (u.le a sz) ops).1, pw, t) := ht
  rw [hr] at hhome ⊢
  refine ⟨rfl, happ.mem, happ.lerr, ?_, fun line => ?_, hhome.regs .ATOM _ _ (by decide), ?_⟩
  · rw [State.core_of_cores happ.cores, State.calm_atomicLine]
  · exact (congrArg (List.any · _) happ.reqs).trans (u.ownQueued_atomicLine ..)
  · rw [State.group_of_cores happ.cores, State.group_atomicLine, Option.map_id]
    rfl

/-- An atomic at an address of the core's own local store, with nothing of the core's before it, is made at once. -/
theorem atomStep_atomAddr (hl : u.m.lerr = []) (hc : (u.core x.core).calm = true) (ho : own x.core a = true) (ha : fld a 47 0 = a)
    (hrel : proto.rel = []) (hq : u.ownQueued x (a / 128) = false) (acq : Option Bool) (es : List (Nat × Nat × Nat × Nat)) (f : Nat)
    (hurt : Bool) :
    let r := atomList proto.aop proto.sz (u.le a proto.sz) (opsAt es a)
    ∃ p, AtomStep x u ((u.atomAddr x proto acq a es).poisEvent f hurt) a (leBytes proto.sz r.2) fun gr =>
      if proto.ret then gr.putLoads proto.reg proto.sz 0 (oldsAt es a r.1 p) else gr := by
  intro r
  let mine := lanesAt es a
  let ops := opsAt es a
  let poc := (u.atomicLine x.core a).pocAtom proto.flask a proto.sz proto.aop ops proto.pois
  obtain ⟨holds, hstep⟩ := atomStep_pocAtom hl hc ho ha proto.flask proto.sz proto.aop ops proto.pois
  have hown : own x.core a ∧ proto.rel = [] ∧ !((u.atomicLine x.core a).ownQueued x (a / 128)) :=
    ⟨ho, hrel, by rw [u.ownQueued_atomicLine, hq]; rfl⟩
  have haddr : u.atomAddr x proto acq a es = (if proto.ret then poc.2.2.modGroup x fun gr =>
      gr.putOlds { proto with addr := a, ops := ops, lanes := mine.map fun e => (e.1, a) } poc.1 (poc.2.1 || proto.pois)
      else poc.2.2).poisEvent proto.flask (poc.2.1 || proto.pois) := by
    rw [State.atomAddr]
    refine (if_pos hown).trans ?_
    rw [ha]
    rfl
  refine ⟨poc.2.1 || proto.pois, ?_⟩
  rw [haddr]
  refine (AtomStep.poisEvent ?_ _ _).poisEvent _ _
  cases hret : proto.ret
  · simp only [Bool.false_eq_true, if_false]
    exact hstep
  · simp only [if_true, Group.putOlds_eq]
    have hr : poc.1 = r.1 := holds
    rw [hr]
    exact hstep.putLoads proto.reg proto.sz (oldVals (mine.map fun e => (e.1, a)) r.1 (poc.2.1 || proto.pois))

end

/-! ### All addresses -/

theorem atomList_length (aop sz old : Nat) (ops : List (Nat × Nat)) : (atomList aop sz old ops).1.length = ops.length := by
  induction ops generalizing old with
  | nil => rfl
  | cons o ops ih => exact congrArg (· + 1) (ih _)

theorem State.le_congr {s t : State} {a n : Nat} (h : ∀ i, i < n → t.byte (a + i) = s.byte (a + i)) : t.le a n = s.le a n :=
  congrArg leNat (List.map_congr_left fun i hi => h i (List.mem_range.1 hi))

/-- From `u` to `t` the atomics at the addresses `as` were made, and their lanes, of group `gr`, got their old values. -/
structure AtomsDone (x : Who) (u t : State) (es : List (Nat × Nat × Nat × Nat)) (aop sz reg : Nat) (ret : Bool) (as : List Nat)
    (gr gr' : Group) : Prop where
  here : t.group x = some gr'
  new : ∀ a ∈ as, t.le a sz = (atomList aop sz (u.le a sz) (opsAt es a)).2 % 2 ^ (8 * sz)
  frame : ∀ o, (∀ a ∈ as, o < a ∨ a + sz ≤ o) → t.byte o = u.byte o
  saved : t.rn .ATOM x.core 0 = u.rn .ATOM x.core 0
  only : LanesOnly gr gr'
  still : ret = false → gr' = gr
  others : ∀ r l, l < 64 → (∀ a ∈ as, ∀ e ∈ lanesAt es a, e.1 ≠ l) → gr'.lane r l = gr.lane r l
  olds : ret = true → ∀ a ∈ as, ∀ j, (h : j < (lanesAt es a).length) → ∀ i, i < (sz + 3) / 4 →
    gr'.lane (reg + i) ((lanesAt es a)[j]).1 = BitVec.ofNat 32 ((atomList aop sz (u.le a sz) (opsAt es a)).1.getD j 0 / 2 ^ (32 * i))

section
variable {x : Who} {es : List (Nat × Nat × Nat × Nat)} {aop sz reg f : Nat} {ret : Bool} {proto : Nat → Req} {hurt : Nat → Bool}
  {acq : Option Bool} (hlanes : ∀ e ∈ es, e.1 < 64) (hnd : (es.map Prod.fst).Nodup)
  (hproto : ∀ a, (proto a).aop = aop ∧ (proto a).sz = sz ∧ (proto a).reg = reg ∧ (proto a).ret = ret ∧ (proto a).rel = [])
include hlanes hnd hproto

theorem atomsDone_foldl {as : List Nat} (hown : ∀ a ∈ as, own x.core a = true ∧ fld a 47 0 = a)
    (hdis : as.Pairwise fun a b => a + sz ≤ b ∨ b + sz ≤ a) (hne : as.Nodup) {u : State} {gr : Group} (hl : u.m.lerr = [])
    (hc : (u.core x.core).calm = true) (hq : ∀ a ∈ as, u.ownQueued x (a / 128) = false) (hg : u.group x = some gr) :
    ∃ gr', AtomsDone x u (as.foldl (fun s a => (s.atomAddr x (proto a) acq a es).poisEvent f (hurt a)) u) es aop sz reg ret as gr gr' := by
  induction as generalizing u gr with
  | nil =>
    exact ⟨gr, hg, fun _ h => absurd h List.not_mem_nil, fun _ _ => rfl, rfl, .refl gr, fun _ => rfl, fun _ _ _ _ => rfl,
      fun _ _ h => absurd h List.not_mem_nil⟩
  | cons a as ih =>
    obtain ⟨hown0, hown'⟩ := List.forall_mem_cons.1 hown
    obtain ⟨hq0, hq'⟩ := List.forall_mem_cons.1 hq
    obtain ⟨hdis0, hdis'⟩ := List.pairwise_cons.1 hdis
    obtain ⟨hne0, hne'⟩ := List.nodup_cons.1 hne
    obtain ⟨haop, hsz, hreg, hret, hrel⟩ := hproto a
    obtain ⟨p, hstep⟩ := atomStep_atomAddr hl hc hown0.1 hown0.2 hrel hq0 acq es f (hurt a)
    rw [haop, hsz, hreg, hret] at hstep
    obtain ⟨hmem, hlerr, hcalm, hqueued, hsaved, hgroup⟩ := hstep
    rw [hg, Option.map_some] at hgroup
    obtain ⟨gr', hdone⟩ := ih hown' hdis' hne' (hlerr.trans hl) (hcalm.trans hc) (fun b hb => (hqueued _).trans (hq' b hb)) hgroup
    rw [List.foldl_cons]
    generalize (u.atomAddr x (proto a) acq a es).poisEvent f (hurt a) = u' at *
    have hle : ∀ b ∈ as, u'.le b sz = u.le b sz := fun b hb =>
      State.le_congr fun i hi => byte_of_putBytes_other hmem (leBytes_length ..) (by have := hdis0 b hb; omega)
    have holds := oldsAt_lt (a := a) (olds := (atomList aop sz (u.le a sz) (opsAt es a)).1) (p := p) hlanes
    refine ⟨gr', hdone.here, ?new, ?frame, hdone.saved.trans hsaved, ?only, ?still, ?others, ?olds⟩
    case new =>
      refine List.forall_mem_cons.2 ⟨?_, fun b hb => ?_⟩
      · rw [← le_of_putBytes hmem]
        exact State.le_congr fun i hi => hdone.frame _ fun b hb => by have := hdis0 b hb; omega
      · rw [hdone.new b hb, hle b hb]
    case frame =>
      intro o ho
      obtain ⟨ho0, ho'⟩ := List.forall_mem_cons.1 ho
      rw [hdone.frame o ho', byte_of_putBytes_other hmem (leBytes_length ..) ho0]
    case only =>
      cases ret
      · exact hdone.only
      · exact ((Group.putLoads_lanesOnly ..).trans hdone.only :)
    case still =>
      intro h
      rw [hdone.still h, h]
      rfl
    case others =>
      intro r l hl64 ho
      obtain ⟨ho0, ho'⟩ := List.forall_mem_cons.1 ho
      rw [hdone.others r l hl64 ho']
      cases ret
      · rfl
      · refine Group.lane_putLoads_other holds _ hl64 fun ⟨_, _, v, hv, hvl⟩ => ?_
        obtain ⟨e, he, hev⟩ := exists_lanesAt_of_mem_oldsAt hv
        exact ho0 e he (hev.trans hvl)
    case olds =>
      intro h
      refine List.forall_mem_cons.2 ⟨fun j hj i hi => ?_, fun b hb j hj i hi => ?_⟩
      · rw [hdone.others]
        · subst h
          exact Group.lane_putLoads holds _ (oldsAt_nodup hnd) (mem_oldsAt hj (by rwa [atomList_length, opsAt, List.length_map])) hi
        · exact hlanes _ (List.mem_of_mem_filter (List.getElem_mem hj))
        · intro b hb e he heq
          have heq' := List.inj_on_of_nodup_map hnd (List.mem_of_mem_filter he) (List.mem_of_mem_filter (List.getElem_mem hj)) heq
          rw [heq'] at he
          exact hne0 ((mem_lanesAt.1 (List.getElem_mem hj)).2.symm.trans (mem_lanesAt.1 he).2 ▸ hb)
      · rw [hdone.olds h b hb j hj i hi, hle b hb]

end

/-! ### The instruction (R183) -/

/-- What an operand of `sz` bytes holds in lane `l`, from register `r`. -/
def Group.spanVal (gr : Group) (sz r l : Nat) : Nat :=
  (List.range (sz / 4)).foldl (fun a i => a + (gr.lane (r + i) l).toNat * 2 ^ (32 * i)) 0

theorem Group.spanVal_eq (gr : Group) {sz : Nat} (h : sz = 4 ∨ sz = 8) (r l : Nat) :
    gr.spanVal sz r l = (gr.lane r l).toNat + if sz = 8 then (gr.lane (r + 1) l).toNat * 2 ^ 32 else 0 := by
  have h4 : List.range (4 / 4) = [0] := rfl
  have h8 : List.range (8 / 4) = [0, 1] := rfl
  rcases h with rfl | rfl
  · rw [Group.spanVal, h4, List.foldl_cons, List.foldl_nil, Nat.mul_zero, Nat.pow_zero, Nat.mul_one, Nat.zero_add, Nat.add_zero,
      if_neg (by decide), Nat.add_zero]
  · rw [Group.spanVal, h8, List.foldl_cons, List.foldl_cons, List.foldl_nil, Nat.mul_zero, Nat.pow_zero, Nat.mul_one, Nat.zero_add,
      Nat.add_zero, if_pos rfl, Nat.mul_one]

/-- The lanes of an atomic, each with its address, operand and compare value. -/
def Group.atomLanes (gr : Group) (n : Nat) : List (Nat × Nat × Nat × Nat) :=
  (gr.onLanes (mkOf n)).map fun l => (l, gr.addrA n l, gr.spanVal (2 ^ fld n 11 10) (fld n 36 29) l,
    if fld n 15 12 = 0xC then gr.spanVal (2 ^ fld n 11 10) (fld n 28 21) l else 0)

/-- The registers ATOM names. -/
def atomRegs (n : Nat) : List Nat :=
  (if bit n 4 = 1 then regSpan (fld n 52 45) (2 ^ fld n 11 10) else []) ++ [fld n 44 37] ++ regSpan (fld n 36 29) (2 ^ fld n 11 10)
    ++ (if fld n 15 12 = 0xC then regSpan (fld n 28 21) (2 ^ fld n 11 10) else []) ++ [256 + fld n 20 16]

section
variable {x : Who} {w : BitVec 56} {s : State} {gr : Group}

/-- A legal ATOM without ordering makes one request for each address (R149). -/
theorem atom_exec (hi : Issues s x gr true (atomRegs w.toNat)) (hform : formA (s.rpl x) w.toNat = true) (hord : fld w.toNat 6 5 = 0)
    (hgood : ∀ l ∈ gr.onLanes (mkOf w.toNat),
      s.addrBad (some x.core) (s.flaskOf x) 2 (gr.addrA w.toNat l) (2 ^ fld w.toNat 11 10) = false) :
    let es := gr.atomLanes w.toNat
    let as := (es.map fun e => e.2.1).eraseDups
    let u := ((s.fetched x gr.pc).retire x).addSat .ATOM x.core 0 32 (es.length - as.length)
    ∃ (proto : Nat → Req) (hurt : Nat → Bool) (f : Nat), (∀ a, (proto a).aop = fld w.toNat 15 12 ∧ (proto a).sz = 2 ^ fld w.toNat 11 10
        ∧ (proto a).reg = fld w.toNat 52 45 ∧ (proto a).ret = decide (bit w.toNat 4 = 1) ∧ (proto a).rel = [])
      ∧ exec (.atom x w) s = .next (as.foldl (fun s a => (s.atomAddr x (proto a) none a es).poisEvent f (hurt a)) u) := by
  intro es as u
  have hfault : s.laneFault (some x.core) (s.flaskOf x) 2 (2 ^ fld w.toNat 11 10)
      ((gr.onLanes (mkOf w.toNat)).map fun l => (l, gr.addrA w.toNat l)) = none := by
    rw [State.laneFault, List.find?_eq_none.2]
    · rfl
    · intro e he
      obtain ⟨l, hl, rfl⟩ := List.mem_map.1 he
      simp [hgood l hl]
  let hurt (a : Nat) : Bool := gr.maskP (mkOf w.toNat) || gr.unifP (fld w.toNat 20 16) || (gr.onLanes (mkOf w.toNat)).any fun l =>
    gr.addrA w.toNat l = a && (gr.laneP (fld w.toNat 44 37) l
      || (regSpan (fld w.toNat 36 29) (2 ^ fld w.toNat 11 10)).any (fun r => gr.laneP r l)
      || (fld w.toNat 15 12 = 0xC && (regSpan (fld w.toNat 28 21) (2 ^ fld w.toNat 11 10)).any fun r => gr.laneP r l))
  refine ⟨fun a => { emptyReq 0 (.grp x) (((s.fetched x gr.pc).retire x).flaskOf x) .atom 0 (2 ^ fld w.toNat 11 10) with
      pc := gr.pc, aop := fld w.toNat 15 12, sz := 2 ^ fld w.toNat 11 10, reg := fld w.toNat 52 45,
      ret := decide (bit w.toNat 4 = 1), pois := hurt a, rel := [] }, hurt, ((s.fetched x gr.pc).retire x).flaskOf x,
    fun a => ⟨rfl, rfl, rfl, rfl, rfl⟩, congrArg Host.Outcome.next ((presentMem_issues (gr := gr) ?_ ?_).trans ?_)⟩
  · simp only [decide_eq_true_eq]
    exact hi
  · rw [hform]
    exact hfault
  · have hlen : es.length = (gr.onLanes (mkOf w.toNat)).length := List.length_map ..
    have hacq : hasAcq 0 = false := rfl
    have hrel (k : Nat) : gr.relWait (hasRel 0) k = [] := if_neg fun h => absurd h.1 (by decide)
    simp only [hord, hacq, hrel, Bool.false_eq_true, if_false]
    rw [← hlen]
    rfl

end

/-- The state in which the requests of an atomic are made: it has issued and its saving is counted. -/
theorem atom_start {x : Who} {s : State} {gr : Group} (hg : s.group x = some gr) (hl : s.m.lerr = []) (n : Nat) :
    let u := ((s.fetched x gr.pc).retire x).addSat .ATOM x.core 0 32 n
    u.mem = s.mem ∧ u.m.lerr = [] ∧ u.reqs = s.reqs ∧ (u.core x.core).calm = (s.core x.core).calm ∧ u.group x = some gr.advance
      ∧ u.rn .ATOM x.core 0 = min (2 ^ 32 - 1) (s.rn .ATOM x.core 0 + n) := by
  intro u
  have hhere := (s.fetched_group x x gr.pc).trans hg
  obtain ⟨gs, lq, hcore⟩ := State.core_issued hg
  have hfields : ((s.fetched x gr.pc).retire x).mem = s.mem ∧ ((s.fetched x gr.pc).retire x).m = s.m
      ∧ ((s.fetched x gr.pc).retire x).reqs = s.reqs := by
    have hu : ∃ r c ns, (s.fetched x gr.pc).retire x = { s with regs := r, cores := c, notices := ns } :=
      ⟨_, _, _, (State.retire_only ..).trans (by rw [State.fetched_sound hl, State.poisEvent_only])⟩
    obtain ⟨r, c, ns, hu⟩ := hu
    rw [hu]
    exact ⟨rfl, rfl, rfl⟩
  have hul : u.m.lerr = [] := by
    rw [show u.m = s.m from hfields.2.1, hl]
  refine ⟨hfields.1, hul, hfields.2.2, ?_, (retired_retire hhere).group, ?_⟩
  · exact (congrArg Core.calm hcore).trans rfl
  · rw [State.rn_addSat_same]
    exact congrArg (fun v => min (2 ^ 32 - 1) (BitVec.toNat v + n)) (State.issued_rd hhere (by decide) (by decide) (by decide) _ _)

/-! ### Addresses of the core's own local store (R38, R179) -/

/-- An address of R179 in an aperture is its offset, aligned. -/
theorem own_addr {s : State} {me : Option Nat} {f p a n g : Nat} (h64 : a < 2 ^ 64) (ho : own g a = true)
    (hb : s.addrBad me f p a n = false) : fld a 47 0 = a ∧ a % n = 0 := by
  have h63 : bit a 63 = 0 := of_decide_eq_true (Bool.and_eq_true_iff.1 ho).1
  simp only [State.addrBad, Bool.or_eq_false_iff, Bool.and_eq_false_iff, decide_eq_false_iff_not, ne_eq, Decidable.not_not] at hb
  obtain ⟨⟨⟨h62, hup⟩, halign⟩, -⟩ := hb
  have hup := hup.resolve_left (not_not_intro h63)
  refine ⟨?_, halign⟩
  simp only [fld, bit, Nat.shiftRight_eq_div_pow] at h62 h63 hup ⊢
  omega

/-- Aligned offsets that differ lie apart. -/
theorem aligned_apart {a b n : Nat} (hn : n = 4 ∨ n = 8) (ha : a % n = 0) (hb : b % n = 0) (h : a ≠ b) : a + n ≤ b ∨ b + n ≤ a := by
  rcases hn with rfl | rfl <;> omega

/-! ### The place of a lane among those of its address -/

/-- In ascending order, as many are below an entry as stand before it. -/
theorem length_filter_lt_getElem {l : List Nat} (h : l.Pairwise (· < ·)) {j : Nat} (hj : j < l.length) :
    (l.filter fun k => k < l[j]).length = j := by
  induction l generalizing j with
  | nil => exact absurd hj (Nat.not_lt_zero j)
  | cons a l ih =>
    obtain ⟨ha, hl⟩ := List.pairwise_cons.1 h
    cases j with
    | zero =>
      rw [List.getElem_cons_zero, List.filter_cons_of_neg (by simp),
        List.filter_eq_nil_iff.2 fun b hb => by simpa using Nat.le_of_lt (ha b hb)]
      rfl
    | succ j =>
      have hj' : j < l.length := Nat.lt_of_succ_lt_succ hj
      rw [List.getElem_cons_succ, List.filter_cons_of_pos (by simpa using ha _ (List.getElem_mem hj')), List.length_cons, ih hl hj']

/-- The unmasked lanes whose address is `a`, ascending. -/
def Group.lanesTo (gr : Group) (n a : Nat) : List Nat := (gr.onLanes (mkOf n)).filter fun l => gr.addrA n l = a

theorem Group.lanesTo_sorted (gr : Group) (n a : Nat) : (gr.lanesTo n a).Pairwise (· < ·) :=
  (List.pairwise_lt_range.filter _).filter _

theorem lanesAt_atomLanes (gr : Group) (n a : Nat) : lanesAt (gr.atomLanes n) a = (gr.lanesTo n a).map fun l =>
    (l, gr.addrA n l, gr.spanVal (2 ^ fld n 11 10) (fld n 36 29) l,
      if fld n 15 12 = 0xC then gr.spanVal (2 ^ fld n 11 10) (fld n 28 21) l else 0) := List.filter_map ..

theorem opsAt_atomLanes (gr : Group) (n a : Nat) : opsAt (gr.atomLanes n) a = (gr.lanesTo n a).map fun l =>
    (gr.spanVal (2 ^ fld n 11 10) (fld n 36 29) l, if fld n 15 12 = 0xC then gr.spanVal (2 ^ fld n 11 10) (fld n 28 21) l else 0) := by
  rw [opsAt, lanesAt_atomLanes, List.map_map]
  rfl

/-- Lane `l` of an address stands where as many lanes below it have that address. -/
theorem lanesTo_place (gr : Group) {n l : Nat} (hl : l ∈ gr.onLanes (mkOf n)) : ∃ j, ∃ h : j < (gr.lanesTo n (gr.addrA n l)).length,
    (gr.lanesTo n (gr.addrA n l))[j] = l
      ∧ ((gr.onLanes (mkOf n)).filter fun k => gr.addrA n k = gr.addrA n l && k < l).length = j := by
  obtain ⟨j, hj, hjl⟩ := List.mem_iff_getElem.1
    (show l ∈ gr.lanesTo n (gr.addrA n l) from List.mem_filter.2 ⟨hl, decide_eq_true rfl⟩)
  refine ⟨j, hj, hjl, ?_⟩
  rw [← length_filter_lt_getElem (gr.lanesTo_sorted n (gr.addrA n l)) hj, hjl, Group.lanesTo, List.filter_filter]
  simp only [Bool.and_comm]

theorem eraseDups_nodup : ∀ l : List Nat, l.eraseDups.Nodup
  | [] => by simp
  | a :: l => by
    rw [List.eraseDups_cons, List.nodup_cons]
    exact ⟨by simp, eraseDups_nodup _⟩
termination_by l => l.length
decreasing_by exact Nat.lt_succ_of_le (List.length_filter_le ..)

/-- ATOM names words of four or eight bytes. -/
theorem formA_size {rpl n : Nat} (h : formA rpl n = true) : 2 ^ fld n 11 10 = 4 ∨ 2 ^ fld n 11 10 = 8 := by
  have h2 : 2 ≤ fld n 11 10 := by
    simp only [formA, Bool.and_eq_true, decide_eq_true_eq] at h
    tauto
  have h4 := fld_lt n 11 10
  have hcases : fld n 11 10 = 2 ∨ fld n 11 10 = 3 := by omega
  rcases hcases with h | h <;> simp [h]

/-- Settles O12: every address takes the operations of its lanes in lane order, one address after another; distinct addresses are words
apart, so no one sees another's. -/
theorem localAtomics : Obligations.LocalAtomics := by
  unfold Obligations.LocalAtomics
  intro x w s gr n sz aop ret regs val as ops hi hform hord hown
  obtain ⟨hmine, hgood, hidle, hcalm, hlerr⟩ := hown
  have hsz : sz = 4 ∨ sz = 8 := formA_size hform
  have has : as = (gr.onLanes (mkOf n)).map fun l => (l, gr.addrA n l) := by
    simp only [as, Group.addrA, mkOf]
  clear_value as
  subst has
  have hops (a : Nat) : opsAt (gr.atomLanes n) a = ops a := by
    rw [opsAt_atomLanes]
    simp only [ops, List.filter_map, List.map_map]
    refine List.map_congr_left fun l _ => ?_
    have hval (r : Nat) : gr.spanVal sz r l = val r l := gr.spanVal_eq hsz r l
    exact congrArg₂ Prod.mk (hval _) (congrArg (fun v => if aop = 0xC then v else 0) (hval _))
  have hmem : ∀ l ∈ gr.onLanes (mkOf n), (l, gr.addrA n l) ∈ (gr.onLanes (mkOf n)).map fun l => (l, gr.addrA n l) :=
    fun l hl => List.mem_map_of_mem hl
  have hbad : ∀ l ∈ gr.onLanes (mkOf n), s.addrBad (some x.core) (s.flaskOf x) 2 (gr.addrA n l) (2 ^ fld n 11 10) = false :=
    fun l hl => hgood (l, gr.addrA n l) (hmem l hl)
  obtain ⟨proto, hurt, f, hproto, hexec⟩ := atom_exec (w := w) hi hform hord hbad
  obtain ⟨humem, hulerr, hureqs, hucalm, hugroup, husaved⟩ := atom_start (x := x) hi.here hlerr
    ((gr.atomLanes n).length - ((gr.atomLanes n).map fun e => e.2.1).eraseDups.length)
  have haddrs : (gr.atomLanes n).map (fun e => e.2.1) = (gr.onLanes (mkOf n)).map (gr.addrA n) := by
    rw [Group.atomLanes, List.map_map]
    rfl
  have haddr : ∀ l ∈ gr.onLanes (mkOf n), fld (gr.addrA n l) 47 0 = gr.addrA n l ∧ gr.addrA n l % sz = 0 := fun l hl =>
    own_addr (Nat.mod_lt _ (by decide)) (hmine (l, gr.addrA n l) (hmem l hl)) (hbad l hl)
  have hin : ∀ a ∈ ((gr.atomLanes n).map fun e => e.2.1).eraseDups, ∃ l ∈ gr.onLanes (mkOf n), gr.addrA n l = a := fun a ha => by
    rw [haddrs, List.mem_eraseDups] at ha
    exact List.mem_map.1 ha
  have hlanes : ∀ e ∈ gr.atomLanes n, e.1 < 64 := fun e he => by
    obtain ⟨l, hl, rfl⟩ := List.mem_map.1 he
    exact (mem_onLanes.1 hl).1
  have hnd : ((gr.atomLanes n).map Prod.fst).Nodup := by
    rw [Group.atomLanes, List.map_map]
    simpa [Function.comp_def] using onLanes_nodup gr (mkOf n)
  have howned : ∀ a ∈ ((gr.atomLanes n).map fun e => e.2.1).eraseDups, own x.core a = true ∧ fld a 47 0 = a := fun a ha => by
    obtain ⟨l, hl, rfl⟩ := hin a ha
    exact ⟨hmine (l, gr.addrA n l) (hmem l hl), (haddr l hl).1⟩
  have hapart : ((gr.atomLanes n).map fun e => e.2.1).eraseDups.Pairwise fun a b => a + sz ≤ b ∨ b + sz ≤ a := by
    refine (eraseDups_nodup _).imp_of_mem fun ha hb hne => ?_
    obtain ⟨l, hl, rfl⟩ := hin _ ha
    obtain ⟨k, hk, rfl⟩ := hin _ hb
    exact aligned_apart hsz (haddr l hl).2 (haddr k hk).2 hne
  obtain ⟨gr', hdone⟩ := atomsDone_foldl (es := gr.atomLanes n) (hurt := hurt) (f := f) (acq := none) hlanes hnd hproto howned hapart
    (eraseDups_nodup _) hulerr (hucalm.trans hcalm) (fun a ha => by
      obtain ⟨l, hl, rfl⟩ := hin a ha
      exact (congrArg (List.any · _) hureqs).trans (hidle (l, gr.addrA n l) (hmem l hl))) hugroup
  have hule (a : Nat) : (((s.fetched x gr.pc).retire x).addSat .ATOM x.core 0 32
      ((gr.atomLanes n).length - ((gr.atomLanes n).map fun e => e.2.1).eraseDups.length)).le a sz = s.le a sz := by
    simp only [State.le, State.bytes, State.byte, humem]
  have hat : ∀ l ∈ gr.onLanes (mkOf n), gr.addrA n l ∈ ((gr.atomLanes n).map fun e => e.2.1).eraseDups := fun l hl => by
    rw [haddrs, List.mem_eraseDups]
    exact List.mem_map_of_mem hl
  refine ⟨_, gr', hexec, hdone.here, ?new, ?frame, ?olds, ?still, ?unif, ?mask, ?saved⟩
  case new =>
    refine List.forall_mem_map.2 fun l hl => ?_
    rw [(haddr l hl).1, hdone.new _ (hat l hl), hule, hops]
  case frame =>
    intro o ho
    rw [hdone.frame o fun a ha => ?_]
    · exact congrArg (Sparse.get 0 · o) humem
    · obtain ⟨l, hl, rfl⟩ := hin a ha
      have h := ho (l, gr.addrA n l) (hmem l hl)
      rwa [(haddr l hl).1] at h
  case olds =>
    intro hret
    refine List.forall_mem_map.2 fun l hl i hi => ?_
    obtain ⟨j, hj, hjl, hlen⟩ := lanesTo_place gr hl
    have hj' : j < (lanesAt (gr.atomLanes n) (gr.addrA n l)).length := by rwa [lanesAt_atomLanes, List.length_map]
    have hlane : ((lanesAt (gr.atomLanes n) (gr.addrA n l))[j]).1 = l := by
      simp only [lanesAt_atomLanes, List.getElem_map]
      exact hjl
    have hplace : (((gr.onLanes (mkOf n)).map fun l => (l, gr.addrA n l)).filter fun f => f.2 = gr.addrA n l && f.1 < l).length = j := by
      rw [List.filter_map, List.length_map]
      exact hlen
    have h := hdone.olds (decide_eq_true hret) _ (hat l hl) j hj' i (Nat.lt_of_lt_of_le hi (Nat.div_le_div_right (Nat.le_add_right ..)))
    rw [hlane, hule, hops] at h
    rw [(haddr l hl).1, hplace]
    exact h
  case still =>
    intro hret
    rw [hdone.still (decide_eq_false hret)]
    rfl
  case unif =>
    rw [hdone.only]
    rfl
  case mask =>
    rw [hdone.only]
    rfl
  case saved =>
    rw [hdone.saved, husaved, haddrs, List.map_map, Group.atomLanes, List.length_map, List.length_map]
    rfl

end Sys2Proof.Machine
end

section
/-! PROOF. Instructions held for an engine: presenting them, and LCMK (R148, R191, R193): part of O41. -/

set_option Elab.async false

namespace Sys2Proof.Machine

/-! ### Presenting an instruction that is held for an engine (R191) -/

/-- The group with another wait, or none. -/
def Group.waiting (w : Option Wait) (gr : Group) : Group := { gr with wait := w }

/-- The state in which an instruction held for an engine has issued, before its effect. -/
def State.issuedWait (s : State) (x : Who) (gr : Group) : State :=
  ((s.fetched x gr.pc).retire x).modGroup x (Group.waiting none)

/-- The state in which its group waits. -/
def State.heldWait (s : State) (x : Who) (gr : Group) (kind : WKind) (obj : Nat) : State :=
  (s.fetched x gr.pc).modGroup x (Group.waiting (some (newWait kind obj 0 0 0)))

theorem State.flaskOf_of {s t : State} {x : Who} (hp : t.pat = s.pat) (hc : (t.core x.core).hflask = (s.core x.core).hflask) :
    t.flaskOf x = s.flaskOf x := by
  rw [State.flaskOf, State.guestOf_of_pat hp, hc, State.flaskOf]

/-! ### What the issue leaves alone -/

theorem issuedWait_mem (s : State) (x : Who) (gr : Group) : (s.issuedWait x gr).mem = s.mem := by
  rw [State.issuedWait, State.modGroup_mem, State.retire_only, s.fetched_only x gr.pc]
theorem issuedWait_runner (s : State) (x : Who) (gr : Group) : (s.issuedWait x gr).runner = s.runner := by
  rw [State.issuedWait, State.modGroup_runner, State.retire_only, s.fetched_only x gr.pc]
theorem issuedWait_reqs (s : State) (x : Who) (gr : Group) : (s.issuedWait x gr).reqs = s.reqs := by
  rw [State.issuedWait, State.modGroup_reqs, State.retire_only, s.fetched_only x gr.pc]
theorem issuedWait_nextId (s : State) (x : Who) (gr : Group) : (s.issuedWait x gr).nextId = s.nextId := by
  rw [State.issuedWait, State.modGroup_nextId, State.retire_only, s.fetched_only x gr.pc]
theorem issuedWait_pat (s : State) (x : Who) (gr : Group) : (s.issuedWait x gr).pat = s.pat := by
  rw [State.issuedWait, State.modGroup_pat, State.retire_only, s.fetched_only x gr.pc]

section
variable {x : Who} {gr : Group} {s : State} {regs : List Nat} (hi : Issues s x gr true regs)
include hi

theorem Issues.idle : gr.waits regs = false ∧ gr.acq = [] ∧ gr.wait = none := by
  simpa [Group.held, and_assoc] using hi.free

section
variable {kind : WKind} {obj : Nat} {chk : Check} {rdy : State → Group → Bool} {eff : State → Group → State} (hc : chk s gr = none)
include hc

theorem presentWait_issues (hr : rdy s gr = true) : presentWait x kind obj regs chk rdy eff s = eff (s.issuedWait x gr) gr := by
  obtain ⟨hw, ha, hn⟩ := hi.idle
  simp only [presentWait, hi.here, hi.runs, hi.fetch, hw, ha, hn, hc, hr]
  rfl

theorem presentWait_held (hr : rdy s gr = false) : presentWait x kind obj regs chk rdy eff s = s.heldWait x gr kind obj := by
  obtain ⟨hw, ha, hn⟩ := hi.idle
  simp only [presentWait, hi.here, hi.runs, hi.fetch, hw, ha, hn, hc, hr]
  rfl

end

theorem heldWait_heldFor (kind : WKind) (obj : Nat) : HeldFor x kind gr s (s.heldWait x gr kind obj) := by
  refine ⟨⟨newWait kind obj 0 0 0, ?_, rfl⟩, ?_, ?_, ?_⟩
  · rw [State.heldWait, State.group_modGroup_same _ x (Group.waiting _) fun _ => rfl, s.fetched_group, hi.here]
    rfl
  · rw [State.heldWait, State.modGroup_mem, s.fetched_only x gr.pc]
  · rw [State.heldWait, State.modGroup_runner, s.fetched_only x gr.pc]
  · rw [State.heldWait, State.modGroup_reqs, s.fetched_only x gr.pc]

theorem issuedWait_group : (s.issuedWait x gr).group x = some gr.advance := by
  have hr := (retired_retire ((s.fetched_group x x gr.pc).trans hi.here)).group
  have hw : gr.advance.waiting none = gr.advance := by
    obtain ⟨-, -, hn⟩ := hi.idle
    rw [Group.waiting, Group.advance, ← hn]
  rw [State.issuedWait, State.group_modGroup_same _ x (Group.waiting none) fun _ => rfl, hr, Option.map_some, hw]

theorem issuedWait_core : ∃ gs lq, (s.issuedWait x gr).core x.core = { s.core x.core with groups := gs, lastq := lq } := by
  obtain ⟨gs, lq, hc⟩ := State.core_issued hi.here
  rw [State.issuedWait, State.modGroup, State.core_modCore_same, hc]
  exact ⟨_, _, rfl⟩

theorem issuedWait_core_other {g : Nat} (hg : g ≠ x.core) : (s.issuedWait x gr).core g = s.core g := by
  rw [State.issuedWait, State.modGroup, State.core_modCore_other _ _ hg,
    (retired_retire ((s.fetched_group x x gr.pc).trans hi.here)).others g hg, State.core_of_cores (s.fetched_cores x gr.pc)]

theorem issuedWait_rn {r : Reg} (h1 : r ∉ homeRegs) (h2 : r ≠ .ISSUE) (h3 : r ≠ .GSTARVE) (i j : Nat) :
    (s.issuedWait x gr).rn r i j = s.rn r i j :=
  congrArg BitVec.toNat (State.issued_rd ((s.fetched_group x x gr.pc).trans hi.here) h1 h2 h3 i j)

theorem issuedWait_wentOn : WentOn x gr s (s.issuedWait x gr) where
  group := ⟨_, issuedWait_group hi, rfl, hi.idle.2.2, rfl, rfl, rfl⟩
  count := (retired_retire ((s.fetched_group x x gr.pc).trans hi.here)).count.trans (by rw [s.fetched_rd x gr.pc (by decide)])
  others g hg := by rw [issuedWait_core_other hi hg]

theorem issuedWait_flaskOf : (s.issuedWait x gr).flaskOf x = s.flaskOf x := by
  obtain ⟨gs, lq, hc⟩ := issuedWait_core hi
  exact State.flaskOf_of (issuedWait_pat s x gr) (by rw [hc])

end


/-! ### What an effect may add to it -/

/-- An effect that leaves the groups and the count of issues alone. -/
theorem WentOn.of {x : Who} {gr : Group} {s t u : State} (h : WentOn x gr s t) (hg : ∀ g, (u.core g).groups = (t.core g).groups)
    (hc : u.rn .ISSUE x.core (streamNum x.strm) = t.rn .ISSUE x.core (streamNum x.strm)) : WentOn x gr s u where
  group := by
    have hx : u.group x = t.group x := by rw [State.group, State.group, Core.group, Core.group, hg]
    rw [hx]
    exact h.group
  count := (BitVec.eq_of_toNat_eq hc).trans h.count
  others g hgx := by rw [hg, h.others g hgx]

/-- An engine's accesses do. -/
theorem WentOn.home {x : Who} {gr : Group} {s t u : State} {b : Bool} (h : WentOn x gr s t) (hu : HomeOnly b t u) : WentOn x gr s u :=
  h.of (fun g => by
    obtain ⟨pf, hpf⟩ := hu.cores g
    rw [hpf]) (hu.regs _ _ _ (by decide))

/-! ### LCMK (R148, R193) -/

theorem formS_of {n k : Nat} (h1 : fld n 50 32 = 0) (h2 : fld n 31 0 < 2 ^ k) : formS n false false false k = true := by
  have h3 : fld n 39 32 = 0 := fld_within h1 (by decide) (by decide)
  have h4 : fld n 50 46 = 0 := fld_within h1 (by decide) (by decide)
  have h5 : fld n 45 43 = 0 := fld_within h1 (by decide) (by decide)
  have h6 : fld n 42 40 = 0 := fld_within h1 (by decide) (by decide)
  simp [formS, h2, h3, h4, h5, h6]

theorem lcmk_marks {x : Who} {w : BitVec 56} {s : State} {gr : Group} (hi : Issues s x gr true []) (hu : x.strm = .u)
    (hq : s.uQuiet x.core = true) (h1 : fld w.toNat 55 32 = 0) (h2 : fld w.toNat 31 16 = 0) :
    ∃ t gr' m, exec (.lcmk x w) s = .next t ∧ Retired x gr' false (s.fetched x gr.pc) { t with ladle := s.ladle }
      ∧ gr' = gr.advance ∧ t.ladle = { s.ladle with marks := s.ladle.marks ++ [m] } ∧ m.who = x ∧ m.flask = s.flaskOf x
      ∧ m.val = fld w.toNat 15 0 := by
  have hg := (s.fetched_group x x gr.pc).trans hi.here
  have hr := retired_retire hg
  have hform : (decide (x.strm = .u) && decide (fld w.toNat 55 51 = 0) && formS w.toNat false false false 16) = true := by
    have hua : fld w.toNat 55 51 = 0 := fld_within h1 (by decide) (by decide)
    simp [hu, hua, formS_of (fld_within h1 (by decide) (by decide)) (fld_lt_of_upper (mid := 16) h2 (by decide))]
  have hladle : ((s.fetched x gr.pc).retire x).ladle = s.ladle := by
    rw [hr.only, s.fetched_only x gr.pc]
  have hflask : ((s.fetched x gr.pc).retire x).flaskOf x = s.flaskOf x := by
    obtain ⟨gs, lq, hc⟩ := State.core_issued hi.here
    exact State.flaskOf_of (by rw [hr.only, s.fetched_only x gr.pc]) (by rw [hc])
  refine ⟨_, gr.advance, ⟨x, gr.pc, ((s.fetched x gr.pc).retire x).flaskOf x, fld w.toNat 15 0⟩,
    congrArg Host.Outcome.next (present_issues hi.here hi.runs hi.fetch (by simp [hi.free, hu, hq]) (need_of hform)), ?_, rfl, ?_, rfl, hflask, rfl⟩
  · have he : { ((s.fetched x gr.pc).retire x) with ladle := s.ladle } = (s.fetched x gr.pc).retire x := by rw [← hladle]
    exact he ▸ hr
  · dsimp only
    rw [hladle]

end Sys2Proof.Machine
end

section
/-! PROOF. An engine's lines, and QPUT (R191, R262, R377, R378): part of O41. -/

set_option Elab.async false

namespace Sys2Proof.Machine

/-! ### The bytes of an engine's lines -/

/-- Within a line, views keep the distance of offsets. -/
theorem State.view_add (s : State) {off i : Nat} (h : (off + i) / 128 = off / 128) : s.view (off + i) = s.view off + i := by
  have hdram : off + i < dramEnd ↔ off < dramEnd := by
    unfold dramEnd
    omega
  have hregion : regionOf (off + i) = regionOf off := by
    unfold regionOf
    omega
  have hmod : (off + i) % 2 ^ 30 = off % 2 ^ 30 + i := by omega
  unfold State.view
  simp only [hdram, hregion, hmod, ← Nat.add_assoc]
  split
  · split
    · rfl
    · rfl
  · rfl

theorem range_map_add {α : Type} (f : Nat → α) (m n : Nat) :
    (List.range (m + n)).map f = (List.range m).map f ++ (List.range n).map fun i => f (m + i) := by
  rw [List.range_add, List.map_append, List.map_map]
  rfl

/-- The lines of a span, one after another, are its bytes as viewed. -/
theorem State.flatten_linePieces (s : State) (a n : Nat) :
    ((linePieces a n).map fun p => s.bytes (s.view p.1) p.2).flatten = (List.range n).map fun k => s.byte (s.view (a + k)) := by
  have hpart (m : Nat) : ((List.range m).map fun i => s.bytes (s.view (max a ((a / 128 + i) * 128)))
      (min (a + n) ((a / 128 + i + 1) * 128) - max a ((a / 128 + i) * 128))).flatten
        = (List.range (min (a + n) ((a / 128 + m) * 128) - a)).map fun k => s.byte (s.view (a + k)) := by
    induction m with
    | zero =>
      have h0 : min (a + n) ((a / 128 + 0) * 128) - a = 0 := by omega
      rw [h0]
      rfl
    | succ m ih =>
      have hsum : min (a + n) ((a / 128 + (m + 1)) * 128) - a = (min (a + n) ((a / 128 + m) * 128) - a)
          + (min (a + n) ((a / 128 + m + 1) * 128) - max a ((a / 128 + m) * 128)) := by omega
      rw [List.range_succ, List.map_append, List.flatten_append, ih, hsum, range_map_add]
      refine congrArg _ ?_
      simp only [List.map_cons, List.map_nil, List.flatten_cons, List.flatten_nil, List.append_nil, State.bytes]
      refine List.map_congr_left fun i hi => ?_
      have hi := List.mem_range.1 hi
      have hlo : a + (min (a + n) ((a / 128 + m) * 128) - a + i) = max a ((a / 128 + m) * 128) + i := by omega
      rw [hlo, s.view_add (by omega)]
  by_cases hn : n = 0
  · subst hn
    rfl
  · have hend : min (a + n) ((a / 128 + ((a + n - 1) / 128 - a / 128 + 1)) * 128) - a = n := by omega
    rw [linePieces, if_neg hn, List.map_map]
    exact (hpart _).trans (by rw [hend])

theorem dramEnd_le_lsAt (g o : Nat) : dramEnd ≤ lsAt g o := by
  unfold lsAt aper apBase dramEnd
  omega

/-- The bytes of a local store are viewed where they lie. -/
theorem State.viewed_local (s : State) (g o n : Nat) :
    ((List.range n).map fun k => s.byte (s.view (lsAt g o + k))) = s.bytes (lsAt g o) n :=
  List.map_congr_left fun k _ => by rw [s.view_aperture (Nat.le_trans (dramEnd_le_lsAt g o) (Nat.le_add_right _ k))]

/-- An engine reads a local store as it stands; an error of its storage is found and recorded (R195). -/
theorem State.engRead_local (s : State) (f g o : Nat) {n : Nat} (hn : n ≠ 0) :
    (s.engRead f (lsAt g o) n).1 = s.bytes (lsAt g o) n ∧ (s.engRead f (lsAt g o) n).2.2 = s.scrub (lsAt g o) n := by
  have hd := dramEnd_le_lsAt g o
  have hmem : (s.scrub (lsAt g o) n).mem = s.mem := by
    rw [s.scrub_only (lsAt g o) n]
  rw [State.engRead, if_neg (Nat.not_lt.2 hd), if_neg hn, s.view_aperture hd]
  refine ⟨?_, rfl⟩
  dsimp only
  rw [State.flatten_linePieces, State.viewed_local]
  simp only [State.bytes, State.byte, hmem]

/-! ### What an engine sends line by line (R262) -/

/-- From `u` to `t` an engine has sent `bs` for a flask, as writes of a line each from address `a` on. -/
structure SentLines (f a : Nat) (bs : List Byte) (u t : State) (rs : List Req) : Prop where
  state : t = { u with reqs := u.reqs ++ rs, nextId := u.nextId + rs.length }
  data : (rs.map Req.data).flatten = bs
  ids : rs.map Req.id = (List.range rs.length).map (u.nextId + ·)
  writes : ∀ i r, rs[i]? = some r → r.kind = .write ∧ r.flask = f ∧ r.addr = a + 128 * i

theorem SentLines.nil (f a : Nat) (u : State) : SentLines f a [] u u [] :=
  ⟨by simp, rfl, rfl, fun _ _ h => by simp at h⟩

/-- A line has been sent before the rest. -/
theorem SentLines.cons {f a : Nat} {bs bs' : List Byte} {u t : State} {rs : List Req} {mk : Nat → Req}
    (h : SentLines f (a + 128) bs' (u.send mk) t rs) (hid : ∀ id, (mk id).id = id)
    (hw : (mk u.nextId).kind = .write ∧ (mk u.nextId).flask = f ∧ (mk u.nextId).addr = a) (hd : (mk u.nextId).data ++ bs' = bs) :
    SentLines f a bs u t (mk u.nextId :: rs) where
  state := by
    rw [h.state, List.length_cons, Nat.add_comm rs.length 1]
    simp [State.send, Nat.add_assoc]
  data := by rw [List.map_cons, List.flatten_cons, h.data, hd]
  ids := by
    rw [List.map_cons, h.ids, hid, List.length_cons, Nat.add_comm rs.length 1, range_map_add]
    refine congrArg (u.nextId :: ·) (List.map_congr_left fun i _ => ?_)
    rw [State.send, Nat.add_assoc]
  writes i r hr := by
    cases i with
    | zero =>
      rw [List.getElem?_cons_zero, Option.some.injEq] at hr
      subst hr
      simpa using hw
    | succ i =>
      obtain ⟨hk, hf, ha⟩ := h.writes i r (by simpa using hr)
      exact ⟨hk, hf, by rw [ha]; omega⟩

theorem State.engSend_nil (u : State) (eng f tag a k : Nat) (p : Bool) : u.engSend eng f tag a p k [] = u := by
  cases k with
  | zero => rfl
  | succ k => exact if_pos rfl

theorem State.engSend_lines (eng f tag : Nat) (p : Bool) (k : Nat) : ∀ (u : State) (a : Nat) (bs : List Byte),
    (bs ≠ [] → a % 128 = 0) → bs.length ≤ 128 * k → ∃ rs, SentLines f a bs u (u.engSend eng f tag a p k bs) rs := by
  induction k with
  | zero =>
    intro u a bs _ hlen
    obtain rfl : bs = [] := List.length_eq_zero_iff.1 (by omega)
    exact ⟨[], .nil f a u⟩
  | succ k ih =>
    intro u a bs ha hlen
    by_cases hb : bs = []
    · subst hb
      exact ⟨[], .nil f a u⟩
    · have hal := ha hb
      have hmin : min bs.length (128 - a % 128) = min bs.length 128 := by rw [hal]
      rw [State.engSend, if_neg hb]
      dsimp only
      rw [hmin]
      by_cases hl : bs.length ≤ 128
      · rw [Nat.min_eq_left hl, List.take_length, List.drop_length, State.engSend_nil]
        exact ⟨_, SentLines.cons (.nil f (a + 128) _) (fun _ => rfl) ⟨rfl, rfl, rfl⟩ (List.append_nil bs)⟩
      · rw [Nat.min_eq_right (by omega)]
        obtain ⟨rs, hrs⟩ := ih (u.send fun id =>
            { emptyReq id (.eng eng) f .write a 128 with data := bs.take 128, pois := p, reg := tag })
          (a + 128) (bs.drop 128) (fun _ => by omega) (by rw [List.length_drop]; omega)
        exact ⟨_, hrs.cons (fun _ => rfl) ⟨rfl, rfl, rfl⟩ (List.take_append_drop 128 bs)⟩

/-! ### QPUT and QTAKE (R191, R377, R378) -/

/-- The uniform an engine's instruction reads. -/
abbrev uniOf (w : BitVec 56) : Nat := fld w.toNat 55 51

/-- The queue of a QPUT or QTAKE. -/
abbrev queueOf (w : BitVec 56) : Nat := fld w.toNat 7 0

/-- A legal QPUT or QTAKE: the queue is the flask's and of its direction and stream, the descriptor names a part and bytes of local
store. -/
structure QueueLegal (recv : Bool) (x : Who) (n : Nat) (s : State) (v : Word64) : Prop where
  form : fld n 50 32 = 0
  high : fld n 31 8 = 0
  here : s.qOk (fld n 7 0) = true
  owner : s.qFlask (fld n 7 0) = s.flaskOf x
  part : rfld v 51 40 < s.qParts (fld n 7 0)
  pos : 1 ≤ rfld v 39 20
  size : rfld v 39 20 ≤ s.qPartSz (fld n 7 0)
  stream : x.strm = if s.qGrad (fld n 7 0) = true then .b else .f
  aligned : rfld v 19 0 % 128 = 0
  mapped : s.lsOk x.core false (rfld v 19 0) (rfld v 39 20) = true
  dir : s.qRecv (fld n 7 0) = recv
  job : recv = false → s.jobOk (s.flaskOf x) = true

theorem QueueLegal.check {recv : Bool} {x : Who} {n : Nat} {s : State} {gr : Group} (h : QueueLegal recv x n s (gr.unif (fld n 55 51))) :
    qCheck recv x n s gr = none := by
  have hform := formS_of h.form (fld_lt_of_upper (mid := 8) h.high (by decide))
  have hjob : (!recv && !(s.jobOk (s.flaskOf x))) = false := by
    cases hr : recv
    · simp [h.job hr]
    · rfl
  have hstream := h.stream
  unfold qCheck
  dsimp only [qDesc]
  rw [if_neg (by simp [hform, h.here, h.dir, h.owner, Nat.not_le.2 h.part, Nat.pos_iff_ne_zero.1 h.pos, Nat.not_lt.2 h.size, ← hstream]),
    if_neg (by simp [h.aligned, h.mapped]), if_neg (by simp [hjob])]

section
variable {x : Who} {w : BitVec 56} {s : State} {gr : Group}

/-- The slot's address at the peer. -/
def State.qPeerAt (s : State) (q p : Nat) : Nat :=
  2 ^ 63 + s.rf .RQPEER 0 q 57 44 * 2 ^ 48 + (s.rf .RQPEER 0 q 35 0 * 4096 + s.qAt q (s.qPuts q p) p) % 2 ^ 48

theorem State.qPeerAt_aligned (s : State) (q p : Nat) : s.qPeerAt q p % 128 = 0 := by
  have hat : s.qAt q (s.qPuts q p) p % 128 = 0 := by
    rw [State.qAt, State.qPartSz, ← Nat.mul_assoc, Nat.mul_mod_left]
  unfold State.qPeerAt
  omega

/-- What a QPUT of part `p` of queue `q` leaves: its bytes on their way to the peer, and counted. -/
structure Put (s t : State) (x : Who) (q p off len : Nat) (rs : List Req) (e : QSend) : Prop where
  mem : t.mem = s.mem
  reqs : t.reqs = s.reqs ++ rs
  data : (rs.map Req.data).flatten = s.bytes (lsAt x.core off) len
  writes : ∀ i r, rs[i]? = some r → r.kind = .write ∧ r.flask = s.flaskOf x ∧ r.addr = s.qPeerAt q p + 128 * i
  puts : t.qPuts q p = s.qPuts q p + 1
  sends : t.runner.sends = s.runner.sends ++ [e]
  names : e.q = q ∧ e.part = p ∧ e.seqn = s.qPuts q p ∧ e.ids = rs.map Req.id

/-- What a QPUT leaves depends on a part of the state alone. -/
theorem Put.from {s u t : State} {q p off len : Nat} {rs : List Req} {e : QSend} (h : Put u t x q p off len rs e) (hm : u.mem = s.mem)
    (hr : u.reqs = s.reqs) (hp : u.runner = s.runner) (hf : u.flaskOf x = s.flaskOf x) (ha : u.qPeerAt q p = s.qPeerAt q p) :
    Put s t x q p off len rs e := by
  obtain ⟨hmem, hreqs, hdata, hwrites, hputs, hsends, hq, hpart, hseq, hids⟩ := h
  have hcount : u.qPuts q p = s.qPuts q p := by rw [State.qPuts, hp, State.qPuts]
  refine ⟨hmem.trans hm, hr ▸ hreqs, ?_, ?_, hcount ▸ hputs, hp ▸ hsends, hq, hpart, hcount ▸ hseq, hids⟩
  · simpa only [State.bytes, State.byte, hm] using hdata
  · rwa [hf, ha] at hwrites

/-- The effect of a QPUT once its part has a credit. -/
def State.qputPart (s : State) (x : Who) (q off len p : Nat) (vp : Bool) : State :=
  let r := s.engRead (s.flaskOf x) (lsAt x.core off) len
  let u := r.2.2.poisEvent (s.flaskOf x) (r.2.1 || vp)
  let t := u.engSend 2 (s.flaskOf x) u.nextId
    (2 ^ 63 + u.rf .RQPEER 0 q 57 44 * 2 ^ 48 + (u.rf .RQPEER 0 q 35 0 * 4096 + u.qAt q (s.qPuts q p) p) % 2 ^ 48)
    (r.2.1 || vp) (len / 128 + 2) r.1
  let e : QSend := { q := q, part := p, seqn := s.qPuts q p, ids := (List.range (t.nextId - u.nextId)).map (u.nextId + ·) }
  { t with runner := { t.runner with puts := Sparse.set 0 t.runner.puts (4096 * q + p) (s.qPuts q p + 1), sends := t.runner.sends ++ [e] } }

theorem State.qputPart_puts (s : State) (x : Who) (q off p : Nat) {len : Nat} (vp : Bool) (hlen : len ≠ 0) :
    (s.qputPart x q off len p vp).cores = s.cores
      ∧ (∀ r i j, r ∉ homeRegs → (s.qputPart x q off len p vp).rn r i j = s.rn r i j)
      ∧ ∃ rs e, Put s (s.qputPart x q off len p vp) x q p off len rs e := by
  obtain ⟨hdata, hstate⟩ := s.engRead_local (s.flaskOf x) x.core off hlen
  unfold State.qputPart
  dsimp only
  rw [hdata, hstate]
  generalize ((s.engRead (s.flaskOf x) (lsAt x.core off) len).2.1 || vp) = hurt
  have hu : Noted s ((s.scrub (lsAt x.core off) len).poisEvent (s.flaskOf x) hurt) :=
    Noted.of_scrubbed (s.scrub_only _ _) (State.poisEvent_only _ _ _)
  have hh : HomeOnly false s ((s.scrub (lsAt x.core off) len).poisEvent (s.flaskOf x) hurt) :=
    .ite (HomeOnly.refl s).scrub.stepEvent (HomeOnly.refl s).scrub
  generalize (s.scrub (lsAt x.core off) len).poisEvent (s.flaskOf x) hurt = u at hu hh
  have hat : 2 ^ 63 + u.rf .RQPEER 0 q 57 44 * 2 ^ 48 + (u.rf .RQPEER 0 q 35 0 * 4096 + u.qAt q (s.qPuts q p) p) % 2 ^ 48
      = s.qPeerAt q p := by
    simp only [State.qPeerAt, State.qAt, State.qSlots, State.qParts, State.qPartSz, State.rf, hh.regs .RQPEER 0 q (by decide),
      hh.regs .RQCFG 0 q (by decide)]
  obtain ⟨rs, hrs⟩ := u.engSend_lines 2 (s.flaskOf x) u.nextId hurt (len / 128 + 2) (s.qPeerAt q p) (s.bytes (lsAt x.core off) len)
    (fun _ => s.qPeerAt_aligned q p) (by simp [State.bytes]; omega)
  have hrunner : u.runner = s.runner := by rw [hu]
  rw [hat, hrs.state]
  refine ⟨hh.still rfl, hh.regs, rs, ⟨q, p, s.qPuts q p, (List.range rs.length).map (u.nextId + ·)⟩,
    ⟨?_, ?_, hrs.data, hrs.writes, ?_, ?_, rfl, rfl, rfl, hrs.ids.symm⟩⟩
  · dsimp only
    rw [hu]
  · dsimp only
    rw [hu]
  · exact (Sparse.get_set_same 0 u.runner.puts (4096 * q + p) (s.qPuts q p + 1) :)
  · dsimp only
    rw [hrunner, Nat.add_sub_cancel_left]

/-- The address at the peer is made of registers and counts. -/
theorem State.qPeerAt_of {s t : State} (hr : ∀ r i j, r ∈ [Reg.RQPEER, .RQCFG] → t.rn r i j = s.rn r i j) (hp : t.runner = s.runner)
    (q p : Nat) : t.qPeerAt q p = s.qPeerAt q p := by
  simp only [State.qPeerAt, State.qAt, State.qPuts, State.qSlots, State.qParts, State.qPartSz, State.rf, hr .RQPEER 0 q (by decide),
    hr .RQCFG 0 q (by decide), hp]

section
variable (hi : Issues s x gr true [256 + uniOf w]) (h : QueueLegal false x w.toNat s (gr.unif (uniOf w)))
include hi h

theorem qput_held (hc : s.qCredit (queueOf w) (rfld (gr.unif (uniOf w)) 51 40) = false) :
    ∃ t, exec (.qput x w) s = .next t ∧ HeldFor x .qput gr s t :=
  ⟨_, congrArg Host.Outcome.next (presentWait_held hi h.check hc), heldWait_heldFor hi ..⟩

theorem qput_puts (hc : s.qCredit (queueOf w) (rfld (gr.unif (uniOf w)) 51 40) = true) :
    let v := gr.unif (uniOf w)
    ∃ t rs e, exec (.qput x w) s = .next t ∧ WentOn x gr s t
      ∧ Put s t x (queueOf w) (rfld v 51 40) (rfld v 19 0) (rfld v 39 20) rs e := by
  intro v
  have he : exec (.qput x w) s = .next ((s.issuedWait x gr).qputPart x (queueOf w) (rfld v 19 0) (rfld v 39 20) (rfld v 51 40)
      (gr.unifP (uniOf w))) := congrArg Host.Outcome.next (presentWait_issues hi h.check hc)
  obtain ⟨hcores, hregs, rs, e, hput⟩ := (s.issuedWait x gr).qputPart_puts x (queueOf w) (rfld v 19 0) (rfld v 51 40)
    (gr.unifP (uniOf w)) (Nat.pos_iff_ne_zero.1 h.pos)
  have hrn (r : Reg) (i j : Nat) (hr : r ∈ [Reg.RQPEER, .RQCFG]) : (s.issuedWait x gr).rn r i j = s.rn r i j := by
    simp only [List.mem_cons, List.not_mem_nil, or_false] at hr
    rcases hr with rfl | rfl
    · exact issuedWait_rn hi (by decide) (by decide) (by decide) i j
    · exact issuedWait_rn hi (by decide) (by decide) (by decide) i j
  exact ⟨_, rs, e, he, (issuedWait_wentOn hi).of (fun g => by rw [State.core_of_cores hcores]) (hregs _ _ _ (by decide)),
    hput.from (issuedWait_mem s x gr) (issuedWait_reqs s x gr) (issuedWait_runner s x gr) (issuedWait_flaskOf hi)
      (State.qPeerAt_of hrn (issuedWait_runner s x gr) _ _)⟩

end

end

end Sys2Proof.Machine
end

section
/-! PROOF. QTAKE: an engine's read of memory without errors, its write to a local store, and the count (R191, R377, R378): part of
O41. -/

set_option Elab.async false

namespace Sys2Proof.Machine

/-! ### An engine's read of memory that holds no error: as `Serene`, with poison allowed -/

/-- Memory and the runner ring's state are those of `b`, no storage error waits to be found, and no miss is under way. -/
structure Errorless (b s : State) : Prop where
  mem : s.mem = b.mem
  runner : s.runner = b.runner
  derr : s.m.derr = []
  lerr : s.m.lerr = []
  serr : s.m.serr = []
  miss : s.m.miss = []

section
variable {b s t : State}

theorem Errorless.of (h : Errorless b s) (hmem : t.mem = s.mem := by rfl) (hrunner : t.runner = s.runner := by rfl)
    (hderr : t.m.derr = s.m.derr := by rfl)
    (hlerr : t.m.lerr = s.m.lerr := by rfl) (hserr : t.m.serr = s.m.serr := by rfl)
    (hmiss : t.m.miss = s.m.miss := by rfl) : Errorless b t :=
  ⟨hmem.trans h.mem, hrunner.trans h.runner, hderr.trans h.derr, hlerr.trans h.lerr, hserr.trans h.serr, hmiss.trans h.miss⟩

theorem Errorless.ite {c : Prop} [Decidable c] (hs : Errorless b s) (ht : Errorless b t) : Errorless b (if c then s else t) := by
  split
  · exact hs
  · exact ht

theorem Errorless.addSat {r i j w n} (h : Errorless b s) : Errorless b (s.addSat r i j w n) := h.of
theorem Errorless.bankPush {line write} (h : Errorless b s) : Errorless b (s.bankPush line write) := h.of
theorem Errorless.bankTake {line write} (h : Errorless b s) : Errorless b (s.bankTake line write) := h.of
theorem Errorless.llcTouch {die set way} (h : Errorless b s) : Errorless b (s.llcTouch die set way) := h.of
theorem Errorless.llcDirty {line} (h : Errorless b s) : Errorless b (s.llcDirty line) := h.of

theorem Errorless.llcDrop {line} (h : Errorless b s) : Errorless b (s.llcDrop line) :=
  h.of (hserr := (congrArg (List.filter _) h.serr).trans h.serr.symm)

theorem Errorless.sectorCheck_eq {e ks whole} (h : Errorless b s) : s.sectorCheck e ks whole = s := by
  simp [State.sectorCheck, h.serr]

theorem Errorless.dramWrite {line} (h : Errorless b s) : Errorless b (s.dramWrite line) :=
  have hderr : Sparse.set [] (Sparse.set [] s.m.derr (2 * line) []) (2 * line + 1) [] = s.m.derr := by
    rw [h.derr]
    rfl
  .ite (h.of (hderr := hderr)) (h.of (hderr := hderr))

theorem Errorless.bankWrite {line} (h : Errorless b s) : Errorless b (s.bankWrite line) := .ite h.dramWrite.of h.dramWrite
theorem Errorless.flushBank {line} (h : Errorless b s) : Errorless b (s.flushBank line) := .ite h.bankTake.bankWrite h
theorem Errorless.settleLine_eq {line} (h : Errorless b s) : s.settleLine line = s := if_neg (by simp [h.miss])

/-- An access without error, or with the pattern of poison alone, decodes as good or as poisoned. -/
theorem Errorless.decodes (h : Errorless b s) (line k : Nat) :
    rsDecode (s.accessErr line k) = .good ∨ rsDecode (s.accessErr line k) = .poisoned := by
  have hp : errAdd [] poisonPat = poisonPat := by decide
  have he : s.accessErr line k = [] ∨ s.accessErr line k = poisonPat := by
    rw [State.accessErr, h.derr]
    split
    · exact .inr hp
    · exact .inl rfl
  rcases he with he | he <;> rw [he]
  · exact .inl (by decide)
  · unfold rsDecode
    dsimp only
    split
    · exact .inl rfl
    · exact .inr (if_pos rfl)

theorem Errorless.decodeLine (h : Errorless b s) (line : Nat) : (s.decodeLine line).1.fixed = false ∧ (s.decodeLine line).1.bad = false
    ∧ Errorless b (s.decodeLine line).2 := by
  unfold State.decodeLine
  dsimp only
  rcases h.decodes line 0 with h0 | h0 <;> rcases h.decodes line 1 with h1 | h1 <;> rw [h0, h1]
  · exact ⟨rfl, rfl, h⟩
  · exact ⟨rfl, rfl, h.addSat⟩
  · exact ⟨rfl, rfl, h.addSat⟩
  · exact ⟨rfl, rfl, h.addSat.addSat⟩

theorem Errorless.fetchLine {line flask skip} (h : Errorless b s) : Errorless b (s.fetchLine line flask skip false).2 := by
  obtain ⟨hfixed, hbad, hd⟩ := h.decodeLine line
  have hl : (s.decodeLine line).2.leftover line skip = (s.decodeLine line).2 := if_pos hd.derr
  unfold State.fetchLine
  simp only [hfixed, hbad, hl, Bool.false_eq_true, if_false]
  split
  · exact hd
  · exact .ite hd.of hd.of

theorem Errorless.evict {v} (h : Errorless b s) : Errorless b (s.evict v) :=
  .llcDrop (.ite (by rw [h.sectorCheck_eq]; exact h.bankPush) h)

theorem Errorless.install {line dirty} (h : Errorless b s) : Errorless b (s.install line dirty) := by
  unfold State.install
  split
  · exact .ite h.llcTouch.llcDirty h.llcTouch
  · dsimp only
    refine .llcTouch ?_
    split
    · exact h.evict.of
    · exact h.of

theorem Errorless.engLine {line flask off n} (h : Errorless b s) : Errorless b (s.engLine line flask off n false) := by
  unfold State.engLine
  extract_lets die whole settled checked hit miss
  have h1 : Errorless b settled := by
    unfold settled
    rwa [h.settleLine_eq]
  have h2 : Errorless b checked := by
    unfold checked
    split
    · rwa [h1.sectorCheck_eq]
    · exact h1
  split
  · have h3 : Errorless b hit := h2.addSat
    exact h3.install
  · have h3 : Errorless b ((miss.flushBank line).fetchLine line flask (fun _ => false) false).2 := h2.addSat.flushBank.fetchLine
    exact .ite h3 h3.install

/-- The state in which an engine that reads has the lines at their homes. -/
def State.readHome (s : State) (f off n : Nat) : State :=
  if off < dramEnd then (linePieces off n).foldl (fun s p => s.engLine (s.view p.1 / 128) (some f) p.1 p.2 false) s else s

theorem Errorless.foldl {α : Type} {f : State → α → State} {l : List α} (h : Errorless b s)
    (hf : ∀ {s}, Errorless b s → ∀ x, Errorless b (f s x)) : Errorless b (l.foldl f s) := by
  induction l generalizing s with
  | nil => exact h
  | cons x l ih => exact ih (hf h x)

theorem Errorless.readHome {f off n} (h : Errorless b s) : Errorless b (s.readHome f off n) := .ite (h.foldl fun h1 _ => h1.engLine) h

theorem State.readHome_home (s : State) (f off n : Nat) : HomeOnly true s (s.readHome f off n) :=
  .ite (.foldl (.refl s) fun h1 _ => h1.engLine) (.refl s)

/-- An engine that reads memory without errors reads its bytes as they stand. -/
theorem Errorless.engRead (h : Errorless b s) (f off : Nat) {n : Nat} (hn : n ≠ 0) :
    (s.engRead f off n).1 = ((List.range n).map fun k => s.byte (s.view (off + k))) ∧ (s.engRead f off n).2.2 = s.readHome f off n := by
  have h1 : Errorless b (s.readHome f off n) := h.readHome
  have h2 := s.readHome_home f off n
  have hview (o : Nat) : (s.readHome f off n).view o = s.view o := State.view_of h2.pat (fun f => h2.regs _ _ _ (by decide)) o
  have hbyte (o : Nat) : (s.readHome f off n).byte o = s.byte o := by rw [State.byte, h1.mem, State.byte, h.mem]
  have he : s.engRead f off n = (((linePieces off n).map fun p => (s.readHome f off n).bytes ((s.readHome f off n).view p.1) p.2).flatten,
      (linePieces off n).any (fun p => (s.readHome f off n).poisoned ((s.readHome f off n).view p.1) p.2), s.readHome f off n) := by
    rw [State.engRead, ← State.readHome, if_neg hn, State.scrub_sound h1.lerr]
  rw [he, State.flatten_linePieces]
  simp only [hview, hbyte, and_self]

end

/-! ### An engine's write to a local store -/

/-- From `s` to `t` `bs` has been written at `a`, and only memory and its poison have changed. -/
structure LocalWrote (a : Nat) (bs : List Byte) (s t : State) : Prop where
  only : t = { s with mem := t.mem, pois := t.pois }
  byte : ∀ o, t.byte o = if a ≤ o ∧ o < a + bs.length then bs.getD (o - a) 0 else s.byte o

theorem State.lsWrite_local {s : State} (h : s.m.lerr = []) (a : Nat) (bs : List Byte) (p : Bool) : LocalWrote a bs s (s.lsWrite a [] bs p) :=
  ⟨by rw [State.lsWrite_sound h]; rfl, State.lsWrite_byte h a bs p⟩

theorem State.engWriteN_local (f : Nat) (p : Bool) (k : Nat) : ∀ (s : State) (off : Nat) (bs : List Byte),
    s.m.lerr = [] → dramEnd ≤ off → (bs ≠ [] → off % 128 = 0) → bs.length ≤ 128 * k → LocalWrote off bs s (s.engWriteN f p k off bs) := by
  induction k with
  | zero =>
    intro s off bs _ _ _ hlen
    obtain rfl : bs = [] := List.length_eq_zero_iff.1 (by omega)
    exact ⟨rfl, fun o => (if_neg (by simp)).symm⟩
  | succ k ih =>
    intro s off bs hl hd ha hlen
    by_cases hb : bs = []
    · subst hb
      exact ⟨rfl, fun o => (if_neg (by simp)).symm⟩
    · have hal := ha hb
      have hmin : min bs.length (128 - off % 128) = min bs.length 128 := by rw [hal]
      rw [State.engWriteN, if_neg hb]
      dsimp only
      rw [hmin, if_neg (Nat.not_lt.2 hd), State.pocWrite, if_neg (Nat.not_lt.2 hd)]
      have h1 := State.lsWrite_local hl off (bs.take (min bs.length 128)) p
      generalize s.lsWrite off [] (bs.take (min bs.length 128)) p = u at h1
      have hlu : u.m.lerr = [] := by rw [h1.only]; exact hl
      have h2 := ih u (off + min bs.length 128) (bs.drop (min bs.length 128)) hlu (by omega)
        (fun hne => by
          have : 0 < (bs.drop (min bs.length 128)).length := List.length_pos_iff.2 hne
          rw [List.length_drop] at this
          omega) (by rw [List.length_drop]; omega)
      refine ⟨?_, fun o => ?_⟩
      · rw [h2.only, h1.only]
      · have hcut : (bs.take (min bs.length 128)).length = min bs.length 128 := by rw [List.length_take]; omega
        rw [h2.byte, h1.byte, List.length_drop, hcut]
        by_cases h3 : off + min bs.length 128 ≤ o ∧ o < off + min bs.length 128 + (bs.length - min bs.length 128)
        · rw [if_pos h3, if_pos (by omega), List.getD_eq_getElem?_getD, List.getElem?_drop, ← List.getD_eq_getElem?_getD]
          congr 1
          omega
        · rw [if_neg h3]
          by_cases h4 : off ≤ o ∧ o < off + min bs.length 128
          · rw [if_pos h4, if_pos (by omega), List.getD_eq_getElem?_getD, List.getElem?_take, if_pos (by omega),
              ← List.getD_eq_getElem?_getD]
          · rw [if_neg h4, if_neg (by omega)]

/-- A span of a local store that begins on a line, written by an engine. -/
theorem State.engWrite_local {s : State} (h : s.m.lerr = []) (f g : Nat) {o : Nat} (bs : List Byte) (p : Bool) (ho : o % 128 = 0) :
    LocalWrote (lsAt g o) bs s (s.engWrite f (lsAt g o) bs p) :=
  State.engWriteN_local f p _ s _ bs h (dramEnd_le_lsAt g o) (fun _ => by unfold lsAt aper apBase; omega) (by omega)

/-! ### The count of a QTAKE, and its messages -/

theorem State.sendColl_fab (s : State) (f i key : Nat) (m : Msg) : ∃ fab, s.sendColl f i key m = { s with fab := fab } := by
  unfold State.sendColl
  split
  · exact ⟨_, rfl⟩
  · exact ⟨_, rfl⟩

theorem State.foldl_fab {α : Type} {f : State → α → State} (hf : ∀ s x, ∃ fab, f s x = { s with fab := fab }) (l : List α) :
    ∀ s : State, ∃ fab, l.foldl f s = { s with fab := fab } := by
  induction l with
  | nil => exact fun s => ⟨s.fab, rfl⟩
  | cons x l ih =>
    intro s
    obtain ⟨fab, h1⟩ := hf s x
    obtain ⟨fab', h2⟩ := ih (f s x)
    exact ⟨fab', by rw [List.foldl_cons, h2, h1]⟩

theorem State.qtakeCount_only (s : State) (q p : Nat) : ∃ fab, s.qtakeCount q p
    = { s with fab := fab, runner := { s.runner with takes := Sparse.set 0 s.runner.takes (4096 * q + p) (s.qTakes q p + 1) } } := by
  unfold State.qtakeCount
  extract_lets src t
  split
  · obtain ⟨fab, h⟩ := State.foldl_fab (fun (u : State) p => u.sendColl_fab (u.qFlask q) (q % 2) (u.rf .RQPEER 0 q 43 36)
      (u.collMsg (u.qFlask q) 0x38 (u.rf .RQPEER 0 q 57 44) false 0
        (collHead 0 0 0 (u.rf .RQPEER 0 q 43 36 + p % 4096 * 2 ^ 8 + s.qTaken q % 2 ^ 32 * 2 ^ 20)))) (List.range (s.qParts q)) t
    exact ⟨fab, h⟩
  · exact ⟨s.fab, rfl⟩

/-! ### QTAKE (R191, R377, R378) -/

theorem HomeOnly.updRunner {b : Bool} {a s : State} {fab runner} (h : HomeOnly b a s) :
    HomeOnly b a { s with fab := fab, runner := runner } :=
  ⟨h.regs, h.cores, h.still, h.pat, h.down, h.queue, h.saved, h.stby, h.pins, h.pwr, h.cxlHeld, h.slot, h.selfref, h.reqs, h.resps⟩

theorem HomeOnly.poisEvent {b : Bool} {a s : State} {f p} (h : HomeOnly b a s) : HomeOnly b a (s.poisEvent f p) := .ite h.stepEvent h

theorem State.journal_none {s : State} {f : Nat} (h : NoJournal s f) (kind key off : Nat) (data : List Byte) (p : Bool) :
    s.journal f kind key off data p = s := if_pos (by rw [h, Nat.zero_mul])

/-- Where a QTAKE finds its part. -/
def State.qSlotAt (s : State) (q p : Nat) : Nat := s.rf .RQBASE 0 q 47 7 * 128 + s.qAt q (s.qTakes q p) p

/-- What a QTAKE of a part into a core's local store leaves of memory, and its count. -/
structure Took (s t : State) (x : Who) (q p off len : Nat) : Prop where
  count : t.qTakes q p = s.qTakes q p + 1
  copied : ∀ k, k < len → t.byte (lsAt x.core off + k) = s.byte (s.view (s.qSlotAt q p + k))
  others : ∀ o, (o < lsAt x.core off ∨ lsAt x.core off + len ≤ o) → t.byte o = s.byte o

/-- The slot's place is made of registers and counts. -/
theorem State.qSlotAt_of {s t : State} {q : Nat} (hb : t.rn .RQBASE 0 q = s.rn .RQBASE 0 q) (hc : t.rn .RQCFG 0 q = s.rn .RQCFG 0 q)
    (hp : t.runner = s.runner) (p : Nat) : t.qSlotAt q p = s.qSlotAt q p := by
  simp only [State.qSlotAt, State.qAt, State.qTakes, State.qSlots, State.qParts, State.qPartSz, State.rf, hb, hc, hp]

section
variable {x : Who} {w : BitVec 56} {s : State} {gr : Group}

theorem Took.from {u t : State} {q p off len : Nat} (h : Took u t x q p off len) (hm : u.mem = s.mem) (hr : u.runner = s.runner)
    (ha : u.qSlotAt q p = s.qSlotAt q p) (hv : ∀ o, u.view o = s.view o) : Took s t x q p off len := by
  obtain ⟨hcount, hcopied, hothers⟩ := h
  have hbyte (o : Nat) : u.byte o = s.byte o := by rw [State.byte, hm, State.byte]
  refine ⟨?_, fun k hk => ?_, fun o ho => (hothers o ho).trans (hbyte o)⟩
  · rwa [show u.qTakes q p = s.qTakes q p by rw [State.qTakes, hr, State.qTakes]] at hcount
  · rw [hcopied k hk, hbyte, ha, hv]

theorem Errorless.qtakePart {b : State} {v : Word64} (h : Errorless b s) (hj : NoJournal s (s.flaskOf x)) (q : Nat) (vp : Bool)
    (hlen : rfld v 39 20 ≠ 0) (hal : rfld v 19 0 % 128 = 0) :
    HomeOnly true s (s.qtakePart x q v vp)
      ∧ Took s (s.qtakePart x q v vp) x q (rfld v 51 40) (rfld v 19 0) (rfld v 39 20) := by
  obtain ⟨hdata, hstate⟩ := h.engRead (s.flaskOf x) (s.qSlotAt q (rfld v 51 40)) hlen
  have hlen' : (s.engRead (s.flaskOf x) (s.qSlotAt q (rfld v 51 40)) (rfld v 39 20)).1.length = rfld v 39 20 := by simp [hdata]
  unfold State.qtakePart
  dsimp only [qDesc]
  rw [← State.qSlotAt]
  generalize hurt : ((s.engRead (s.flaskOf x) (s.qSlotAt q (rfld v 51 40)) (rfld v 39 20)).2.1 || vp) = p
  rw [hstate]
  generalize (s.engRead (s.flaskOf x) (s.qSlotAt q (rfld v 51 40)) (rfld v 39 20)).1 = data at hdata hlen'
  have h1 : Errorless b (s.readHome (s.flaskOf x) (s.qSlotAt q (rfld v 51 40)) (rfld v 39 20)) := h.readHome
  have hh1 := s.readHome_home (s.flaskOf x) (s.qSlotAt q (rfld v 51 40)) (rfld v 39 20)
  generalize s.readHome (s.flaskOf x) (s.qSlotAt q (rfld v 51 40)) (rfld v 39 20) = u at h1 hh1
  have h2 : Errorless b (u.poisEvent (s.flaskOf x) p) := .ite h1.of h1
  have hw := State.engWrite_local h2.lerr (s.flaskOf x) x.core data p hal
  have hh2 : HomeOnly true s ((u.poisEvent (s.flaskOf x) p).engWrite (s.flaskOf x) (lsAt x.core (rfld v 19 0)) data p) :=
    hh1.poisEvent.engWrite
  have hr2 : ((u.poisEvent (s.flaskOf x) p).engWrite (s.flaskOf x) (lsAt x.core (rfld v 19 0)) data p).runner = s.runner := by
    rw [hw.only]
    exact h2.runner.trans h.runner.symm
  generalize (u.poisEvent (s.flaskOf x) p).engWrite (s.flaskOf x) (lsAt x.core (rfld v 19 0)) data p = t at hw hh2 hr2
  have hjt : NoJournal t (s.flaskOf x) := (State.rf_of_rn (hh2.regs .JRNL (s.flaskOf x) 0 (by decide)) 63 48).trans hj
  obtain ⟨fab, hcount⟩ := t.qtakeCount_only q (rfld v 51 40)
  rw [State.journal_none hjt, hcount]
  have hbyte (o : Nat) : t.byte o = if lsAt x.core (rfld v 19 0) ≤ o ∧ o < lsAt x.core (rfld v 19 0) + rfld v 39 20
      then data.getD (o - lsAt x.core (rfld v 19 0)) 0 else s.byte o := by
    rw [hw.byte, hlen', State.byte, h2.mem, ← h.mem, ← State.byte]
  refine ⟨hh2.updRunner, ?_, fun k hk => ?_, fun o ho => ?_⟩
  · have htakes : t.qTakes q (rfld v 51 40) = s.qTakes q (rfld v 51 40) := by rw [State.qTakes, hr2, State.qTakes]
    rw [← htakes]
    exact (Sparse.get_set_same 0 t.runner.takes (4096 * q + rfld v 51 40) (t.qTakes q (rfld v 51 40) + 1) :)
  · refine (hbyte _).trans ?_
    rw [if_pos (by omega), Nat.add_sub_cancel_left, hdata, List.getD_eq_getElem _ _ (by simpa using hk)]
    simp
  · exact (hbyte o).trans (if_neg (by omega))

/-! ### Its issue -/

theorem issuedWait_m (hl : s.m.lerr = []) : (s.issuedWait x gr).m = s.m := by
  rw [State.issuedWait, State.modGroup_m, State.retire_only, State.fetched_sound hl, State.poisEvent_only]

theorem NoErrors.errorless {s : State} (h : NoErrors s) : Errorless s s := by
  obtain ⟨hderr, hlerr, hserr, hmiss⟩ := h
  exact ⟨rfl, rfl, hderr, hlerr, hserr, hmiss⟩

section
variable (hi : Issues s x gr true [256 + uniOf w]) (h : QueueLegal true x w.toNat s (gr.unif (uniOf w)))
  (hsrc : s.engOk (s.flaskOf x) 0 (s.qSlotAt (queueOf w) (rfld (gr.unif (uniOf w)) 51 40))
    (rfld (gr.unif (uniOf w)) 39 20) = true)
include h hsrc

theorem qtake_check : ((qCheck true x w.toNat s gr).or (s.qtakeSrc x (queueOf w) (gr.unif (uniOf w)))) = none := by
  rw [h.check, Option.none_or]
  exact if_pos hsrc

include hi

theorem qtake_held (hr : ∃ i, i < s.qParts (queueOf w) ∧ s.runner.ready.contains (queueOf w, i,
      s.qTakes (queueOf w) (rfld (gr.unif (uniOf w)) 51 40)) = false) :
    ∃ t, exec (.qtake x w) s = .next t ∧ HeldFor x .qtake gr s t := by
  obtain ⟨i, hip, hif⟩ := hr
  refine ⟨_, congrArg Host.Outcome.next (presentWait_held hi (qtake_check h hsrc) ?_), heldWait_heldFor hi ..⟩
  exact List.all_eq_false.2 ⟨i, List.mem_range.2 hip, fun hc => absurd (hif.symm.trans hc) (by decide)⟩

theorem qtake_takes (hr : ∀ i, i < s.qParts (queueOf w) → s.runner.ready.contains (queueOf w, i,
      s.qTakes (queueOf w) (rfld (gr.unif (uniOf w)) 51 40)) = true) (hn : NoErrors s) (hj : NoJournal s (s.flaskOf x)) :
    let v := gr.unif (uniOf w)
    ∃ t, exec (.qtake x w) s = .next t ∧ WentOn x gr s t ∧ Took s t x (queueOf w) (rfld v 51 40) (rfld v 19 0) (rfld v 39 20) := by
  intro v
  have he : exec (.qtake x w) s = .next ((s.issuedWait x gr).qtakePart x (queueOf w) v (gr.unifP (uniOf w))) :=
    congrArg Host.Outcome.next (presentWait_issues hi (qtake_check h hsrc)
      (List.all_eq_true.2 fun i hi => hr i (List.mem_range.1 hi)))
  have hf := issuedWait_flaskOf hi
  have hm := issuedWait_m (x := x) (gr := gr) hn.errorless.lerr
  have herr : Errorless s (s.issuedWait x gr) :=
    hn.errorless.of (issuedWait_mem s x gr) (issuedWait_runner s x gr) (by rw [hm]) (by rw [hm]) (by rw [hm]) (by rw [hm])
  have hjrnl : NoJournal (s.issuedWait x gr) ((s.issuedWait x gr).flaskOf x) := by
    rw [hf]
    exact (State.rf_of_rn (issuedWait_rn hi (by decide) (by decide) (by decide) _ _) 63 48).trans hj
  obtain ⟨hh, htook⟩ := herr.qtakePart hjrnl (queueOf w) (gr.unifP (uniOf w)) (Nat.pos_iff_ne_zero.1 h.pos) h.aligned
  have hat : (s.issuedWait x gr).qSlotAt (queueOf w) (rfld v 51 40) = s.qSlotAt (queueOf w) (rfld v 51 40) :=
    State.qSlotAt_of (issuedWait_rn hi (by decide) (by decide) (by decide) _ _) (issuedWait_rn hi (by decide) (by decide) (by decide) _ _)
      (issuedWait_runner s x gr) _
  refine ⟨_, he, (issuedWait_wentOn hi).home hh, htook.from (issuedWait_mem s x gr) (issuedWait_runner s x gr) hat fun o =>
    State.view_of (issuedWait_pat s x gr) (fun f => issuedWait_rn hi (by decide) (by decide) (by decide) _ _) o⟩

end

end

end Sys2Proof.Machine
end

section
/-! PROOF. RNEXT in a round that runs, and RFREE (R191, R374, R375): part of O41. -/

set_option Elab.async false

namespace Sys2Proof.Machine

/-! ### A write of whole words to a local store (R195) -/

/-- Codes of words that are written whole are made anew. -/
theorem State.foldl_codes {whole : Nat → Bool} (l : List Nat) : ∀ s : State, (∀ w ∈ l, whole w = true) → ∃ m, l.foldl (fun s w =>
      if whole w then { s with m := { s.m with lerr := Sparse.set 0 s.m.lerr w 0 } } else s.scrubWord w) s = { s with m := m } := by
  induction l with
  | nil => exact fun s _ => ⟨s.m, rfl⟩
  | cons w l ih =>
    intro s h
    obtain ⟨m, hm⟩ := ih { s with m := { s.m with lerr := Sparse.set 0 s.m.lerr w 0 } } fun w' hw' => h w' (List.mem_cons_of_mem w hw')
    refine ⟨m, ?_⟩
    rw [List.foldl_cons, if_pos (h w List.mem_cons_self), hm]

/-- Errors in words that are written whole go with them: only memory, its poison and the codes change. -/
theorem State.lsWrite_whole (s : State) (a : Nat) (bs : List Byte) (p : Bool)
    (h : ∀ w ∈ granules a bs.length, wholeGranule a bs.length w = true) :
    ∃ m pois, s.lsWrite a [] bs p = { s with mem := putBytes s.mem a [] bs, m := m, pois := pois } := by
  unfold State.lsWrite
  extract_lets n whole touched ws s1 s2
  have hw : ∀ w ∈ ws, whole w = true := fun w hw => by simp [whole, n, h w (List.mem_filter.1 hw).1]
  have hs1 : ∃ m, s1 = { s with m := m } := by
    unfold s1
    split
    · exact ⟨s.m, rfl⟩
    · exact State.foldl_codes ws s hw
  obtain ⟨m, hm⟩ := hs1
  have hs2 : s2 = { s with mem := putBytes s.mem a [] bs, m := m } := by
    unfold s2
    rw [hm]
    rfl
  rw [hs2]
  split
  · exact ⟨m, _, rfl⟩
  · exact ⟨m, _, rfl⟩

/-- A value among the bytes written. -/
theorem le_of_putBytes_part {s t : State} {a n v : Nat} {l1 l2 : List Byte}
    (h : t.mem = putBytes s.mem a [] (l1 ++ leBytes n v ++ l2)) : t.le (a + l1.length) n = v % 2 ^ (8 * n) := by
  have hbytes : t.bytes (a + l1.length) n = leBytes n v := by
    refine List.ext_getElem (by simp [State.bytes]) fun i h1 h2 => ?_
    have hi : i < n := by simpa using h2
    have hb := byte_of_putBytes h (a + l1.length + i)
    have hget : (l1 ++ leBytes n v ++ l2)[l1.length + i]? = some ((leBytes n v)[i]) := by
      rw [List.append_assoc, List.getElem?_append_right (by omega), Nat.add_sub_cancel_left, List.getElem?_append_left (by simpa using hi),
        List.getElem?_eq_getElem h2]
    rw [if_pos (by simp only [List.length_append, leBytes_length]; omega), List.getD_eq_getElem?_getD,
      show a + l1.length + i - a = l1.length + i by omega, hget, Option.getD_some] at hb
    simpa [State.bytes] using hb
  rw [State.le, hbytes, leNat_leBytes, Nat.pow_mul]

/-! ### Ring instructions (R375) -/

theorem State.ring_of {s t : State} (h : t.runner = s.runner) (c : Nat) : t.ring c = s.ring c := by rw [State.ring, h, State.ring]

theorem State.ring_setRing (s : State) (c : Nat) (r : RingSt) : (s.setRing c r).ring c = r :=
  congrArg (Option.getD · RingSt.init) (Sparse.get_set_same none s.runner.ctx c (some r))

/-- The context of an RNEXT or RFREE. -/
abbrev ringCtx (w : BitVec 56) : Nat := fld w.toNat 4 0

/-- A legal ring instruction of a core that its context's round `r` uses. -/
structure RingLegal (x : Who) (n : Nat) (s : State) (r : RingSt) : Prop where
  stream : isG x.strm = false
  form : fld n 50 32 = 0
  high : fld n 31 5 = 0
  owner : s.ctxOf (fld n 4 0) (s.flaskOf x) = true
  core : r.has x.core = true

theorem RingLegal.ringForm {x : Who} {n : Nat} {s : State} {r : RingSt} (h : RingLegal x n s r) : ringForm s x n = true := by
  have hform := formS_of h.form (fld_lt_of_upper (mid := 5) h.high (by decide))
  simp [Sys2Proof.Machine.ringForm, h.stream, h.owner, hform]

/-- The record RNEXT writes for block `t`. -/
def RingSt.record (r : RingSt) (t : Nat) : List Byte :=
  leBytes 4 t ++ leBytes 2 ((fld (r.w 2) 30 24 + r.size - t % r.size) % r.size) ++ leBytes 2 0 ++ leBytes 4 (r.buf t) ++ leBytes 4 0

theorem RingSt.record_length (r : RingSt) (t : Nat) : (r.record t).length = 16 := by
  simp [RingSt.record]

/-- The record's fields (R375). -/
theorem RingSt.record_fields {s u : State} {r : RingSt} {a t : Nat} (h : u.mem = putBytes s.mem a [] (r.record t)) :
    u.le a 4 = t % 2 ^ 32 ∧ u.le (a + 4) 2 = (fld (r.w 2) 30 24 + r.size - t % r.size) % r.size ∧ u.le (a + 8) 4 = r.buf t := by
  have hsize : r.size ≤ 2 ^ 7 := fld_lt (r.w 2) 23 17
  have hpos : 0 < r.size := Nat.succ_pos _
  have horigin : (fld (r.w 2) 30 24 + r.size - t % r.size) % r.size < 2 ^ (8 * 2) :=
    Nat.lt_of_lt_of_le (Nat.mod_lt _ hpos) (Nat.le_trans hsize (by decide))
  have hbuf : r.buf t < 2 ^ (8 * 4) := by
    unfold RingSt.buf
    split
    · exact Nat.lt_of_lt_of_le (fld_lt ..) (by decide)
    · exact Nat.lt_of_lt_of_le (fld_lt ..) (by decide)
  refine ⟨?_, ?_, ?_⟩
  · refine le_of_putBytes_part (l1 := []) (l2 := ?_) (h.trans (congrArg _ ?_))
    rotate_left
    · simp only [RingSt.record, List.nil_append, List.append_assoc]
      rfl
  · rw [← Nat.mod_eq_of_lt horigin]
    refine le_of_putBytes_part (l1 := leBytes 4 t) (l2 := ?_) (h.trans (congrArg _ ?_))
    rotate_left
    · simp only [RingSt.record, List.append_assoc]
      rfl
  · rw [← Nat.mod_eq_of_lt hbuf]
    exact le_of_putBytes_part (l1 := leBytes 4 t ++ leBytes 2 ((fld (r.w 2) 30 24 + r.size - t % r.size) % r.size) ++ leBytes 2 0)
      (l2 := leBytes 4 0) h

/-! ### RNEXT in a round that runs (R375) -/

section
variable {x : Who} {w : BitVec 56} {s : State} {gr : Group}

/-- The effect of an RNEXT once its block is present. -/
def State.rnextRecord (s : State) (x : Who) (pre t : Nat) (r : RingSt) (p : Bool) : State :=
  (s.lsWrite (lsAt x.core pre) [] (r.record t) p).poisEvent (s.flaskOf x) p

theorem State.rnextRecord_only (s : State) (x : Who) {pre : Nat} (t : Nat) (r : RingSt) (p : Bool) (h : pre % 16 = 0) :
    ∃ m pois ns, s.rnextRecord x pre t r p
      = { s with mem := putBytes s.mem (lsAt x.core pre) [] (r.record t), m := m, pois := pois, notices := ns } := by
  have hd := dramEnd_le_lsAt x.core pre
  have hal : lsAt x.core pre % 16 = 0 := by
    unfold lsAt aper apBase
    omega
  obtain ⟨m, pois, hw⟩ := s.lsWrite_whole (lsAt x.core pre) (r.record t) p fun w hw => by
    rw [r.record_length] at hw ⊢
    rw [granules, if_neg (by decide), if_neg (Nat.not_lt.2 hd), List.mem_map] at hw
    obtain ⟨i, hi, rfl⟩ := hw
    have hi := List.mem_range.1 hi
    rw [wholeGranule, if_neg (Nat.not_lt.2 hd)]
    simp
    omega
  rw [State.rnextRecord, State.poisEvent_only, hw]
  exact ⟨m, pois, _, rfl⟩

/-- The block a group of the context's round is at. -/
def State.tg (s : State) (c : Nat) (gr : Group) : Nat := if (s.ring c).run then Sparse.get 0 gr.ring c else 0

/-- The core's slice of block `t` is present. -/
def RingSt.here (r : RingSt) (g t : Nat) : Bool := r.present t ((g - r.cbase) * r.slice) ((g - r.cbase + 1) * r.slice)

/-- An RNEXT is presented in the state in which its round runs: the state as it is, or that after the start of a round. -/
theorem rnext_presented (x : Who) (w : BitVec 56) (s : State) : ∃ (chk : Check) (begun : State),
    let n := w.toNat
    let ua := fld n 55 51
    let c := fld n 4 0
    exec (.rnext x w) s = .next (presentWait x .rnext c [256 + ua] chk (fun s gr => (s.ring c).here x.core (s.tg c gr))
        (fun s gr => s.rnextRecord x (fld (gr.unif ua).toNat 19 0) (s.tg c gr) (s.ring c) (gr.unifP ua)) begun)
      ∧ (∀ u gr, (u.ring c).run = true → RingLegal x n u (u.ring c) → u.tg c gr < (u.ring c).size →
          fld (gr.unif ua).toNat 19 0 % 16 = 0 → u.lsOk x.core false (fld (gr.unif ua).toNat 19 0) 16 = true → chk u gr = none)
      ∧ ((s.ring c).run = true → begun = s)
      ∧ (∀ gr e s', Issues s x gr true [256 + ua] → (s.ring c).run = false → s.ctxEntry (s.flaskOf x) c = (some e, s') →
          RingLegal x n s { RingSt.init with ent := e } → fld (gr.unif ua).toNat 19 0 % 16 = 0 →
          s.lsOk x.core false (fld (gr.unif ua).toNat 19 0) 16 = true → begun = s'.startRound (s'.flaskOf x) c e) := by
  have he : exec (.rnext x w) s = execRnext x w s := rfl
  unfold execRnext at he
  extract_lets n ua c pre tg chk here begin' at he
  refine ⟨chk, begin' s, he, ?_, ?_, ?_⟩
  · intro u gr hrun hlegal ht hpre hls
    have hseen : u.ringSeen x c = u.ring c := by rw [State.ringSeen, if_pos hrun]
    have ht' : tg u gr < (u.ring c).size := ht
    unfold chk
    rw [hseen, hlegal.ringForm, if_neg (by decide), hrun, if_neg (by simp), hlegal.core, if_neg (by simp [ht']),
      if_neg (by simp [pre, ua, n, hpre, hls])]
  · intro hrun
    unfold begin'
    split
    · rfl
    · rw [hrun]
      simp
  · intro gr e s' hi hrun hctx hlegal hpre hls
    obtain ⟨hw, ha, hn⟩ := hi.idle
    have hseen : s.ringSeen x c = { RingSt.init with ent := e } := by
      rw [State.ringSeen, if_neg (by simp [c, n, hrun])]
      simp only [c, n, hctx]
    have htg : tg s gr = 0 := if_neg (by simp [c, n, hrun])
    have hchk : chk s gr = none := by
      unfold chk
      rw [hseen, hlegal.ringForm, if_neg (by decide), hctx, if_neg (by simp), hlegal.core, htg,
        if_neg (by simp [RingSt.size]), if_neg (by simp [pre, ua, n, hpre, hls])]
    have hrun' : (s.ring c).run = false := hrun
    have hctx' : s.ctxEntry (s.flaskOf x) c = (some e, s') := hctx
    have hw' : gr.waits [256 + ua] = false := hw
    unfold begin'
    rw [hi.here]
    dsimp only
    rw [if_neg (by simp [hi.runs, hi.fetch, hw', ha, hn, hchk, hrun']), hctx']

/-- What an RNEXT leaves that has written its record for block `t` of round `r`. -/
structure Recorded (s t : State) (x : Who) (pre b : Nat) (r : RingSt) : Prop where
  runner : t.runner = s.runner
  index : t.le (lsAt x.core pre) 4 = b % 2 ^ 32
  origin : t.le (lsAt x.core pre + 4) 2 = (fld (r.w 2) 30 24 + r.size - b % r.size) % r.size
  buffer : t.le (lsAt x.core pre + 8) 4 = r.buf b
  others : ∀ o, (o < lsAt x.core pre ∨ lsAt x.core pre + 16 ≤ o) → t.byte o = s.byte o

theorem Recorded.of {t : State} {pre b : Nat} {r : RingSt} (h : t.mem = putBytes s.mem (lsAt x.core pre) [] (r.record b))
    (hr : t.runner = s.runner) : Recorded s t x pre b r := by
  obtain ⟨hindex, horigin, hbuffer⟩ := RingSt.record_fields h
  exact ⟨hr, hindex, horigin, hbuffer, fun o ho => byte_of_putBytes_other h (r.record_length b) ho⟩

/-- The issue of an RNEXT whose block is present, from the state in which its round runs. -/
theorem rnext_records {u : State} {regs : List Nat} (hi : Issues u x gr true regs) {pre : Nat} (c : Nat) (p : Bool) (hpre : pre % 16 = 0) :
    let v := u.issuedWait x gr
    let t := v.rnextRecord x pre (v.tg c gr) (v.ring c) p
    WentOn x gr u t ∧ Recorded u t x pre (u.tg c gr) (u.ring c) := by
  intro v t
  have hring : v.ring c = u.ring c := State.ring_of (issuedWait_runner u x gr) c
  have htg : v.tg c gr = u.tg c gr := by rw [State.tg, hring, State.tg]
  have ht : t = v.rnextRecord x pre (u.tg c gr) (u.ring c) p := by rw [← htg, ← hring]
  obtain ⟨m, pois, ns, ho⟩ := v.rnextRecord_only x (u.tg c gr) (u.ring c) p hpre
  rw [ht, ho]
  exact ⟨(issuedWait_wentOn hi).of (fun _ => rfl) rfl, .of (congrArg (putBytes · _ _ _) (issuedWait_mem u x gr))
    (issuedWait_runner u x gr)⟩

section
variable (hi : Issues s x gr true [256 + uniOf w]) (hrun : (s.ring (ringCtx w)).run = true)
  (h : RingLegal x w.toNat s (s.ring (ringCtx w))) (ht : Sparse.get 0 gr.ring (ringCtx w) < (s.ring (ringCtx w)).size)
  (hpre : fld (gr.unif (uniOf w)).toNat 19 0 % 16 = 0)
  (hls : s.lsOk x.core false (fld (gr.unif (uniOf w)).toNat 19 0) 16 = true)
include hi hrun h ht hpre hls

theorem rnext_running (hp : (s.ring (ringCtx w)).here x.core (Sparse.get 0 gr.ring (ringCtx w)) = true) :
    ∃ t, exec (.rnext x w) s = .next t ∧ WentOn x gr s t
      ∧ Recorded s t x (fld (gr.unif (uniOf w)).toNat 19 0) (Sparse.get 0 gr.ring (ringCtx w)) (s.ring (ringCtx w)) := by
  have htg : s.tg (ringCtx w) gr = Sparse.get 0 gr.ring (ringCtx w) := if_pos hrun
  obtain ⟨chk, u, he, hchk, hbegun, -⟩ := rnext_presented x w s
  rw [hbegun hrun] at he
  rw [← htg] at ht hp ⊢
  exact ⟨_, he.trans (congrArg Host.Outcome.next (presentWait_issues hi (hchk s gr hrun h ht hpre hls) hp)),
    rnext_records hi (ringCtx w) (gr.unifP (uniOf w)) hpre⟩

theorem rnext_held (hp : (s.ring (ringCtx w)).here x.core (Sparse.get 0 gr.ring (ringCtx w)) = false) :
    ∃ t, exec (.rnext x w) s = .next t ∧ HeldFor x .rnext gr s t := by
  have htg : s.tg (ringCtx w) gr = Sparse.get 0 gr.ring (ringCtx w) := if_pos hrun
  obtain ⟨chk, u, he, hchk, hbegun, -⟩ := rnext_presented x w s
  rw [hbegun hrun] at he
  rw [← htg] at ht hp
  exact ⟨_, he.trans (congrArg Host.Outcome.next (presentWait_held hi (hchk s gr hrun h ht hpre hls) hp)), heldWait_heldFor hi ..⟩

end

/-! ### RFREE (R374, R375) -/

/-- Buffers that become free send messages; what they are counted as free by stays, while the round runs. -/
theorem State.ringSettle_only (s : State) (c : Nat) : ∃ fab ctx,
    s.ringSettle c = { s with fab := fab, runner := { s.runner with ctx := ctx } }
    ∧ (((s.ringSettle c).ring c).run = true → ((s.ringSettle c).ring c).frees = (s.ring c).frees) := by
  unfold State.ringSettle
  extract_lets r free ts prev sent kept back done
  split
  · exact ⟨s.fab, s.runner.ctx, rfl, fun _ => rfl⟩
  · obtain ⟨fab, hsent⟩ := State.foldl_fab (fun (u : State) t =>
      u.sendColl_fab r.flask (c % 2) 0 (u.ringMsg c r 0x36 prev t 0 false [])) ts s
    have hsent : sent = { s with fab := fab } := hsent
    rw [hsent]
    refine ⟨fab, _, rfl, fun hrun => ?_⟩
    rw [State.ring_setRing] at hrun ⊢
    split at hrun
    · exact absurd hrun Bool.false_ne_true
    · rename_i hd
      rw [if_neg hd]

/-- The group past block `t` of context `c`. -/
def Group.pastBlock (c t : Nat) (gr : Group) : Group := { gr with ring := Sparse.set 0 gr.ring c (t + 1) }

/-- One more release counted, of the block and core that `k` names. -/
def RingSt.freedOnce (r : RingSt) (k : Nat) : RingSt := { r with frees := Sparse.set 0 r.frees k (Sparse.get 0 r.frees k + 1) }

/-- The effect of an RFREE. -/
def State.rfreeCount (s : State) (x : Who) (c : Nat) (gr : Group) (p : Bool) : State :=
  let t := Sparse.get 0 gr.ring c
  let u := (s.setRing c ((s.ring c).freedOnce (4096 * t + x.core))).modGroup x (Group.pastBlock c t)
  (u.poisEvent (u.flaskOf x) p).ringSettle c

/-- What an RFREE of block `b` leaves: its group past the block, its release counted. -/
structure Freed (s t : State) (x : Who) (c b : Nat) : Prop where
  mem : t.mem = s.mem
  group : ∃ gr', t.group x = some gr' ∧ Sparse.get 0 gr'.ring c = b + 1
  count : (t.ring c).run = true →
    Sparse.get 0 (t.ring c).frees (4096 * b + x.core) = Sparse.get 0 (s.ring c).frees (4096 * b + x.core) + 1

theorem rfree_frees {regs : List Nat} (hi : Issues s x gr true regs) (c : Nat) (p : Bool) :
    let t := (s.issuedWait x gr).rfreeCount x c gr p
    WentOn x gr s t ∧ Freed s t x c (Sparse.get 0 gr.ring c) := by
  intro t
  have hwent := issuedWait_wentOn hi
  have hmem := issuedWait_mem s x gr
  have hring : (s.issuedWait x gr).ring c = s.ring c := State.ring_of (issuedWait_runner s x gr) c
  have hgroup := issuedWait_group hi
  generalize hv : s.issuedWait x gr = v at *
  let r := (s.ring c).freedOnce (4096 * Sparse.get 0 gr.ring c + x.core)
  let u := (v.setRing c r).modGroup x (Group.pastBlock c (Sparse.get 0 gr.ring c))
  have ht : t = (u.poisEvent (u.flaskOf x) p).ringSettle c := by
    unfold t State.rfreeCount
    dsimp only
    rw [hv, hring]
  obtain ⟨fab, ctx, hsettle, hfrees⟩ := (u.poisEvent (u.flaskOf x) p).ringSettle_only c
  rw [← ht] at hsettle hfrees
  have hcores : t.cores = u.cores := by rw [hsettle]; exact State.poisEvent_cores ..
  have hregs : t.regs = v.regs := by rw [hsettle]; exact State.poisEvent_regs ..
  have hux : u.group x = some (Group.pastBlock c (Sparse.get 0 gr.ring c) gr.advance) := by
    have hsame : (v.setRing c r).group x = v.group x := State.group_of_cores rfl x
    rw [State.group_modGroup_same _ x (Group.pastBlock c _) fun _ => rfl, hsame, hgroup, Option.map_some]
  have htx : t.group x = some (Group.pastBlock c (Sparse.get 0 gr.ring c) gr.advance) := (State.group_of_cores hcores x).trans hux
  have hur : (u.poisEvent (u.flaskOf x) p).ring c = r := by
    rw [State.ring_of (s := v.setRing c r), State.ring_setRing]
    rw [State.poisEvent_only]
    rfl
  have hpast : Sparse.get 0 (Group.pastBlock c (Sparse.get 0 gr.ring c) gr.advance).ring c = Sparse.get 0 gr.ring c + 1 :=
    (Sparse.get_set_same 0 gr.ring c (Sparse.get 0 gr.ring c + 1) :)
  refine ⟨⟨⟨_, htx, rfl, hi.idle.2.2, rfl, rfl, rfl⟩, ?_, fun g hg => ?_⟩, ?_, ⟨_, htx, hpast⟩, fun hrun => ?_⟩
  · rw [State.rd_of_regs hregs]
    exact hwent.count
  · have hug : u.core g = v.core g := State.core_modCore_other (v.setRing c r) _ hg
    rw [← hwent.others g hg, State.core_of_cores hcores, hug]
  · rw [hsettle]
    exact (State.poisEvent_mem ..).trans hmem
  · rw [hfrees hrun, hur]
    exact (Sparse.get_set_same 0 (s.ring c).frees (4096 * Sparse.get 0 gr.ring c + x.core)
      (Sparse.get 0 (s.ring c).frees (4096 * Sparse.get 0 gr.ring c + x.core) + 1) :)

theorem rfree_issues (hi : Issues s x gr true [256 + uniOf w]) (hrun : (s.ring (ringCtx w)).run = true)
    (h : RingLegal x w.toNat s (s.ring (ringCtx w))) (ht : Sparse.get 0 gr.ring (ringCtx w) < (s.ring (ringCtx w)).size)
    (hb : bit (gr.unif (uniOf w)).toNat 0 = Sparse.get 0 gr.ring (ringCtx w) % 2)
    (hq : s.inFlight (fun q => q.src = .grp x && q.kind ≠ .read && bit q.addr 63 = 0 && aperOf (fld q.addr 47 0) = some x.core) = false) :
    ∃ t, exec (.rfree x w) s = .next t ∧ WentOn x gr s t ∧ Freed s t x (ringCtx w) (Sparse.get 0 gr.ring (ringCtx w)) := by
  have he : exec (.rfree x w) s = .next ((s.issuedWait x gr).rfreeCount x (ringCtx w) gr (gr.unifP (uniOf w))) :=
    congrArg Host.Outcome.next (presentWait_issues hi (need_of (by simp [h.ringForm, hrun, h.core, ht, hb]))
      (congrArg Bool.not hq))
  exact ⟨_, he, rfree_frees hi _ _⟩

end

end Sys2Proof.Machine
end

section
/-! PROOF. The runner ring's own state (R372 to R378) has no part in an access at its point of coherence, nor in an engine's: the
relation `SameRunner`, over the operations of `HomeOnly`. -/

set_option Elab.async false

namespace Sys2Proof.Machine

/-- The runner ring's state is that of `a`. -/
def SameRunner (a s : State) : Prop := s.runner = a.runner

section
variable {a s t : State}

theorem SameRunner.refl (s : State) : SameRunner s s := rfl
theorem SameRunner.upd {regs mem pois cores m fab reqs resps notices records ldlog pba out nextId freeCtr} (h : SameRunner a s) :
    SameRunner a { s with regs := regs, mem := mem, pois := pois, cores := cores, m := m, fab := fab, reqs := reqs, resps := resps,
                          notices := notices, records := records, ldlog := ldlog, pba := pba, out := out, nextId := nextId,
                          freeCtr := freeCtr } := h
theorem SameRunner.wr {r i j v} (h : SameRunner a s) : SameRunner a (s.wr r i j v) := h.upd
theorem SameRunner.wn {r i j v} (h : SameRunner a s) : SameRunner a (s.wn r i j v) := h.upd
theorem SameRunner.wf {r i j hi lo v} (h : SameRunner a s) : SameRunner a (s.wf r i j hi lo v) := h.upd
theorem SameRunner.addSat {r i j w n} (h : SameRunner a s) : SameRunner a (s.addSat r i j w n) := h.upd
theorem SameRunner.addFld {r i j hi lo n} (h : SameRunner a s) : SameRunner a (s.addFld r i j hi lo n) := h.upd

theorem SameRunner.ite {c : Prop} [Decidable c] (hs : SameRunner a s) (ht : SameRunner a t) : SameRunner a (if c then s else t) := by
  split
  · exact hs
  · exact ht

/-- Two ways on from one state. -/
theorem SameRunner.iteOf {u : State} {c : Prop} [Decidable c] (hs : SameRunner a u → SameRunner a s)
    (ht : SameRunner a u → SameRunner a t) (h : SameRunner a u) : SameRunner a (if c then s else t) :=
  .ite (hs h) (ht h)

theorem SameRunner.iteSnd {α : Type} {p q : α × State} {c : Prop} [Decidable c] (hp : SameRunner a p.2) (hq : SameRunner a q.2) :
    SameRunner a (if c then p else q).2 := by
  split
  · exact hp
  · exact hq

theorem SameRunner.foldlBy {α β : Type} {f : β → α → β} {l : List α} {i : β} (st : β → State) (h : SameRunner a (st i))
    (hf : ∀ {i : β}, SameRunner a (st i) → ∀ x, SameRunner a (st (f i x))) : SameRunner a (st (l.foldl f i)) := by
  induction l generalizing i with
  | nil => exact h
  | cons x l ih => exact ih (hf h x)

theorem SameRunner.foldl {α : Type} {f : State → α → State} {l : List α} (h : SameRunner a s)
    (hf : ∀ {s}, SameRunner a s → ∀ x, SameRunner a (f s x)) : SameRunner a (l.foldl f s) :=
  .foldlBy id h hf

/-! ### Error records, notices and the local store -/

theorem SameRunner.freeB (h : SameRunner a s) : SameRunner a (s.freeB).2 := h.upd
theorem SameRunner.notify {n} (h : SameRunner a s) : SameRunner a (s.notify n) := h.upd
theorem SameRunner.stepEvent {f flag} (h : SameRunner a s) : SameRunner a (s.stepEvent f flag) := h.notify
theorem SameRunner.send {mk} (h : SameRunner a s) : SameRunner a (s.send mk) := h.upd
theorem SameRunner.put {o mask bs} (h : SameRunner a s) : SameRunner a (s.put o mask bs) := h.upd
theorem SameRunner.poison {o n} (h : SameRunner a s) : SameRunner a (s.poison o n) := h.upd
theorem SameRunner.clean {o n mask} (h : SameRunner a s) : SameRunner a (s.clean o n mask) := h.upd

theorem SameRunner.lsBytes {g o n} (h : SameRunner a s) : SameRunner a (s.lsBytes g o n).2 :=
  .iteSnd h (.foldlBy Prod.snd h fun h1 _ => .iteSnd h1.upd h1)

theorem SameRunner.seen {o n} (h : SameRunner a s) : SameRunner a (s.seen o n).2 := by
  unfold State.seen
  split
  · exact h.lsBytes
  · exact h

theorem SameRunner.keep {r} (h : SameRunner a s) : SameRunner a (s.keep r) :=
  .ite h.upd (by
    split
    · exact h.upd
    · exact h.addSat)

theorem SameRunner.raiseVec {ld v} (h : SameRunner a s) : SameRunner a (s.raiseVec ld v) := .ite h.upd h.upd
theorem SameRunner.logTo {f cls rseq} (h : SameRunner a s) : SameRunner a (s.logTo f cls rseq) := .ite h.upd.raiseVec h.upd

theorem SameRunner.record {cls code src inst flask d0 d1 d2} (h : SameRunner a s) : SameRunner a
    (s.record cls code src inst flask d0 d1 d2) := by
  unfold State.record
  dsimp only
  split
  · exact .logTo (.wn (.keep (.ite h.upd h)))
  · exact .wn (.keep (.ite h.upd h))

theorem SameRunner.corr {r i j src inst kind} (h : SameRunner a s) : SameRunner a
    (s.corr r i j src inst kind) :=
  .ite h.addSat.record h.addSat

theorem SameRunner.scrubWord {w} (h : SameRunner a s) : SameRunner a (s.scrubWord w) := by
  unfold State.scrubWord
  split
  · exact h
  · exact .ite (.corr h.upd) h.upd.poison.record

theorem SameRunner.scrub {o n} (h : SameRunner a s) : SameRunner a (s.scrub o n) := .ite h (.foldl h fun h1 _ => h1.scrubWord)

theorem SameRunner.lsWrite {o mask bs pois} (h : SameRunner a s) : SameRunner a (s.lsWrite o mask bs pois) := by
  unfold State.lsWrite
  extract_lets n whole touched ws s1 s2
  have h1 : SameRunner a s1 := .ite h (.foldl h fun h1 _ => .ite h1.upd h1.scrubWord)
  exact .ite h1.put.upd h1.put.upd

/-! ### Applications at the point of coherence -/

theorem SameRunner.digest {f off size op recs pois} (h : SameRunner a s) : SameRunner a (s.digest f off size op recs pois) :=
  .ite (by
    split
    · exact h
    · exact .ite (.stepEvent (.wf (.wr h))) (.wr h)) h

theorem SameRunner.sealCheck {off} (h : SameRunner a s) : SameRunner a (s.sealCheck off) := .ite (.ite h.stepEvent h) h
theorem SameRunner.overtake {line} (h : SameRunner a s) : SameRunner a (s.overtake line) := h.upd

theorem SameRunner.pocWrite {f off mask bs pois} (h : SameRunner a s) : SameRunner a (s.pocWrite f off mask bs pois) :=
  .ite (.ite h.digest.sealCheck.put.overtake.poison h.digest.sealCheck.put.overtake.clean) h.lsWrite

theorem SameRunner.pocRead {off n} (h : SameRunner a s) : SameRunner a (s.pocRead off n).2.2 := h.scrub.seen

theorem SameRunner.pocAtom {f off sz aop ops pois} (h : SameRunner a s) : SameRunner a (s.pocAtom f off sz aop ops pois).2.2 :=
  .ite (.ite h.pocRead.digest.sealCheck.put.overtake.poison h.pocRead.digest.sealCheck.put.overtake) h.pocRead.digest.sealCheck.lsWrite

theorem SameRunner.pocBar {f off aop n} (h : SameRunner a s) : SameRunner a (s.pocBar f off aop n).2.2.2 :=
  .ite h.pocRead.digest.sealCheck.put.overtake h.pocRead.digest.sealCheck.lsWrite

/-! ### The channel and the poison list -/

theorem SameRunner.bankPush {line write} (h : SameRunner a s) : SameRunner a (s.bankPush line write) := h.upd
theorem SameRunner.poisUsed {die} (h : SameRunner a s) : SameRunner a (s.poisUsed die) := h.wf
theorem SameRunner.unlist {line} (h : SameRunner a s) : SameRunner a (s.unlist line) := h.upd.poisUsed
theorem SameRunner.dramWrite {line} (h : SameRunner a s) : SameRunner a (s.dramWrite line) := .ite h.upd (.unlist h.upd)

theorem SameRunner.bankWrite {line} (h : SameRunner a s) : SameRunner a (s.bankWrite line) :=
  .ite (.wf h.dramWrite.upd) h.dramWrite

theorem SameRunner.bankTake {line write} (h : SameRunner a s) : SameRunner a (s.bankTake line write) := h.upd
theorem SameRunner.flushBank {line} (h : SameRunner a s) : SameRunner a (s.flushBank line) := .ite h.bankTake.bankWrite h

theorem SameRunner.countAccess {c k} (h : SameRunner a s) : SameRunner a (s.countAccess c k) := by
  unfold State.countAccess
  split
  · exact h
  · exact h.addSat
  · exact .corr (.foldl h fun h1 _ => h1.addSat)
  · exact h.addSat

theorem SameRunner.decodeLine {line} (h : SameRunner a s) : SameRunner a (s.decodeLine line).2 := h.countAccess.countAccess

theorem SameRunner.leftover {line skip} (h : SameRunner a s) : SameRunner a (s.leftover line skip) :=
  .ite h (.foldl (.foldl h fun h1 _ => .ite h1.put h1) fun h1 _ => .ite h1.put h1)

theorem SameRunner.backing {line} (h : SameRunner a s) : SameRunner a (s.backing line) := .ite h (.ite h.upd (.ite h (.send h.upd)))

theorem SameRunner.listLine {line} (h : SameRunner a s) : SameRunner a (s.listLine line) :=
  .ite h.upd (.ite (.poisUsed h.upd) (.record (.wf h.upd)))

theorem SameRunner.poisonLine {line flask} (h : SameRunner a s) : SameRunner a (s.poisonLine line flask) := h.listLine.record.backing
theorem SameRunner.scrubPush {line pois} (h : SameRunner a s) : SameRunner a (s.scrubPush line pois) := .ite h.upd h.addFld

/-! ### The last-level cache -/

theorem SameRunner.llcTouch {die set way} (h : SameRunner a s) : SameRunner a (s.llcTouch die set way) := h.upd
theorem SameRunner.llcDrop {line} (h : SameRunner a s) : SameRunner a (s.llcDrop line) := h.upd
theorem SameRunner.llcDirty {line} (h : SameRunner a s) : SameRunner a (s.llcDirty line) := h.upd
theorem SameRunner.standLine {line flask} (h : SameRunner a s) : SameRunner a (s.standLine line flask) := h.llcDirty.record

theorem SameRunner.sectorCheck {e ks whole} (h : SameRunner a s) : SameRunner a (s.sectorCheck e ks whole) := by
  unfold State.sectorCheck
  extract_lets words two m s1 c
  have h1 : SameRunner a s1 := .ite h h.upd
  exact .ite h1 (.ite h1.listLine.record.backing h1.llcDrop)

theorem SameRunner.evict {v} (h : SameRunner a s) : SameRunner a (s.evict v) := .llcDrop (.ite h.sectorCheck.bankPush h)

theorem SameRunner.install {line dirty} (h : SameRunner a s) : SameRunner a (s.install line dirty) := by
  unfold State.install
  split
  · exact .ite h.llcTouch.llcDirty h.llcTouch
  · exact .llcTouch (.upd (by
      split
      · exact h.evict
      · exact h))

theorem SameRunner.fetchLine {line flask skip keep} (h : SameRunner a s) : SameRunner a (s.fetchLine line flask skip keep).2 := by
  have h1 : SameRunner a (s.decodeLine line).2 := h.decodeLine
  have h2 : SameRunner a ((s.decodeLine line).2.leftover line skip) := h1.leftover
  exact .iteSnd (.ite h1.standLine h1) (.iteSnd (.ite h2.poisonLine.scrubPush h2.poisonLine)
    (.iteSnd (.ite (.scrubPush (.ite h2.upd h2.upd)) (.ite h2.upd h2.upd)) (.ite h2.upd h2.upd)))

/-! ### Requests at their home, and an engine's accesses -/

theorem SameRunner.txPush {p flask m} (h : SameRunner a s) : SameRunner a (s.txPush p flask m) := h.upd

theorem SameRunner.sendBack {flask off m} (h : SameRunner a s) : SameRunner a (s.sendBack flask off m) := by
  unfold State.sendBack
  split
  · exact h.txPush
  · exact h

theorem SameRunner.complete {q data pw olds status} (h : SameRunner a s) : SameRunner a (s.complete q data pw olds status) := by
  unfold State.complete
  dsimp only
  split
  · exact .ite (by
      split
      · exact h.upd
      · exact h.upd) (.sendBack h.upd)
  · exact h.upd

theorem SameRunner.landed {q} (h : SameRunner a s) : SameRunner a (s.landed q) := by
  unfold State.landed
  split
  · exact h.notify
  · exact h

theorem SameRunner.applyWrite {q} (h : SameRunner a s) : SameRunner a (s.applyWrite q) := h.pocWrite.landed

theorem SameRunner.pfDone {q} (h : SameRunner a s) : SameRunner a (s.pfDone q) := by
  unfold State.pfDone
  split
  · exact h.upd
  · exact h

theorem SameRunner.serve {q} (h : SameRunner a s) : SameRunner a (s.serve q) := by
  unfold State.serve
  dsimp only
  split
  · exact .complete (.seen (.ite h.scrub (.foldl h fun h1 _ => h1.scrub)))
  · exact .complete (.seen (.ite h.scrub (.foldl h fun h1 _ => h1.scrub)))
  · exact .ite h.seen.complete h.pfDone
  · exact h.applyWrite.complete
  · exact h.pocAtom.complete
  · exact h.pocAtom.complete
  · exact h.pocBar.complete
  · exact h.pocBar.complete



theorem SameRunner.dataAtHome {line} (h : SameRunner a s) : SameRunner a (s.dataAtHome line) :=
  .iteOf (fun h1 => .ite h1.bankPush h1) (fun h1 => h1.install) (by
    split
    · exact .foldl (.ite (.complete (.fetchLine h.upd)) (.serve (.fetchLine h.upd))) fun h1 _ => h1.serve
    · exact .fetchLine h.upd)

theorem SameRunner.settleLine {line} (h : SameRunner a s) : SameRunner a (s.settleLine line) := .ite
    (.dataAtHome h.flushBank.bankTake.upd) h

theorem SameRunner.engLine {line flask off n write} (h : SameRunner a s) : SameRunner a (s.engLine line flask off n write) := by
  unfold State.engLine
  extract_lets die whole settled checked hit miss
  have h1 : SameRunner a checked := by
    unfold checked
    split
    · exact h.settleLine.sectorCheck
    · exact h.settleLine
  split
  · have h2 : SameRunner a hit := h1.addSat
    exact .ite h2.llcDrop.bankPush h2.install
  · have h2 : SameRunner a miss := h1.addSat
    have h3 : SameRunner a (if whole then (true, miss) else (miss.flushBank line).fetchLine line flask (fun _ => false) false).2 :=
      .iteSnd h2 h2.flushBank.fetchLine
    exact .ite (.ite h3.bankPush h3) h3.install

theorem SameRunner.engRead {f off n} (h : SameRunner a s) : SameRunner a (s.engRead f off n).2.2 := by
  have h1 : SameRunner a (if off < dramEnd then (linePieces off n).foldl
      (fun s p => s.engLine (s.view p.1 / 128) (some f) p.1 p.2 false) s
      else s) := .ite (.foldl h fun h1 _ => h1.engLine) h
  exact .ite h1 h1.scrub

theorem SameRunner.engWriteN {f pois k off bs} (h : SameRunner a s) : SameRunner a (s.engWriteN f pois k off bs) := by
  induction k generalizing s off bs with
  | zero => exact h
  | succ k ih => exact .ite h (ih (.pocWrite (.ite h.engLine h)))

theorem SameRunner.engWrite {f off bs pois} (h : SameRunner a s) : SameRunner a (s.engWrite f off bs pois) := h.engWriteN
theorem SameRunner.poisEvent {f p} (h : SameRunner a s) : SameRunner a (s.poisEvent f p) := .ite h.stepEvent h
theorem SameRunner.engFault {f cause} (h : SameRunner a s) : SameRunner a (s.engFault f cause) := h.notify
theorem SameRunner.ctxEntry {f c} (h : SameRunner a s) : SameRunner a (s.ctxEntry f c).2 := .iteSnd h.engRead.poisEvent h
theorem SameRunner.engLineTo {f src dst} (h : SameRunner a s) : SameRunner a (s.engLineTo f src dst) :=
  .ite h.engFault h.engRead.poisEvent.engWrite

end

end Sys2Proof.Machine
end

section
/-! PROOF. The start of a round by RNEXT (R373), and the engine instructions put together: O41. -/

set_option Elab.async false

namespace Sys2Proof.Machine

/-! ### The start of a round (R373) -/

theorem HomeOnly.ctxEntry {a s : State} {f c} (h : HomeOnly true a s) : HomeOnly true a (s.ctxEntry f c).2 := .iteSnd h.engRead.poisEvent h
theorem HomeOnly.engFault {b : Bool} {a s : State} {f cause} (h : HomeOnly b a s) : HomeOnly b a (s.engFault f cause) := h.notify
theorem HomeOnly.engLineTo {a s : State} {f src dst} (h : HomeOnly true a s) : HomeOnly true a (s.engLineTo f src dst) :=
  .ite h.engFault h.engRead.poisEvent.engWrite

/-- The group at block 0 of context `c`. -/
def Group.atStart (c : Nat) (gr : Group) : Group := { gr with ring := Sparse.set 0 gr.ring c 0 }

/-- The core with every group at block 0. -/
def Core.atStart (c : Nat) (k : Core) : Core := { k with groups := k.groups.map (Group.atStart c) }

/-- From `s` to `u` a round of context `c` with entry `e` has started. -/
structure Started (s u : State) (c : Nat) (e : List Nat) : Prop where
  regs : ∀ r i j, r ∉ homeRegs → u.rn r i j = s.rn r i j
  cores : ∀ g, ∃ pf, u.core g = { (s.core g).atStart c with pf := pf }
  pat : u.pat = s.pat
  run : (u.ring c).run = true
  entry : (u.ring c).ent = e
  round : (u.ring c).round = ((s.ring c).round + 1) % 2 ^ 32
  cred : (u.ring c).cred = 1

theorem State.startRound_started {s u : State} (h : HomeOnly true s u) (hr : SameRunner s u) (f c : Nat) (e : List Nat) :
    Started s (u.startRound f c e) c e := by
  unfold State.startRound
  extract_lets init r u1 clear
  have h1 : HomeOnly true s u1 := .foldl h fun h1 _ => h1.engLineTo
  refine ⟨h1.regs, fun g => ?_, h1.pat, ?_, ?_, ?_, ?_⟩
  · obtain ⟨pf, hpf⟩ := h1.cores g
    have hmap : Sparse.get Core.init (u1.cores.map clear) g = (u1.core g).atStart c :=
      Sparse.get_map Core.init (fun _ k => k.atStart c) u1.cores rfl
    exact ⟨pf, hmap.trans (by rw [hpf]; rfl)⟩
  · rw [State.ring_setRing]
  · rw [State.ring_setRing]
  · rw [State.ring_setRing, ← State.ring_of hr]
  · rw [State.ring_setRing]

section
variable {x : Who} {w : BitVec 56} {s u : State} {gr : Group} {c : Nat} {e : List Nat} (h : Started s u c e)
include h

theorem Started.group (hg : s.group x = some gr) : u.group x = some (gr.atStart c) := by
  obtain ⟨pf, hpf⟩ := h.cores x.core
  rw [State.group, hpf, Core.group]
  refine List.find?_map.trans ?_
  exact congrArg (Option.map (Group.atStart c)) hg

theorem Started.lsOk (g : Nat) (guest : Bool) (a n : Nat) : u.lsOk g guest a n = s.lsOk g guest a n := by
  have hmapped : u.mapped g guest = s.mapped g guest := by
    simp only [State.mapped, State.hostLs, State.lsSize, State.gres, State.rf, h.regs .SPLIT g 0 (by decide)]
  rw [State.lsOk, hmapped, State.lsOk]

theorem Started.flaskOf : u.flaskOf x = s.flaskOf x := by
  obtain ⟨pf, hpf⟩ := h.cores x.core
  exact State.flaskOf_of h.pat (by rw [hpf]; rfl)

theorem Started.issues {regs : List Nat} (hi : Issues s x gr true regs) : Issues u x (gr.atStart c) true regs := by
  obtain ⟨pf, hpf⟩ := h.cores x.core
  refine ⟨h.group hi.here, ?_, (h.lsOk ..).trans hi.fetch, hi.free⟩
  rw [hpf]
  exact hi.runs

theorem Started.ctxOf (c' f : Nat) : u.ctxOf c' f = s.ctxOf c' f := by
  simp only [State.ctxOf, h.regs .CTXEN 0 0 (by decide), h.regs .CTXOWN 0 (c' / 8) (by decide)]

/-- An instruction that goes on from there has gone on. -/
theorem Started.wentOn {t : State} (ht : WentOn x (gr.atStart c) u t) : WentOn x gr s t := by
  obtain ⟨hgroup, hcount, hothers⟩ := ht
  have hissue : u.rd .ISSUE x.core (streamNum x.strm) = s.rd .ISSUE x.core (streamNum x.strm) :=
    BitVec.eq_of_toNat_eq (h.regs _ _ _ (by decide))
  refine ⟨hgroup, hcount.trans (congrArg (· + 1) hissue), fun g hg => (hothers g hg).trans ?_⟩
  obtain ⟨pf, hpf⟩ := h.cores g
  rw [hpf]
  exact List.map_map

end

section
variable {x : Who} {w : BitVec 56} {s : State} {gr : Group}

/-- The first RNEXT after a round has ended starts the next, and writes the record of its block 0. -/
theorem rnext_starts {e : List Nat} {s' : State} (hi : Issues s x gr true [256 + uniOf w])
    (hrun : (s.ring (ringCtx w)).run = false) (hctx : s.ctxEntry (s.flaskOf x) (ringCtx w) = (some e, s'))
    (h : RingLegal x w.toNat s { RingSt.init with ent := e }) (hpre : fld (gr.unif (uniOf w)).toNat 19 0 % 16 = 0)
    (hls : s.lsOk x.core false (fld (gr.unif (uniOf w)).toNat 19 0) 16 = true) :
    ∃ t, exec (.rnext x w) s = .next t ∧ WentOn x gr s t ∧ (t.ring (ringCtx w)).run = true ∧ (t.ring (ringCtx w)).ent = e
      ∧ (t.ring (ringCtx w)).round = ((s.ring (ringCtx w)).round + 1) % 2 ^ 32 ∧ (t.ring (ringCtx w)).cred = 1 := by
  obtain ⟨chk, u, he, hchk, -, hstart⟩ := rnext_presented x w s
  have hu : Started s u (ringCtx w) e := by
    have hhome := (HomeOnly.refl s).ctxEntry (f := s.flaskOf x) (c := ringCtx w)
    have hrunner := (SameRunner.refl s).ctxEntry (f := s.flaskOf x) (c := ringCtx w)
    rw [hctx] at hhome hrunner
    rw [hstart gr e s' hi hrun hctx h hpre hls]
    exact State.startRound_started hhome hrunner _ _ e
  have hiu := hu.issues hi
  have hcore : (u.ring (ringCtx w)).has x.core = true := by
    have hcore := h.core
    simp only [RingSt.has, RingSt.cbase, RingSt.ncore, RingSt.w, hu.entry] at hcore ⊢
    exact hcore
  have hlegal : RingLegal x w.toNat u (u.ring (ringCtx w)) :=
    ⟨h.stream, h.form, h.high, by rw [hu.ctxOf, hu.flaskOf]; exact h.owner, hcore⟩
  have htg : u.tg (ringCtx w) (gr.atStart (ringCtx w)) = 0 :=
    (if_pos hu.run).trans (Sparse.get_set_same 0 gr.ring (ringCtx w) 0 :)
  have hok : chk u (gr.atStart (ringCtx w)) = none :=
    hchk u _ hu.run hlegal (by rw [htg]; exact Nat.succ_pos _) hpre ((hu.lsOk ..).trans hls)
  have hpresent : (u.ring (ringCtx w)).here x.core (u.tg (ringCtx w) (gr.atStart (ringCtx w))) = true := by
    rw [htg]
    rfl
  obtain ⟨hwent, hrec⟩ := rnext_records hiu (ringCtx w) (gr.unifP (uniOf w)) hpre
  have hring := State.ring_of hrec.runner (ringCtx w)
  exact ⟨_, he.trans (congrArg Host.Outcome.next (presentWait_issues hiu hok hpresent)), hu.wentOn hwent,
    (congrArg RingSt.run hring).trans hu.run, (congrArg RingSt.ent hring).trans hu.entry, (congrArg RingSt.round hring).trans hu.round,
    (congrArg RingSt.cred hring).trans hu.cred⟩

end

/-! ### The obligation -/

/-- Settles O41: each instruction is presented to its engine, and goes on with what the engine does, or its group waits. -/
theorem engineInstructions : Obligations.EngineInstructions := by
  unfold Obligations.EngineInstructions
  intro x w s gr
  refine ⟨fun hi hu hq h1 h2 => ?_, ?_, ?_⟩
  · exact lcmk_marks hi hu hq h1 h2
  · intro q off len p hi h1 h2 hok hown hp hpos hsz hst hal hls hjob
    have hlegal (recv : Bool) (hr : s.qRecv q = recv) : QueueLegal recv x w.toNat s (gr.unif (uniOf w)) :=
      ⟨h1, h2, hok, hown, hp, hpos, hsz, hst, hal, hls, hr, fun he => hjob (hr.trans he)⟩
    refine ⟨fun hr hc => ?_, fun hr hc => qput_held hi (hlegal false hr) hc,
      fun hr hsrc => ⟨fun hready hn hj => ?_, fun hready => ?_⟩⟩
    · obtain ⟨t, rs, e, he, hwent, hput⟩ := qput_puts hi (hlegal false hr) hc
      obtain ⟨hq, hpart, hseq, hids⟩ := hput.names
      exact ⟨t, rs, e, he, hwent, hput.mem, hput.reqs, hput.data, hput.writes, hput.puts, hput.sends, hq, hpart, hseq, hids⟩
    · obtain ⟨t, he, hwent, htook⟩ := qtake_takes hi (hlegal true hr) hsrc hready hn hj
      exact ⟨t, he, hwent, htook.count, htook.copied, htook.others⟩
    · exact qtake_held hi (hlegal true hr) hsrc hready
  · intro c r hi hg h1 h2 hctx
    have hlegal (r : RingSt) (hr : r.has x.core = true) : RingLegal x w.toNat s r := ⟨hg, h1, h2, hctx, hr⟩
    refine ⟨fun hrun hhas => ?_, fun hrun e s' hentry hhas hpre hls => ?_⟩
    · intro b pre hb
      refine ⟨fun hpre hls hp => ?_, fun hpre hls hp => rnext_held hi hrun (hlegal r hhas) hb hpre hls hp, fun hbit hq => ?_⟩
      · obtain ⟨t, he, hwent, hrec⟩ := rnext_running hi hrun (hlegal r hhas) hb hpre hls hp
        exact ⟨t, he, hwent, hrec.runner, hrec.index, hrec.origin, hrec.buffer, hrec.others⟩
      · obtain ⟨t, he, hwent, hfreed⟩ := rfree_issues hi hrun (hlegal r hhas) hb hbit hq
        obtain ⟨gr', hgroup, hring⟩ := hfreed.group
        exact ⟨t, gr', he, hwent, hfreed.mem, hgroup, hring, hfreed.count⟩
    · exact rnext_starts hi hrun hentry (hlegal _ hhas) hpre hls

end Sys2Proof.Machine
end
